-- ==== Sys2Proof/Word.lean ====
section
/-! DEFINITION. The word types: 64-bit scalar registers, bytes, 56-bit addresses, 512-bit vector registers and
the 128-byte unit (00 R1, 01 R18, 10 R230, 05 R117). -/

namespace Sys2Proof

/-- A scalar register (10 R213). -/
abbrev Word := BitVec 64
/-- One byte of memory. -/
abbrev Byte := BitVec 8
/-- A virtual or device physical address (01 R18, R26). -/
abbrev Addr := BitVec 56
/-- A vector register (10 R230). -/
abbrev Vec := BitVec 512
/-- A 128-byte unit (05 R117). -/
abbrev Unit128 := BitVec 1024

end Sys2Proof
end

