-- ==== Sys2Proof/Syntax.lean ====
section
/-! DEFINITION. The syntax: one constructor of `Instr` for each row of the opcode table.

The 217 encoded instructions (03 R62 to R76) carry the switch marker `m` (bit 31, R65) and the fields of
their format. The 87 steps without an encoding are the events of the module's other agents; their operands
(which core, which message in flight, which register value) are the model's own, assumption 3, DESIGN CHOICE, unsafe. -/

namespace Sys2Proof

/-- A fabric operation packet's header fields and payload (18 R376). `via` is the device that one on a detour has still to reach, which the virtual
channel that it travels on shows (18 R374). -/
structure Packet where
  opc     : Nat
  pa      : BitVec 56
  dev     : Nat
  core    : Nat
  tag     : Nat
  inc     : Nat
  len     : Nat
  stamp   : BitVec 16
  lag     : Nat
  mode    : Nat
  cls     : Nat
  domain  : Nat
  aop     : BitVec 10
  stale   : Bool
  status  : Nat
  payload : BitVec 2048
  via     : Option Nat
  deriving DecidableEq, Repr

/-- The operations and events of the opcode table. -/
inductive Instr where
  /-- Adds two registers modulo 2^64. (R234) -/
  | add (m : Bool) (d : BitVec 5) (a : BitVec 5) (b : BitVec 5)
  /-- Subtracts two registers modulo 2^64. (R234) -/
  | sub (m : Bool) (d : BitVec 5) (a : BitVec 5) (b : BitVec 5)
  /-- Bitwise and of two registers. (R234) -/
  | and (m : Bool) (d : BitVec 5) (a : BitVec 5) (b : BitVec 5)
  /-- Bitwise or of two registers. (R234) -/
  | or (m : Bool) (d : BitVec 5) (a : BitVec 5) (b : BitVec 5)
  /-- Bitwise xor of two registers. (R234) -/
  | xor (m : Bool) (d : BitVec 5) (a : BitVec 5) (b : BitVec 5)
  /-- a and not b. (R234) -/
  | andn (m : Bool) (d : BitVec 5) (a : BitVec 5) (b : BitVec 5)
  /-- a or not b. (R234) -/
  | orn (m : Bool) (d : BitVec 5) (a : BitVec 5) (b : BitVec 5)
  /-- Shift left logical by b[5:0]. (R234) -/
  | sll (m : Bool) (d : BitVec 5) (a : BitVec 5) (b : BitVec 5)
  /-- Shift right logical by b[5:0]. (R234) -/
  | srl (m : Bool) (d : BitVec 5) (a : BitVec 5) (b : BitVec 5)
  /-- Shift right arithmetic by b[5:0]. (R234) -/
  | sra (m : Bool) (d : BitVec 5) (a : BitVec 5) (b : BitVec 5)
  /-- Rotate left by b[5:0]. (R234) -/
  | rol (m : Bool) (d : BitVec 5) (a : BitVec 5) (b : BitVec 5)
  /-- Rotate right by b[5:0]. (R234) -/
  | ror (m : Bool) (d : BitVec 5) (a : BitVec 5) (b : BitVec 5)
  /-- Set if less than, signed. (R234) -/
  | slt (m : Bool) (d : BitVec 5) (a : BitVec 5) (b : BitVec 5)
  /-- Set if less than, unsigned. (R234) -/
  | sltu (m : Bool) (d : BitVec 5) (a : BitVec 5) (b : BitVec 5)
  /-- Signed minimum. (R234) -/
  | min (m : Bool) (d : BitVec 5) (a : BitVec 5) (b : BitVec 5)
  /-- Signed maximum. (R234) -/
  | max (m : Bool) (d : BitVec 5) (a : BitVec 5) (b : BitVec 5)
  /-- Unsigned minimum. (R234) -/
  | minu (m : Bool) (d : BitVec 5) (a : BitVec 5) (b : BitVec 5)
  /-- Unsigned maximum. (R234) -/
  | maxu (m : Bool) (d : BitVec 5) (a : BitVec 5) (b : BitVec 5)
  /-- Count leading zero bits. (R234) -/
  | clz (m : Bool) (d : BitVec 5) (a : BitVec 5)
  /-- Count trailing zero bits. (R234) -/
  | ctz (m : Bool) (d : BitVec 5) (a : BitVec 5)
  /-- Count one bits. (R234) -/
  | popc (m : Bool) (d : BitVec 5) (a : BitVec 5)
  /-- Reverse the bytes of a. (R234) -/
  | bswap (m : Bool) (d : BitVec 5) (a : BitVec 5)
  /-- Sign-extend a[7:0]. (R234) -/
  | sextB (m : Bool) (d : BitVec 5) (a : BitVec 5)
  /-- Sign-extend a[15:0]. (R234) -/
  | sextH (m : Bool) (d : BitVec 5) (a : BitVec 5)
  /-- Sign-extend a[31:0]. (R234) -/
  | sextW (m : Bool) (d : BitVec 5) (a : BitVec 5)
  /-- Zero-extend a[7:0]. (R234) -/
  | zextB (m : Bool) (d : BitVec 5) (a : BitVec 5)
  /-- Zero-extend a[15:0]. (R234) -/
  | zextH (m : Bool) (d : BitVec 5) (a : BitVec 5)
  /-- Zero-extend a[31:0]. (R234) -/
  | zextW (m : Bool) (d : BitVec 5) (a : BitVec 5)
  /-- Adds a sign-extended 15-bit immediate. (R235) -/
  | addi (m : Bool) (d : BitVec 5) (a : BitVec 5) (i : BitVec 15)
  /-- And with a sign-extended immediate. (R235) -/
  | andi (m : Bool) (d : BitVec 5) (a : BitVec 5) (i : BitVec 15)
  /-- Or with a sign-extended immediate. (R235) -/
  | ori (m : Bool) (d : BitVec 5) (a : BitVec 5) (i : BitVec 15)
  /-- Xor with a sign-extended immediate. (R235) -/
  | xori (m : Bool) (d : BitVec 5) (a : BitVec 5) (i : BitVec 15)
  /-- Set if less than immediate, signed. (R235) -/
  | slti (m : Bool) (d : BitVec 5) (a : BitVec 5) (i : BitVec 15)
  /-- Set if less than immediate, unsigned. (R235) -/
  | sltiu (m : Bool) (d : BitVec 5) (a : BitVec 5) (i : BitVec 15)
  /-- Shift left logical by an immediate amount. (R235) -/
  | slli (m : Bool) (d : BitVec 5) (a : BitVec 5) (n : BitVec 6)
  /-- Shift right logical by an immediate amount. (R235) -/
  | srli (m : Bool) (d : BitVec 5) (a : BitVec 5) (n : BitVec 6)
  /-- Shift right arithmetic by an immediate amount. (R235) -/
  | srai (m : Bool) (d : BitVec 5) (a : BitVec 5) (n : BitVec 6)
  /-- Loads imm20 << 12, sign-extended from bit 31. (R236) -/
  | lui (m : Bool) (d : BitVec 5) (i : BitVec 20)
  /-- Shifts d left 20 and ors in imm20. (R236) -/
  | lua (m : Bool) (d : BitVec 5) (i : BitVec 20)
  /-- Low 64 bits of the product. (R238) -/
  | mull (m : Bool) (d : BitVec 5) (a : BitVec 5) (b : BitVec 5)
  /-- High half of the signed product. (R238) -/
  | mulhs (m : Bool) (d : BitVec 5) (a : BitVec 5) (b : BitVec 5)
  /-- High half of the unsigned product. (R238) -/
  | mulhz (m : Bool) (d : BitVec 5) (a : BitVec 5) (b : BitVec 5)
  /-- High half of signed a times unsigned b. (R238) -/
  | mulhsz (m : Bool) (d : BitVec 5) (a : BitVec 5) (b : BitVec 5)
  /-- Starts a signed saturating quotient in the divider. (R238) -/
  | divq (m : Bool) (d : BitVec 5) (a : BitVec 5) (b : BitVec 5)
  /-- Starts an unsigned quotient in the divider. (R238) -/
  | divqz (m : Bool) (d : BitVec 5) (a : BitVec 5) (b : BitVec 5)
  /-- Starts a signed remainder in the divider. (R238) -/
  | divr (m : Bool) (d : BitVec 5) (a : BitVec 5) (b : BitVec 5)
  /-- Starts an unsigned remainder in the divider. (R238) -/
  | divrz (m : Bool) (d : BitVec 5) (a : BitVec 5) (b : BitVec 5)
  /-- The divider writes its result 20 cycles after start, to the entry named at issue, unless the context was killed. (R239) -/
  | divideComplete (core : Nat)
  /-- Adds b to the 56-bit VA keeping the top byte. (R240) -/
  | padd (m : Bool) (d : BitVec 5) (a : BitVec 5) (b : BitVec 5)
  /-- Replaces FMT and BLOG with b[7:0]. (R240) -/
  | pfmt (m : Bool) (d : BitVec 5) (a : BitVec 5) (b : BitVec 5)
  /-- Extracts the pointer's top byte. (R240) -/
  | pget (m : Bool) (d : BitVec 5) (a : BitVec 5)
  /-- Extracts the pointer's 56-bit VA. (R240) -/
  | pstrip (m : Bool) (d : BitVec 5) (a : BitVec 5)
  /-- Advances a fat pointer by b elements of its format. (R241) -/
  | pidx (m : Bool) (d : BitVec 5) (a : BitVec 5) (b : BitVec 5)
  /-- Adds a signed 14-bit immediate to the pointer's VA. (R240) -/
  | paddi (m : Bool) (d : BitVec 5) (a : BitVec 5) (i : BitVec 14)
  /-- Branches when a = b. (R242) -/
  | beq (m : Bool) (a : BitVec 5) (b : BitVec 5) (o : BitVec 15)
  /-- Branches when a ≠ b. (R242) -/
  | bne (m : Bool) (a : BitVec 5) (b : BitVec 5) (o : BitVec 15)
  /-- Branches when a < b signed. (R242) -/
  | blt (m : Bool) (a : BitVec 5) (b : BitVec 5) (o : BitVec 15)
  /-- Branches when a ≥ b signed. (R242) -/
  | bge (m : Bool) (a : BitVec 5) (b : BitVec 5) (o : BitVec 15)
  /-- Branches when a < b unsigned. (R242) -/
  | bltu (m : Bool) (a : BitVec 5) (b : BitVec 5) (o : BitVec 15)
  /-- Branches when a ≥ b unsigned. (R242) -/
  | bgeu (m : Bool) (a : BitVec 5) (b : BitVec 5) (o : BitVec 15)
  /-- Jumps PC-relative. (R243) -/
  | j (m : Bool) (o : BitVec 25)
  /-- Jumps PC-relative, leaving the return address in o7. (R243) -/
  | jl (m : Bool) (o : BitVec 25)
  /-- Jumps to a register. (R243) -/
  | jr (m : Bool) (a : BitVec 5)
  /-- Jumps to a register, writing PC + 4 to d. (R243) -/
  | jlr (m : Bool) (d : BitVec 5) (a : BitVec 5)
  /-- Opens a register frame and calls a PC-relative target, or traps WIN_SPILL. (R218) -/
  | call (m : Bool) (o : BitVec 24)
  /-- Opens a register frame and calls a register target, or traps WIN_SPILL. (R218) -/
  | callr (m : Bool) (a : BitVec 5)
  /-- Closes the register frame and returns to l7, or traps WIN_FILL. (R218) -/
  | ret (m : Bool)
  /-- Issues the next len instructions count times from the buffer with local-register rotation. (R227) -/
  | rep (m : Bool) (l : BitVec 4) (t : BitVec 3) (c : BitVec 12)
  /-- Loads a byte, sign-extended. (R178) -/
  | ldB (m : Bool) (d : BitVec 5) (a : BitVec 5) (o : BitVec 12)
  /-- Loads a byte, zero-extended. (R178) -/
  | ldBu (m : Bool) (d : BitVec 5) (a : BitVec 5) (o : BitVec 12)
  /-- Loads a halfword, sign-extended. (R178) -/
  | ldH (m : Bool) (d : BitVec 5) (a : BitVec 5) (o : BitVec 12)
  /-- Loads a halfword, zero-extended. (R178) -/
  | ldHu (m : Bool) (d : BitVec 5) (a : BitVec 5) (o : BitVec 12)
  /-- Loads a word, sign-extended. (R178) -/
  | ldW (m : Bool) (d : BitVec 5) (a : BitVec 5) (o : BitVec 12)
  /-- Loads a word, zero-extended. (R178) -/
  | ldWu (m : Bool) (d : BitVec 5) (a : BitVec 5) (o : BitVec 12)
  /-- Loads a doubleword. (R178) -/
  | ldD (m : Bool) (d : BitVec 5) (a : BitVec 5) (o : BitVec 12)
  /-- Brings a unit into the L1 on a TLB hit; never faults. (R180) -/
  | pref (m : Bool) (a : BitVec 5) (o : BitVec 12)
  /-- Stores a byte. (R178) -/
  | stB (m : Bool) (b : BitVec 5) (a : BitVec 5) (o : BitVec 12)
  /-- Stores a halfword. (R178) -/
  | stH (m : Bool) (b : BitVec 5) (a : BitVec 5) (o : BitVec 12)
  /-- Stores a word. (R178) -/
  | stW (m : Bool) (b : BitVec 5) (a : BitVec 5) (o : BitVec 12)
  /-- Stores a doubleword. (R178) -/
  | stD (m : Bool) (b : BitVec 5) (a : BitVec 5) (o : BitVec 12)
  /-- Loads and converts one element through a fat pointer. (R183) -/
  | lde (m : Bool) (d : BitVec 5) (a : BitVec 5) (k : BitVec 12)
  /-- Converts and stores one element through a fat pointer. (R183) -/
  | ste (m : Bool) (d : BitVec 5) (a : BitVec 5) (k : BitVec 12)
  /-- Lagged 4-byte load, sign-extended, with age word. (R149) -/
  | ldlW (m : Bool) (d : BitVec 5) (a : BitVec 5) (b : BitVec 5) (l : BitVec 6) (mode : BitVec 2)
  /-- Lagged 4-byte load, zero-extended, with age word. (R149) -/
  | ldlWu (m : Bool) (d : BitVec 5) (a : BitVec 5) (b : BitVec 5) (l : BitVec 6) (mode : BitVec 2)
  /-- Lagged 8-byte load with age word. (R149) -/
  | ldlD (m : Bool) (d : BitVec 5) (a : BitVec 5) (b : BitVec 5) (l : BitVec 6) (mode : BitVec 2)
  /-- Atomic add. (R186) -/
  | amoadd (m : Bool) (d : BitVec 5) (a : BitVec 5) (b : BitVec 5) (w : BitVec 1) (o : BitVec 2)
  /-- Atomic and. (R186) -/
  | amoand (m : Bool) (d : BitVec 5) (a : BitVec 5) (b : BitVec 5) (w : BitVec 1) (o : BitVec 2)
  /-- Atomic or. (R186) -/
  | amoor (m : Bool) (d : BitVec 5) (a : BitVec 5) (b : BitVec 5) (w : BitVec 1) (o : BitVec 2)
  /-- Atomic xor. (R186) -/
  | amoxor (m : Bool) (d : BitVec 5) (a : BitVec 5) (b : BitVec 5) (w : BitVec 1) (o : BitVec 2)
  /-- Atomic signed minimum. (R186) -/
  | amomin (m : Bool) (d : BitVec 5) (a : BitVec 5) (b : BitVec 5) (w : BitVec 1) (o : BitVec 2)
  /-- Atomic signed maximum. (R186) -/
  | amomax (m : Bool) (d : BitVec 5) (a : BitVec 5) (b : BitVec 5) (w : BitVec 1) (o : BitVec 2)
  /-- Atomic unsigned minimum. (R186) -/
  | amominu (m : Bool) (d : BitVec 5) (a : BitVec 5) (b : BitVec 5) (w : BitVec 1) (o : BitVec 2)
  /-- Atomic unsigned maximum. (R186) -/
  | amomaxu (m : Bool) (d : BitVec 5) (a : BitVec 5) (b : BitVec 5) (w : BitVec 1) (o : BitVec 2)
  /-- Atomic swap. (R186) -/
  | amoswap (m : Bool) (d : BitVec 5) (a : BitVec 5) (b : BitVec 5) (w : BitVec 1) (o : BitVec 2)
  /-- Atomic FP32 add rounded RNE. (R186) -/
  | amofaddS (m : Bool) (d : BitVec 5) (a : BitVec 5) (b : BitVec 5) (o : BitVec 2)
  /-- Compare and swap. (R186) -/
  | cas (m : Bool) (d : BitVec 5) (a : BitVec 5) (b : BitVec 5) (w : BitVec 1) (o : BitVec 2)
  /-- Pair or quad compare and swap, or remote ENQ or CHASE by selector. (R187) -/
  | cas2 (m : Bool) (d : BitVec 5) (a : BitVec 5) (b : BitVec 5) (w : BitVec 1) (o : BitVec 2)
  /-- Waits until earlier accesses of the kind are performed at the scope. (R172) -/
  | fence (m : Bool) (c : BitVec 3) (k : BitVec 3)
  /-- Writes back and drops the unit from the core's L1. (R190) -/
  | cflush (m : Bool) (a : BitVec 5)
  /-- Drops the unit from the core's L1. (R190) -/
  | cinv (m : Bool) (a : BitVec 5)
  /-- Writes back dirty data of the unit, keeping the copy. (R190) -/
  | cwb (m : Bool) (a : BitVec 5)
  /-- Acquire load. (R179) -/
  | lda (m : Bool) (d : BitVec 5) (a : BitVec 5) (z : BitVec 2) (o : BitVec 12)
  /-- Release store. (R179) -/
  | strl (m : Bool) (d : BitVec 5) (a : BitVec 5) (z : BitVec 2) (o : BitVec 12)
  /-- Waits for STAMPED writes, then advances ITER and drops an era. (R157) -/
  | itadv (m : Bool) (i : BitVec 12)
  /-- Waits for STAMPED writes, then sets ITER and drops an era. (R157) -/
  | itset (m : Bool) (a : BitVec 5) (i : BitVec 12)
  /-- Reads ITER. (R157) -/
  | itget (m : Bool) (d : BitVec 5)
  /-- Lane-wise integer add. (R249) -/
  | vadd (m : Bool) (d : BitVec 5) (a : BitVec 5) (b : BitVec 5) (t : BitVec 2) (k : BitVec 3)
  /-- Lane-wise integer subtract. (R249) -/
  | vsub (m : Bool) (d : BitVec 5) (a : BitVec 5) (b : BitVec 5) (t : BitVec 2) (k : BitVec 3)
  /-- Lane-wise integer multiply, low bits. (R249) -/
  | vmul (m : Bool) (d : BitVec 5) (a : BitVec 5) (b : BitVec 5) (t : BitVec 2) (k : BitVec 3)
  /-- Lane-wise signed minimum. (R249) -/
  | vmin (m : Bool) (d : BitVec 5) (a : BitVec 5) (b : BitVec 5) (t : BitVec 2) (k : BitVec 3)
  /-- Lane-wise signed maximum. (R249) -/
  | vmax (m : Bool) (d : BitVec 5) (a : BitVec 5) (b : BitVec 5) (t : BitVec 2) (k : BitVec 3)
  /-- Lane-wise and. (R249) -/
  | vand (m : Bool) (d : BitVec 5) (a : BitVec 5) (b : BitVec 5) (t : BitVec 2) (k : BitVec 3)
  /-- Lane-wise or. (R249) -/
  | vor (m : Bool) (d : BitVec 5) (a : BitVec 5) (b : BitVec 5) (t : BitVec 2) (k : BitVec 3)
  /-- Lane-wise xor. (R249) -/
  | vxor (m : Bool) (d : BitVec 5) (a : BitVec 5) (b : BitVec 5) (t : BitVec 2) (k : BitVec 3)
  /-- Lane-wise shift left. (R249) -/
  | vsll (m : Bool) (d : BitVec 5) (a : BitVec 5) (b : BitVec 5) (t : BitVec 2) (k : BitVec 3)
  /-- Lane-wise logical shift right. (R249) -/
  | vsrl (m : Bool) (d : BitVec 5) (a : BitVec 5) (b : BitVec 5) (t : BitVec 2) (k : BitVec 3)
  /-- Lane-wise arithmetic shift right. (R249) -/
  | vsra (m : Bool) (d : BitVec 5) (a : BitVec 5) (b : BitVec 5) (t : BitVec 2) (k : BitVec 3)
  /-- Lane-wise float add. (R250) -/
  | vfadd (m : Bool) (d : BitVec 5) (a : BitVec 5) (b : BitVec 5) (t : BitVec 2) (k : BitVec 3)
  /-- Lane-wise float subtract. (R250) -/
  | vfsub (m : Bool) (d : BitVec 5) (a : BitVec 5) (b : BitVec 5) (t : BitVec 2) (k : BitVec 3)
  /-- Lane-wise float multiply. (R250) -/
  | vfmul (m : Bool) (d : BitVec 5) (a : BitVec 5) (b : BitVec 5) (t : BitVec 2) (k : BitVec 3)
  /-- Fused multiply-add into vd. (R250) -/
  | vfma (m : Bool) (d : BitVec 5) (a : BitVec 5) (b : BitVec 5) (t : BitVec 2) (k : BitVec 3)
  /-- Fused negated multiply-add into vd. (R250) -/
  | vfnma (m : Bool) (d : BitVec 5) (a : BitVec 5) (b : BitVec 5) (t : BitVec 2) (k : BitVec 3)
  /-- Lane-wise float minimum. (R251) -/
  | vfmin (m : Bool) (d : BitVec 5) (a : BitVec 5) (b : BitVec 5) (t : BitVec 2) (k : BitVec 3)
  /-- Lane-wise float maximum. (R251) -/
  | vfmax (m : Bool) (d : BitVec 5) (a : BitVec 5) (b : BitVec 5) (t : BitVec 2) (k : BitVec 3)
  /-- Lane-wise absolute value. (R250) -/
  | vfabs (m : Bool) (d : BitVec 5) (a : BitVec 5) (t : BitVec 2) (k : BitVec 3)
  /-- Lane-wise negation. (R250) -/
  | vfneg (m : Bool) (d : BitVec 5) (a : BitVec 5) (t : BitVec 2) (k : BitVec 3)
  /-- Lane-wise reciprocal rounded RNE. (R252) -/
  | vfrcp (m : Bool) (d : BitVec 5) (a : BitVec 5) (t : BitVec 2) (k : BitVec 3)
  /-- Lane-wise reciprocal square root rounded RNE. (R252) -/
  | vfrsqrt (m : Bool) (d : BitVec 5) (a : BitVec 5) (t : BitVec 2) (k : BitVec 3)
  /-- Lane-wise power of two rounded RNE. (R252) -/
  | vfexp2 (m : Bool) (d : BitVec 5) (a : BitVec 5) (t : BitVec 2) (k : BitVec 3)
  /-- Multiplies lanes by 2 to an integer power. (R253) -/
  | vscale (m : Bool) (d : BitVec 5) (a : BitVec 5) (b : BitVec 5) (t : BitVec 2) (k : BitVec 3)
  /-- Lane-wise equal comparison into a mask. (R254) -/
  | vcmpEq (m : Bool) (d : BitVec 3) (a : BitVec 5) (b : BitVec 5) (t : BitVec 2) (k : BitVec 3)
  /-- Lane-wise less-than comparison into a mask. (R254) -/
  | vcmpLt (m : Bool) (d : BitVec 3) (a : BitVec 5) (b : BitVec 5) (t : BitVec 2) (k : BitVec 3)
  /-- Lane-wise less-or-equal comparison into a mask. (R254) -/
  | vcmpLe (m : Bool) (d : BitVec 3) (a : BitVec 5) (b : BitVec 5) (t : BitVec 2) (k : BitVec 3)
  /-- Lane-wise not-equal comparison into a mask. (R254) -/
  | vcmpNe (m : Bool) (d : BitVec 3) (a : BitVec 5) (b : BitVec 5) (t : BitVec 2) (k : BitVec 3)
  /-- Selects each lane from va or vb by the mask. (R255) -/
  | vsel (m : Bool) (d : BitVec 5) (a : BitVec 5) (b : BitVec 5) (t : BitVec 2) (k : BitVec 3)
  /-- Contiguous vector load. (R257) -/
  | vld (m : Bool) (d : BitVec 5) (a : BitVec 5) (t : BitVec 2) (k : BitVec 3)
  /-- Contiguous vector store. (R257) -/
  | vst (m : Bool) (d : BitVec 5) (a : BitVec 5) (t : BitVec 2) (k : BitVec 3)
  /-- Strided vector load. (R257) -/
  | vlds (m : Bool) (d : BitVec 5) (a : BitVec 5) (b : BitVec 5) (t : BitVec 2) (k : BitVec 3)
  /-- Strided vector store. (R257) -/
  | vsts (m : Bool) (d : BitVec 5) (a : BitVec 5) (b : BitVec 5) (t : BitVec 2) (k : BitVec 3)
  /-- Indexed vector gather. (R257) -/
  | vgath (m : Bool) (d : BitVec 5) (a : BitVec 5) (b : BitVec 5) (t : BitVec 2) (k : BitVec 3)
  /-- Indexed vector scatter. (R257) -/
  | vscat (m : Bool) (d : BitVec 5) (a : BitVec 5) (b : BitVec 5) (t : BitVec 2) (k : BitVec 3)
  /-- Converts lanes between two unblocked formats. (R263) -/
  | vcvt (m : Bool) (d : BitVec 5) (a : BitVec 5) (g : BitVec 5) (r : BitVec 2) (k : BitVec 3) (c : BitVec 5)
  /-- Quantises a block of 32 elements to a blocked format with scale hint. (R265) -/
  | vquant (m : Bool) (d : BitVec 5) (a : BitVec 5) (g : BitVec 5) (r : BitVec 2) (k : BitVec 3) (c : BitVec 5)
  /-- Decodes a block image to an unblocked format. (R266) -/
  | vdequant (m : Bool) (d : BitVec 5) (a : BitVec 5) (g : BitVec 5) (r : BitVec 2) (k : BitVec 3) (c : BitVec 5)
  /-- Broadcasts a scalar to active lanes. (R260) -/
  | vbcast (m : Bool) (d : BitVec 5) (a : BitVec 5) (t : BitVec 2) (k : BitVec 3)
  /-- Extracts a lane to a scalar. (R260) -/
  | vmovx (m : Bool) (d : BitVec 5) (a : BitVec 5) (b : BitVec 5) (t : BitVec 2)
  /-- Inserts a scalar into a lane. (R260) -/
  | vins (m : Bool) (d : BitVec 5) (a : BitVec 5) (b : BitVec 5) (t : BitVec 2)
  /-- Permutes lanes by an index vector. (R260) -/
  | vperm (m : Bool) (d : BitVec 5) (a : BitVec 5) (b : BitVec 5) (t : BitVec 2) (k : BitVec 3)
  /-- Slides lanes by a scalar offset. (R260) -/
  | vslide (m : Bool) (d : BitVec 5) (a : BitVec 5) (b : BitVec 5) (t : BitVec 2) (k : BitVec 3)
  /-- Integer sum reduction into a scalar. (R261) -/
  | vredsum (m : Bool) (d : BitVec 5) (a : BitVec 5) (t : BitVec 2) (k : BitVec 3)
  /-- Integer max reduction into a scalar. (R261) -/
  | vredmax (m : Bool) (d : BitVec 5) (a : BitVec 5) (t : BitVec 2) (k : BitVec 3)
  /-- Integer min reduction into a scalar. (R261) -/
  | vredmin (m : Bool) (d : BitVec 5) (a : BitVec 5) (t : BitVec 2) (k : BitVec 3)
  /-- Float pairwise-tree sum reduction. (R261) -/
  | vredsumFloat (m : Bool) (d : BitVec 5) (a : BitVec 5) (t : BitVec 2) (k : BitVec 3)
  /-- Float max reduction. (R261) -/
  | vredmaxFloat (m : Bool) (d : BitVec 5) (a : BitVec 5) (t : BitVec 2) (k : BitVec 3)
  /-- Float min reduction. (R261) -/
  | vredminFloat (m : Bool) (d : BitVec 5) (a : BitVec 5) (t : BitVec 2) (k : BitVec 3)
  /-- Mask and. (R267) -/
  | kand (m : Bool) (d : BitVec 3) (a : BitVec 3) (b : BitVec 3)
  /-- Mask or. (R267) -/
  | kor (m : Bool) (d : BitVec 3) (a : BitVec 3) (b : BitVec 3)
  /-- Mask xor. (R267) -/
  | kxor (m : Bool) (d : BitVec 3) (a : BitVec 3) (b : BitVec 3)
  /-- Mask not. (R267) -/
  | knot (m : Bool) (d : BitVec 3) (a : BitVec 3)
  /-- Moves a scalar into a mask. (R267) -/
  | kmovToMask (m : Bool) (d : BitVec 3) (a : BitVec 5)
  /-- Moves a mask into a scalar. (R267) -/
  | kmovFromMask (m : Bool) (d : BitVec 5) (a : BitVec 3)
  /-- Configures a tile's shape and zeroes it. (R274) -/
  | tcfg (m : Bool) (t : BitVec 3) (a : BitVec 5)
  /-- Zeroes a tile and clears poison. (R274) -/
  | tzero (m : Bool) (t : BitVec 3)
  /-- Loads a tile row from memory. (R274) -/
  | tldr (m : Bool) (t : BitVec 3) (a : BitVec 5) (i : BitVec 6)
  /-- Stores a tile row to memory. (R274) -/
  | tstr (m : Bool) (t : BitVec 3) (a : BitVec 5) (i : BitVec 6)
  /-- Writes a tile row from a vector register. (R274) -/
  | tvrow (m : Bool) (t : BitVec 3) (a : BitVec 5) (i : BitVec 6)
  /-- Reads a tile row into a vector register. (R274) -/
  | trowv (m : Bool) (t : BitVec 3) (a : BitVec 5) (i : BitVec 6)
  /-- Writes a tile column from a vector register. (R274) -/
  | tvcol (m : Bool) (t : BitVec 3) (a : BitVec 5) (i : BitVec 6)
  /-- Reads a tile column into a vector register. (R274) -/
  | tcolv (m : Bool) (t : BitVec 3) (a : BitVec 5) (i : BitVec 6)
  /-- Writes a non-SAVED tile to its save area and marks it SAVED. (R274) -/
  | tsave (m : Bool) (t : BitVec 3)
  /-- Reads TSHAPE with BUSY, without waiting. (R274) -/
  | tstat (m : Bool) (t : BitVec 3) (a : BitVec 5)
  /-- Checks and enqueues a matrix multiply-accumulate on the local matrix unit. (R280) -/
  | mma (m : Bool) (t : BitVec 3) (a : BitVec 5) (b : BitVec 5) (n : BitVec 1)
  /-- Sends a matrix operation command to a target core. (R287) -/
  | mmar (m : Bool) (t : BitVec 3) (a : BitVec 5) (b : BitVec 5) (n : BitVec 1)
  /-- Writes a matrix engine register. (R276) -/
  | mxw (m : Bool) (a : BitVec 5) (r : BitVec 8)
  /-- Reads a matrix engine register. (R276) -/
  | mxr (m : Bool) (a : BitVec 5) (r : BitVec 8)
  /-- Reads a copy command block and starts it on a channel. (R204) -/
  | ceStart (m : Bool) (a : BitVec 5) (b : BitVec 5)
  /-- Cancels the command on a channel. (R205) -/
  | ceCancel (m : Bool) (a : BitVec 5)
  /-- Reads a channel's state. (R206) -/
  | ceStat (m : Bool) (a : BitVec 5) (b : BitVec 5)
  /-- Defines, activates or retires a cache definition record. (R129) -/
  | vcdef (m : Bool) (a : BitVec 5) (b : BitVec 5)
  /-- Starts a live resize of a virtual cache. (R129) -/
  | vcresize (m : Bool) (a : BitVec 5) (b : BitVec 5)
  /-- Starts a background write-back of a virtual cache. (R130) -/
  | vcflush (m : Bool) (a : BitVec 5) (b : BitVec 5)
  /-- Starts a background eviction of every line of a virtual cache. (R130) -/
  | vcinv (m : Bool) (a : BitVec 5) (b : BitVec 5)
  /-- Reads the VCSTAT word of a cache. (R131) -/
  | vcstat (m : Bool) (a : BitVec 5) (b : BitVec 5)
  /-- Registers source units and installs a translation, or delivers a refusal. (R93) -/
  | tlbfill (m : Bool) (a : BitVec 5) (b : BitVec 5)
  /-- Searches, and optionally removes, a TLB entry of a core of the cluster. (R98) -/
  | tlbprobe (m : Bool) (a : BitVec 5) (b : BitVec 5)
  /-- Blocks a page at its anchor. (R105) -/
  | pblock (m : Bool) (a : BitVec 5)
  /-- Unblocks old and new pages and replays queued accesses. (R105) -/
  | punblock (m : Bool) (a : BitVec 5) (b : BitVec 5)
  /-- Writes a marker entry to the state log. (R424) -/
  | tmark (m : Bool) (a : BitVec 5)
  /-- Starts a dormant helper context. (R292) -/
  | hstart (m : Bool) (a : BitVec 5) (b : BitVec 5) (h : BitVec 4)
  /-- Ends the issuing helper with an exit value. (R293) -/
  | hexit (m : Bool) (a : BitVec 5)
  /-- Waits for a helper to be dormant and reads its exit value. (R293) -/
  | hjoin (m : Bool) (d : BitVec 5) (h : BitVec 4)
  /-- Ends the task on c0 and starts its successor or dispatches. (R297) -/
  | exit (m : Bool) (a : BitVec 5)
  /-- Pushes a task record onto the core's deque. (R300) -/
  | pusht (m : Bool) (a : BitVec 5)
  /-- Takes and claims one record by pop or steal round. (R300) -/
  | popt (m : Bool) (d : BitVec 5)
  /-- Cancels an unclaimed record or requests cancel of a running one. (R303) -/
  | tcancel (m : Bool) (a : BitVec 5)
  /-- Reads the flags word of c0's current record. (R303) -/
  | tpoll (m : Bool) (d : BitVec 5)
  /-- Reads the issuing context's descriptor. (R304) -/
  | ctxid (m : Bool) (d : BitVec 5)
  /-- Initialises a barrier object. (R318) -/
  | binit (m : Bool) (a : BitVec 5) (b : BitVec 5)
  /-- Arrives at a barrier object with release. (R318) -/
  | barrive (m : Bool) (a : BitVec 5)
  /-- Adds a signed increment to BEATS with release. (R318) -/
  | bbeat (m : Bool) (a : BitVec 5) (b : BitVec 5)
  /-- Waits until GEN differs or ABORT is set. (R318) -/
  | bwait (m : Bool) (a : BitVec 5) (b : BitVec 5)
  /-- Reads a barrier object's state with acquire. (R318) -/
  | bstat (m : Bool) (d : BitVec 5) (a : BitVec 5)
  /-- Sends a 64-byte active message. (R306) -/
  | msend (m : Bool) (d : BitVec 5) (a : BitVec 5) (b : BitVec 5)
  /-- Sends a register deposit and holds until answered. (R309) -/
  | mdep (m : Bool) (a : BitVec 5) (b : BitVec 5)
  /-- Frees the seen directed slot and waits for a directed message. (R310) -/
  | waitm (m : Bool)
  /-- Contributes a vector to a combining reduction. (R329) -/
  | cred (m : Bool) (d : BitVec 5) (a : BitVec 5) (b : BitVec 5) (t : BitVec 2) (o : BitVec 2)
  /-- Contributes to the max-combining barrier and parks for the maximum. (R329) -/
  | cmaxb (m : Bool) (d : BitVec 5) (a : BitVec 5) (b : BitVec 5) (t : BitVec 2)
  /-- Reads a CSR. (R232) -/
  | csrr (m : Bool) (d : BitVec 5) (c : BitVec 12)
  /-- Writes a CSR. (R232) -/
  | csrw (m : Bool) (a : BitVec 5) (c : BitVec 12)
  /-- Sets CSR bits and returns the old value. (R232) -/
  | csrs (m : Bool) (d : BitVec 5) (a : BitVec 5) (c : BitVec 12)
  /-- Clears CSR bits and returns the old value. (R232) -/
  | csrc (m : Bool) (d : BitVec 5) (a : BitVec 5) (c : BitVec 12)
  /-- Takes the local trap SOFT. (R358) -/
  | trap (m : Bool) (i : BitVec 12)
  /-- Returns from a local trap handler. (R358) -/
  | rtt (m : Bool)
  /-- Halts named contexts or a whole launch. (R359) -/
  | halt (m : Bool) (d : BitVec 5) (a : BitVec 5)
  /-- Halts its context when breakpoints are enabled, else faults ILLEGAL. (R358) -/
  | bkpt (m : Bool)
  /-- Resumes halted contexts. (R359) -/
  | resume (m : Bool) (d : BitVec 5) (a : BitVec 5)
  /-- Kills named contexts or a whole launch. (R360) -/
  | kill (m : Bool) (d : BitVec 5) (a : BitVec 5)
  /-- Moves every context of a core to another core. (R361) -/
  | migr (m : Bool) (d : BitVec 5) (a : BitVec 5)
  /-- A word that is no instruction halts its context with the remote fault ILLEGAL. (R78) -/
  | illegalEncoding (w : BitVec 32)
  /-- A variable-latency result returns and is written to the entry named at issue. (R66) -/
  | resultWriteback (core ctx tag : Nat) (ecc : Option Nat)
  /-- A core removes entries derived from a written unit, waits for their accesses and acknowledges. (R95) -/
  | translationInvalidation (id : Nat)
  /-- When all acknowledgements are in, the held page-table write performs and held requests are served. (R95) -/
  | translationInvalidationAck (id : Nat)
  /-- The home takes a request for a TRACKED unit, invalidating or recalling other copies. (R134) -/
  | ownershipRequest (id : Nat)
  /-- An L1 or engine holding the unit gives up or downgrades its copy. (R134) -/
  | recallCopy (id : Nat)
  /-- An acknowledgement reaches the home; when complete it grants S, E or M. (R134) -/
  | invalidationAcknowledgement (id : Nat)
  /-- A grant with or without data arrives and the waiting access performs. (R134) -/
  | grant (id : Nat)
  /-- The host's snoop response clears HOST and releases held requests. (R369) -/
  | bisnpResponse (id : Nat) (modified : Option (BitVec 1024))
  /-- A written-through STAMPED store performs at its home, sets the stamp and is acknowledged. (R143) -/
  | stampedStoreAtHome (id : Nat)
  /-- A lagged read at the home returns data, trap, stale data, queues a waiter or is refused. (R149) -/
  | stampedReadAtHome (id : Nat)
  /-- An ldl unanswered at its due cycle is withdrawn and takes STALE_TIMEOUT. (R151) -/
  | staleTimeout (core ctx tag : Nat)
  /-- A refused request is sent again after 64 to 1,024 cycles. (R103) -/
  | backoffRetry (id : Nat)
  /-- An access arriving at a blocked or replaying page is queued, refused or performed. (R102) -/
  | blockedPageAccess (id : Nat)
  /-- A re-translated replayed access arrives for its slot at the new page. (R102) -/
  | replayAccess (id : Nat)
  /-- A host read of HBM is served under the export table or returns zeros. (R368) -/
  | hostCxlMemRead (addr n : Nat)
  /-- A host write of HBM is performed at the home or discarded. (R368) -/
  | hostCxlMemWrite (addr n : Nat) (data : BitVec 1024)
  /-- A LOAD packet is performed at the target MSA. (R377) -/
  | load (id : Nat)
  /-- A STORE packet is performed unit by unit at the target MSA. (R377) -/
  | store (id : Nat)
  /-- An ATOMIC packet is performed at the target MSA. (R377) -/
  | atomic (id : Nat)
  /-- A CAS2 packet is performed at the target MSA. (R187) -/
  | cas2Packet (id : Nat)
  /-- An ENQ packet links a node at a remote list head. (R188) -/
  | enq (id : Nat)
  /-- A CHASE packet follows a remote list up to 16 hops. (R189) -/
  | chase (id : Nat)
  /-- A WITHDRAW packet removes a remote waiter. (R377) -/
  | withdraw (id : Nat)
  /-- A DATA reply completes a remote load or atomic at the requester. (R377) -/
  | data (id : Nat)
  /-- An ACK completes a remote write and beats its barrier object. (R378) -/
  | ack (id : Nat)
  /-- A NACK of STATUS 4 faults LINK_INTEGRITY or sets ABORT. (R380) -/
  | nack (id : Nat)
  /-- A packet unanswered within 2^22 cycles faults, sets ABORT or arms the next fence; its tag retires. (R193) -/
  | fabricTimeout (core tag : Nat)
  /-- The fabric discards a packet in flight for 2^24 cycles. (R365) -/
  | packetDiscard (id : Nat)
  /-- A sender closes a tag group with its control flit. (R379) -/
  | tagGroupClose (port : Nat)
  /-- The receiver verifies a group's tag and releases or discards the group. (R380) -/
  | tagFlit (port : Nat) (group : List Packet) (verified : Bool)
  /-- The sender resends a failed group from its replay buffer, or NACKs after four failures. (R380) -/
  | retransmitRequest (port group : Nat)
  /-- Decapsulates and installs the job key. (R381) -/
  | keyload
  /-- A write of PEN = 0 zeroises the job key and flushes every port. (R382) -/
  | partitionDissolve
  /-- A write to a register or CSR with no behaviour of its own. (R8) -/
  | registerWrite (off : Nat) (v : BitVec 64)
  /-- A write to REJH or REJF clears it. (R368) -/
  | rejCounterClear (fabric : Bool)
  /-- A write to DOMAIN scrubs scratch shares and registers before taking effect. (R108) -/
  | domainWrite (core : Nat) (v : BitVec 64)
  /-- A share scrub finishes and the operation that caused it completes. (R108) -/
  | scrubComplete (id : Nat)
  /-- A change of BSPLIT drains scratch accesses, reclaims caches and scrubs shares. (R109) -/
  | bsplitWrite (core : Nat) (v : BitVec 64)
  /-- A CSR write to ITER acts as itset. (R141) -/
  | iterWrite (core ctx : Nat) (v : BitVec 64)
  /-- A supervisor write to TSHAPE configures or unconfigures a tile. (R269) -/
  | tshapeWrite (core : Nat) (t : BitVec 3) (v : BitVec 64)
  /-- A write to TSAVEP loads LAZY tiles and makes SAVED tiles DIRTY. (R271) -/
  | tsavepWrite (v : BitVec 64)
  /-- A supervisor write of PEND = 0 abandons an interrupted matrix operation. (R212) -/
  | mxstepWrite (core : Nat) (v : BitVec 64)
  /-- A resizing cache finishes migrating one old set. (R123) -/
  | vcSetMigrated (vcid : Nat)
  /-- A background flush or invalidate finishes, writes VCSTAT and arrives. (R130) -/
  | vcOperationComplete (vcid : Nat)
  /-- The last line of a retiring cache leaves and the record is zeroed. (R122) -/
  | vcRetireComplete (vcid : Nat)
  /-- A channel takes ownership of, reads and writes its next window of units. (R199) -/
  | copyWindow (cluster ch : Nat)
  /-- A copy command completes, writes its status word and arrives. (R200) -/
  | copyComplete (cluster ch : Nat)
  /-- The sequencer finishes one 32-element step of a matrix operation. (R210) -/
  | matrixStep (core : Nat)
  /-- A remote matrix command arrives at its target and is admitted or refused. (R287) -/
  | mmarCommand (id : Nat)
  /-- A handler message is written to a free slot and starts an eligible dormant helper. (R307) -/
  | handlerMessageDelivery (id : Nat)
  /-- A directed message is written to a slot and wakes its context. (R307) -/
  | directedMessageDelivery (id : Nat)
  /-- A delivered deposit is applied to the register or denied. (R225) -/
  | deposit (id : Nat)
  /-- The destination's answer releases mdep, or faults DEP_DENIED. (R309) -/
  | depositAnswer (id : Nat)
  /-- c0 without a task takes a record by pop or steal round and starts it. (R300) -/
  | dispatch (core : Nat)
  /-- After 1,024 idle cycles a parked dispatching c0 runs a new round. (R300) -/
  | dispatchRoundTimer (core : Nat)
  /-- A victim hands over its top entry or answers empty. (R301) -/
  | stealRequest (id : Nat)
  /-- A steal reply reaches the thief. (R301) -/
  | stealReply (id : Nat)
  /-- A contribution or partial reaches a router and is combined, held, dropped or forwarded. (R321) -/
  | combiningContribution (id : Nat)
  /-- A combining slot's timer expires and it forwards a timed-out partial. (R321) -/
  | combiningTimeout (core gid : Nat)
  /-- A straggler count reaches the root and raises LATE. (R325) -/
  | lateCount (id : Nat)
  /-- The release message reaches an origin router, which writes the maximum and ends the park. (R330) -/
  | cmaxbRelease (id : Nat)
  /-- A waiter's answer reaches its core and the bwait returns. (R318) -/
  | bwaitAnswer (id : Nat)
  /-- An arrival at a migrated core is held, answered or forwarded by its forwarding entry. (R363) -/
  | forwardedArrival (id : Nat)
  /-- A doorbell write sets TAIL, or stops the queue on overrun. (R334) -/
  | doorbell (q : Nat) (v : BitVec 64)
  /-- A RUNNING queue's sequencer reads the next launch record and advances HEAD. (R334) -/
  | ringEntryRead (q : Nat)
  /-- A write of RUNNING enables a queue or refuses with a mask conflict. (R335) -/
  | queueEnable (q : Nat)
  /-- A write of DRAINING stops reading and discards taken entries. (R345) -/
  | queueDrain (q : Nat)
  /-- A write of DISABLED stops the queue after its running launch completes. (R439) -/
  | queueDisable (q : Nat)
  /-- A write of KILLING kills the queue's launch. (R346) -/
  | queueKill (q : Nat)
  /-- A queued launch becomes eligible when its dependence object changes generation or aborts. (R338) -/
  | launchEligible (q : Nat)
  /-- A chosen launch is prepared and its initial records pushed. (R341) -/
  | launchPrepare (q : Nat) (resident : Bool)
  /-- A launch whose count reached zero retires caches, unpins and arrives at COMPB. (R343) -/
  | launchComplete (q : Nat)
  /-- Power-up runs self-calibration and waits for BOOTGO. (R414) -/
  | powerOn (calibrated : Bool)
  /-- Reads, verifies and installs the firmware image and brings the module to READY. (R415) -/
  | bootgo (imageRead initialised : Bool)
  /-- Produces a signed attestation report over a nonce. (R418) -/
  | attgo
  /-- The cross-trigger halts the cluster's contexts and freezes its copy engine. (R421) -/
  | gong (cluster : Nat)
  /-- Resumes the Gong-halted contexts and unfreezes the cluster. (R421) -/
  | release (cluster : Nat)
  /-- A write to CECNT or LATE clears it. (R419) -/
  | counterClear (cluster : Nat) (late : Bool)
  /-- A read of TRCDATA returns the entry at RD and advances RD. (R419) -/
  | trcdataRead (cluster : Nat)
  /-- A DELTA count reaching 2^28 − 1 writes a gap entry. (R423) -/
  | traceGap (core : Nat)
  /-- Every 3,300 cycles the limiter compares power with PLIM and adjusts rates. (R412) -/
  | powerMeasure (watts : Nat)
  /-- A bank die crossing 105 °C or 100 °C sets or clears HOT. (R111) -/
  | thermalLimit (die celsius : Nat)
  /-- Dirty words evicted, cwb'd or cflush'd reach their home, join the unit's coherence order and complete the write-back. (R138) -/
  | writeBack (id : Nat)
  /-- The host's completion of a device store to the host memory window arrives and the store is performed at sys scope. (R370) -/
  | hostAcknowledgement (id : Nat)
  /-- A fabric manager re-enables adaptive routing on a port that left it after four failed tag groups. (R380) -/
  | adaptiveRoutingReenable (port : Nat)
  deriving DecidableEq, Repr

end Sys2Proof
end

