-- ==== Sys2Proof/WellFormed.lean ====
section
/-! DEFINITION. Well-formedness: the field values an instruction's entry gives a meaning (03 R70 to R79, 12 R262,
14 R291), and the bounds of the operands of the events. A word whose fields fail a check here is an illegal
encoding (03 R78). -/

namespace Sys2Proof

/-- The assigned CSR numbers of the table of 03 R79. -/
def csrAssigned (n : Nat) : Bool :=
  (1 ≤ n && n ≤ 6) || (8 ≤ n && n ≤ 0x0C) || (0x10 ≤ n && n ≤ 0x13) ||
  (0x100 ≤ n && n ≤ 0x107) || (0x110 ≤ n && n ≤ 0x113) || (0x118 ≤ n && n ≤ 0x11B) ||
  (0x120 ≤ n && n ≤ 0x128) || (0x200 ≤ n && n ≤ 0x205)

/-- Conversions between unblocked formats: codes 1 to 10, different (12 R262). -/
def vcvtPair (target source : Nat) : Bool :=
  1 ≤ target && target ≤ 10 && 1 ≤ source && source ≤ 10 && target != source

/-- Quantisation: source FP16, BF16 or FP32, target a blocked format; an FP32 source is an even register (12 R262). -/
def vquantPair (target source va : Nat) : Bool :=
  6 ≤ source && source ≤ 8 && 11 ≤ target && target ≤ 17 && (source != 8 || va % 2 == 0)

/-- Dequantisation: source a blocked format, target FP16, BF16 or FP32; an FP32 target is an even register (12 R262). -/
def vdequantPair (target source vd : Nat) : Bool :=
  6 ≤ target && target ≤ 8 && 11 ≤ source && source ≤ 17 && (target != 8 || vd % 2 == 0)

/-- Bounds of the operands of events: cores, contexts, clusters, channels, dies, queues, ports, caches. -/
def coreOk (n : Nat) : Bool := n < 8192
def ctxOk (n : Nat) : Bool := n ≤ 10
def clusterOk (n : Nat) : Bool := n < 32
def portOk (n : Nat) : Bool := n < 47

/-- The checks of each instruction's own entry. -/
def Instr.wf : Instr → Bool
  | .add _ _ _ _ => true
  | .sub _ _ _ _ => true
  | .and _ _ _ _ => true
  | .or _ _ _ _ => true
  | .xor _ _ _ _ => true
  | .andn _ _ _ _ => true
  | .orn _ _ _ _ => true
  | .sll _ _ _ _ => true
  | .srl _ _ _ _ => true
  | .sra _ _ _ _ => true
  | .rol _ _ _ _ => true
  | .ror _ _ _ _ => true
  | .slt _ _ _ _ => true
  | .sltu _ _ _ _ => true
  | .min _ _ _ _ => true
  | .max _ _ _ _ => true
  | .minu _ _ _ _ => true
  | .maxu _ _ _ _ => true
  | .clz _ _ _ => true
  | .ctz _ _ _ => true
  | .popc _ _ _ => true
  | .bswap _ _ _ => true
  | .sextB _ _ _ => true
  | .sextH _ _ _ => true
  | .sextW _ _ _ => true
  | .zextB _ _ _ => true
  | .zextH _ _ _ => true
  | .zextW _ _ _ => true
  | .addi _ _ _ _ => true
  | .andi _ _ _ _ => true
  | .ori _ _ _ _ => true
  | .xori _ _ _ _ => true
  | .slti _ _ _ _ => true
  | .sltiu _ _ _ _ => true
  | .slli _ _ _ _ => true
  | .srli _ _ _ _ => true
  | .srai _ _ _ _ => true
  | .lui _ _ _ => true
  | .lua _ _ _ => true
  | .mull _ _ _ _ => true
  | .mulhs _ _ _ _ => true
  | .mulhz _ _ _ _ => true
  | .mulhsz _ _ _ _ => true
  | .divq _ _ _ _ => true
  | .divqz _ _ _ _ => true
  | .divr _ _ _ _ => true
  | .divrz _ _ _ _ => true
  | .divideComplete core => coreOk core
  | .padd _ _ _ _ => true
  | .pfmt _ _ _ _ => true
  | .pget _ _ _ => true
  | .pstrip _ _ _ => true
  | .pidx _ _ _ _ => true
  | .paddi _ _ _ _ => true
  | .beq _ _ _ _ => true
  | .bne _ _ _ _ => true
  | .blt _ _ _ _ => true
  | .bge _ _ _ _ => true
  | .bltu _ _ _ _ => true
  | .bgeu _ _ _ _ => true
  | .j _ _ => true
  | .jl _ _ => true
  | .jr _ _ => true
  | .jlr _ _ _ => true
  | .call _ _ => true
  | .callr _ _ => true
  | .ret _ => true
  | .rep _ _ _ _ => true
  | .ldB _ _ _ _ => true
  | .ldBu _ _ _ _ => true
  | .ldH _ _ _ _ => true
  | .ldHu _ _ _ _ => true
  | .ldW _ _ _ _ => true
  | .ldWu _ _ _ _ => true
  | .ldD _ _ _ _ => true
  | .pref _ _ _ => true
  | .stB _ _ _ _ => true
  | .stH _ _ _ _ => true
  | .stW _ _ _ _ => true
  | .stD _ _ _ _ => true
  | .lde _ _ _ _ => true
  | .ste _ _ _ _ => true
  | .ldlW _ _ _ _ _ mode => mode != 3#2
  | .ldlWu _ _ _ _ _ mode => mode != 3#2
  | .ldlD _ _ _ _ _ mode => mode != 3#2
  | .amoadd _ _ _ _ _ _ => true
  | .amoand _ _ _ _ _ _ => true
  | .amoor _ _ _ _ _ _ => true
  | .amoxor _ _ _ _ _ _ => true
  | .amomin _ _ _ _ _ _ => true
  | .amomax _ _ _ _ _ _ => true
  | .amominu _ _ _ _ _ _ => true
  | .amomaxu _ _ _ _ _ _ => true
  | .amoswap _ _ _ _ _ _ => true
  | .amofaddS _ _ _ _ _ => true
  | .cas _ _ _ _ _ _ => true
  | .cas2 _ _ _ _ _ _ => true
  | .fence _ c k => c.toNat ≤ 5 && k.toNat ≤ 4
  | .cflush _ _ => true
  | .cinv _ _ => true
  | .cwb _ _ => true
  | .lda _ _ _ _ _ => true
  | .strl _ _ _ _ _ => true
  | .itadv _ _ => true
  | .itset _ _ _ => true
  | .itget _ _ => true
  | .vadd _ _ _ _ _ _ => true
  | .vsub _ _ _ _ _ _ => true
  | .vmul _ _ _ _ _ _ => true
  | .vmin _ _ _ _ _ _ => true
  | .vmax _ _ _ _ _ _ => true
  | .vand _ _ _ _ _ _ => true
  | .vor _ _ _ _ _ _ => true
  | .vxor _ _ _ _ _ _ => true
  | .vsll _ _ _ _ _ _ => true
  | .vsrl _ _ _ _ _ _ => true
  | .vsra _ _ _ _ _ _ => true
  | .vfadd _ _ _ _ t _ => t != 3#2
  | .vfsub _ _ _ _ t _ => t != 3#2
  | .vfmul _ _ _ _ t _ => t != 3#2
  | .vfma _ _ _ _ t _ => t != 3#2
  | .vfnma _ _ _ _ t _ => t != 3#2
  | .vfmin _ _ _ _ t _ => t != 3#2
  | .vfmax _ _ _ _ t _ => t != 3#2
  | .vfabs _ _ _ t _ => t != 3#2
  | .vfneg _ _ _ t _ => t != 3#2
  | .vfrcp _ _ _ t _ => t != 3#2
  | .vfrsqrt _ _ _ t _ => t != 3#2
  | .vfexp2 _ _ _ t _ => t != 3#2
  | .vscale _ _ _ _ t _ => t != 3#2
  | .vcmpEq _ _ _ _ t _ => t != 3#2
  | .vcmpLt _ _ _ _ t _ => t != 3#2
  | .vcmpLe _ _ _ _ t _ => t != 3#2
  | .vcmpNe _ _ _ _ t _ => t != 3#2
  | .vsel _ _ _ _ t _ => t != 3#2
  | .vld _ _ _ _ _ => true
  | .vst _ _ _ _ _ => true
  | .vlds _ _ _ _ _ _ => true
  | .vsts _ _ _ _ _ _ => true
  | .vgath _ _ _ _ _ _ => true
  | .vscat _ _ _ _ _ _ => true
  | .vcvt _ _ _ g _ _ c => vcvtPair g.toNat c.toNat
  | .vquant _ _ a g _ _ c => vquantPair g.toNat c.toNat a.toNat
  | .vdequant _ d _ g _ _ c => vdequantPair g.toNat c.toNat d.toNat
  | .vbcast _ _ _ _ _ => true
  | .vmovx _ _ _ _ _ => true
  | .vins _ _ _ _ _ => true
  | .vperm _ _ _ _ _ _ => true
  | .vslide _ _ _ _ _ _ => true
  | .vredsum _ _ _ _ _ => true
  | .vredmax _ _ _ _ _ => true
  | .vredmin _ _ _ _ _ => true
  | .vredsumFloat _ _ _ t _ => t != 3#2
  | .vredmaxFloat _ _ _ t _ => t != 3#2
  | .vredminFloat _ _ _ t _ => t != 3#2
  | .kand _ _ _ _ => true
  | .kor _ _ _ _ => true
  | .kxor _ _ _ _ => true
  | .knot _ _ _ => true
  | .kmovToMask _ _ _ => true
  | .kmovFromMask _ _ _ => true
  | .tcfg _ _ _ => true
  | .tzero _ _ => true
  | .tldr _ _ _ _ => true
  | .tstr _ _ _ _ => true
  | .tvrow _ _ _ _ => true
  | .trowv _ _ _ _ => true
  | .tvcol _ _ _ _ => true
  | .tcolv _ _ _ _ => true
  | .tsave _ _ => true
  | .tstat _ _ _ => true
  | .mma _ _ _ _ _ => true
  | .mmar _ _ _ _ _ => true
  | .mxw _ _ r => r.toNat ≤ 5
  | .mxr _ _ r => r.toNat ≤ 5
  | .ceStart _ _ _ => true
  | .ceCancel _ _ => true
  | .ceStat _ _ _ => true
  | .vcdef _ _ _ => true
  | .vcresize _ _ _ => true
  | .vcflush _ _ _ => true
  | .vcinv _ _ _ => true
  | .vcstat _ _ _ => true
  | .tlbfill _ _ _ => true
  | .tlbprobe _ _ _ => true
  | .pblock _ _ => true
  | .punblock _ _ _ => true
  | .tmark _ _ => true
  | .hstart _ _ _ h => 1 ≤ h.toNat && h.toNat ≤ 10
  | .hexit _ _ => true
  | .hjoin _ _ h => 1 ≤ h.toNat && h.toNat ≤ 10
  | .exit _ _ => true
  | .pusht _ _ => true
  | .popt _ _ => true
  | .tcancel _ _ => true
  | .tpoll _ _ => true
  | .ctxid _ _ => true
  | .binit _ _ _ => true
  | .barrive _ _ => true
  | .bbeat _ _ _ => true
  | .bwait _ _ _ => true
  | .bstat _ _ _ => true
  | .msend _ _ _ _ => true
  | .mdep _ _ _ => true
  | .waitm _ => true
  | .cred _ _ _ _ t o => t != 3#2 && o != 3#2
  | .cmaxb _ _ _ _ t => t != 3#2
  | .csrr _ _ c => csrAssigned c.toNat
  | .csrw _ _ c => csrAssigned c.toNat
  | .csrs _ _ _ c => csrAssigned c.toNat
  | .csrc _ _ _ c => csrAssigned c.toNat
  | .trap _ _ => true
  | .rtt _ => true
  | .halt _ _ _ => true
  | .bkpt _ => true
  | .resume _ _ _ => true
  | .kill _ _ _ => true
  | .migr _ _ _ => true
  | .illegalEncoding _ => true
  | .resultWriteback core ctx _ _ => coreOk core && ctxOk ctx
  | .translationInvalidation _ => true
  | .translationInvalidationAck _ => true
  | .ownershipRequest _ => true
  | .recallCopy _ => true
  | .invalidationAcknowledgement _ => true
  | .grant _ => true
  | .bisnpResponse _ _ => true
  | .stampedStoreAtHome _ => true
  | .stampedReadAtHome _ => true
  | .staleTimeout core ctx _ => coreOk core && ctxOk ctx
  | .backoffRetry _ => true
  | .blockedPageAccess _ => true
  | .replayAccess _ => true
  | .hostCxlMemRead addr n => 1 ≤ n && addr % 128 + n ≤ 128 && addr < 2 ^ 40
  | .hostCxlMemWrite addr n _ => 1 ≤ n && addr % 128 + n ≤ 128 && addr < 2 ^ 40
  | .load _ => true
  | .store _ => true
  | .atomic _ => true
  | .cas2Packet _ => true
  | .enq _ => true
  | .chase _ => true
  | .withdraw _ => true
  | .data _ => true
  | .ack _ => true
  | .nack _ => true
  | .fabricTimeout core _ => coreOk core
  | .packetDiscard _ => true
  | .tagGroupClose port => portOk port
  | .tagFlit port _ _ => portOk port
  | .retransmitRequest port _ => portOk port
  | .keyload => true
  | .partitionDissolve => true
  | .registerWrite _ _ => true
  | .rejCounterClear _ => true
  | .domainWrite core _ => coreOk core
  | .scrubComplete _ => true
  | .bsplitWrite core _ => coreOk core
  | .iterWrite core ctx _ => coreOk core && ctxOk ctx
  | .tshapeWrite core _ _ => coreOk core
  | .tsavepWrite _ => true
  | .mxstepWrite core _ => coreOk core
  | .vcSetMigrated vcid => vcid < 256
  | .vcOperationComplete vcid => vcid < 256
  | .vcRetireComplete vcid => vcid < 256
  | .copyWindow cluster ch => clusterOk cluster && ch < 32
  | .copyComplete cluster ch => clusterOk cluster && ch < 32
  | .matrixStep core => coreOk core
  | .mmarCommand _ => true
  | .handlerMessageDelivery _ => true
  | .directedMessageDelivery _ => true
  | .deposit _ => true
  | .depositAnswer _ => true
  | .dispatch core => coreOk core
  | .dispatchRoundTimer core => coreOk core
  | .stealRequest _ => true
  | .stealReply _ => true
  | .combiningContribution _ => true
  | .combiningTimeout core gid => coreOk core && gid < 256
  | .lateCount _ => true
  | .cmaxbRelease _ => true
  | .bwaitAnswer _ => true
  | .forwardedArrival _ => true
  | .doorbell q _ => q < 8192
  | .ringEntryRead q => q < 8192
  | .queueEnable q => q < 8192
  | .queueDrain q => q < 8192
  | .queueDisable q => q < 8192
  | .queueKill q => q < 8192
  | .launchEligible q => q < 8192
  | .launchPrepare q _ => q < 8192
  | .launchComplete q => q < 8192
  | .powerOn _ => true
  | .bootgo _ _ => true
  | .attgo => true
  | .gong cluster => clusterOk cluster
  | .release cluster => clusterOk cluster
  | .counterClear cluster _ => clusterOk cluster
  | .trcdataRead cluster => clusterOk cluster
  | .traceGap core => coreOk core
  | .powerMeasure _ => true
  | .thermalLimit die _ => die < 8
  | .writeBack _ => true
  | .hostAcknowledgement _ => true
  | .adaptiveRoutingReenable port => portOk port

end Sys2Proof
end

