-- ==== Sys2Proof/Decode.lean ====
section
/-! DEFINITION. The decoder and the encoder of the 32-bit instruction word (03 R62 to R78).

A word splits into the marker, the major opcode and four segments: bits 24-20, 19-15, 14-10 and 9-0, which every
format of R63 refines. Each encoded row of the opcode table is one `Row`: its major, and for each segment the bits
that select it (or that its entry leaves unused, which must be zero) and their values. -/

namespace Sys2Proof

/-- The segments of a word. -/
structure Fields where
  m   : Bool
  maj : BitVec 6
  x   : BitVec 5
  y   : BitVec 5
  z   : BitVec 5
  fn  : BitVec 10
  deriving DecidableEq, Repr

/-- Splits a word into its segments. -/
def Fields.ofWord (w : BitVec 32) : Fields :=
  { m := w.getLsbD 31, maj := w.extractLsb' 25 6, x := w.extractLsb' 20 5, y := w.extractLsb' 15 5,
    z := w.extractLsb' 10 5, fn := w.extractLsb' 0 10 }

/-- Joins the segments into a word. -/
def Fields.toWord (f : Fields) : BitVec 32 :=
  BitVec.ofBool f.m ++ f.maj ++ f.x ++ f.y ++ f.z ++ f.fn

/-- One encoded row of the opcode table. -/
structure Row where
  maj : BitVec 6
  xm : BitVec 5
  xv : BitVec 5
  ym : BitVec 5
  yv : BitVec 5
  zm : BitVec 5
  zv : BitVec 5
  fm : BitVec 10
  fv : BitVec 10
  build : Fields → Instr

/-- Whether a word's segments select the row. -/
def Row.selects (r : Row) (f : Fields) : Bool :=
  f.maj == r.maj && (f.x &&& r.xm) == r.xv && (f.y &&& r.ym) == r.yv && (f.z &&& r.zm) == r.zv &&
    (f.fn &&& r.fm) == r.fv

/-- Major 0x2B encodes three mnemonics in one space; the pair of format codes chooses (03 R74). -/
def buildConversion (f : Fields) : Instr :=
  let g := f.z
  let r := f.fn.extractLsb' 8 2
  let k := f.fn.extractLsb' 5 3
  let c := f.fn.extractLsb' 0 5
  if 11 ≤ g.toNat then .vquant f.m f.x f.y g r k c
  else if 11 ≤ c.toNat then .vdequant f.m f.x f.y g r k c
  else .vcvt f.m f.x f.y g r k c

/-- Rows of the opcode table, ADD to CTZ (03 R71 to R76). -/
def rowsScalar1 : List Row := [
  ⟨1#6, 0#5, 0#5, 0#5, 0#5, 0#5, 0#5, 1023#10, 0#10, fun f => .add f.m f.x f.y f.z⟩,
  ⟨1#6, 0#5, 0#5, 0#5, 0#5, 0#5, 0#5, 1023#10, 1#10, fun f => .sub f.m f.x f.y f.z⟩,
  ⟨1#6, 0#5, 0#5, 0#5, 0#5, 0#5, 0#5, 1023#10, 2#10, fun f => .and f.m f.x f.y f.z⟩,
  ⟨1#6, 0#5, 0#5, 0#5, 0#5, 0#5, 0#5, 1023#10, 3#10, fun f => .or f.m f.x f.y f.z⟩,
  ⟨1#6, 0#5, 0#5, 0#5, 0#5, 0#5, 0#5, 1023#10, 4#10, fun f => .xor f.m f.x f.y f.z⟩,
  ⟨1#6, 0#5, 0#5, 0#5, 0#5, 0#5, 0#5, 1023#10, 5#10, fun f => .andn f.m f.x f.y f.z⟩,
  ⟨1#6, 0#5, 0#5, 0#5, 0#5, 0#5, 0#5, 1023#10, 6#10, fun f => .orn f.m f.x f.y f.z⟩,
  ⟨1#6, 0#5, 0#5, 0#5, 0#5, 0#5, 0#5, 1023#10, 7#10, fun f => .sll f.m f.x f.y f.z⟩,
  ⟨1#6, 0#5, 0#5, 0#5, 0#5, 0#5, 0#5, 1023#10, 8#10, fun f => .srl f.m f.x f.y f.z⟩,
  ⟨1#6, 0#5, 0#5, 0#5, 0#5, 0#5, 0#5, 1023#10, 9#10, fun f => .sra f.m f.x f.y f.z⟩,
  ⟨1#6, 0#5, 0#5, 0#5, 0#5, 0#5, 0#5, 1023#10, 10#10, fun f => .rol f.m f.x f.y f.z⟩,
  ⟨1#6, 0#5, 0#5, 0#5, 0#5, 0#5, 0#5, 1023#10, 11#10, fun f => .ror f.m f.x f.y f.z⟩,
  ⟨1#6, 0#5, 0#5, 0#5, 0#5, 0#5, 0#5, 1023#10, 12#10, fun f => .slt f.m f.x f.y f.z⟩,
  ⟨1#6, 0#5, 0#5, 0#5, 0#5, 0#5, 0#5, 1023#10, 13#10, fun f => .sltu f.m f.x f.y f.z⟩,
  ⟨1#6, 0#5, 0#5, 0#5, 0#5, 0#5, 0#5, 1023#10, 14#10, fun f => .min f.m f.x f.y f.z⟩,
  ⟨1#6, 0#5, 0#5, 0#5, 0#5, 0#5, 0#5, 1023#10, 15#10, fun f => .max f.m f.x f.y f.z⟩,
  ⟨1#6, 0#5, 0#5, 0#5, 0#5, 0#5, 0#5, 1023#10, 16#10, fun f => .minu f.m f.x f.y f.z⟩,
  ⟨1#6, 0#5, 0#5, 0#5, 0#5, 0#5, 0#5, 1023#10, 17#10, fun f => .maxu f.m f.x f.y f.z⟩,
  ⟨1#6, 0#5, 0#5, 0#5, 0#5, 31#5, 0#5, 1023#10, 32#10, fun f => .clz f.m f.x f.y⟩,
  ⟨1#6, 0#5, 0#5, 0#5, 0#5, 31#5, 0#5, 1023#10, 33#10, fun f => .ctz f.m f.x f.y⟩]

/-- Rows of the opcode table, POPC to MULL (03 R71 to R76). -/
def rowsScalar2 : List Row := [
  ⟨1#6, 0#5, 0#5, 0#5, 0#5, 31#5, 0#5, 1023#10, 34#10, fun f => .popc f.m f.x f.y⟩,
  ⟨1#6, 0#5, 0#5, 0#5, 0#5, 31#5, 0#5, 1023#10, 35#10, fun f => .bswap f.m f.x f.y⟩,
  ⟨1#6, 0#5, 0#5, 0#5, 0#5, 31#5, 0#5, 1023#10, 36#10, fun f => .sextB f.m f.x f.y⟩,
  ⟨1#6, 0#5, 0#5, 0#5, 0#5, 31#5, 0#5, 1023#10, 37#10, fun f => .sextH f.m f.x f.y⟩,
  ⟨1#6, 0#5, 0#5, 0#5, 0#5, 31#5, 0#5, 1023#10, 38#10, fun f => .sextW f.m f.x f.y⟩,
  ⟨1#6, 0#5, 0#5, 0#5, 0#5, 31#5, 0#5, 1023#10, 39#10, fun f => .zextB f.m f.x f.y⟩,
  ⟨1#6, 0#5, 0#5, 0#5, 0#5, 31#5, 0#5, 1023#10, 40#10, fun f => .zextH f.m f.x f.y⟩,
  ⟨1#6, 0#5, 0#5, 0#5, 0#5, 31#5, 0#5, 1023#10, 41#10, fun f => .zextW f.m f.x f.y⟩,
  ⟨2#6, 0#5, 0#5, 0#5, 0#5, 0#5, 0#5, 0#10, 0#10, fun f => .addi f.m f.x f.y (f.z ++ f.fn)⟩,
  ⟨3#6, 0#5, 0#5, 0#5, 0#5, 0#5, 0#5, 0#10, 0#10, fun f => .andi f.m f.x f.y (f.z ++ f.fn)⟩,
  ⟨4#6, 0#5, 0#5, 0#5, 0#5, 0#5, 0#5, 0#10, 0#10, fun f => .ori f.m f.x f.y (f.z ++ f.fn)⟩,
  ⟨5#6, 0#5, 0#5, 0#5, 0#5, 0#5, 0#5, 0#10, 0#10, fun f => .xori f.m f.x f.y (f.z ++ f.fn)⟩,
  ⟨6#6, 0#5, 0#5, 0#5, 0#5, 0#5, 0#5, 0#10, 0#10, fun f => .slti f.m f.x f.y (f.z ++ f.fn)⟩,
  ⟨7#6, 0#5, 0#5, 0#5, 0#5, 0#5, 0#5, 0#10, 0#10, fun f => .sltiu f.m f.x f.y (f.z ++ f.fn)⟩,
  ⟨8#6, 0#5, 0#5, 0#5, 0#5, 31#5, 0#5, 960#10, 0#10, fun f => .slli f.m f.x f.y (f.fn.extractLsb' 0 6)⟩,
  ⟨8#6, 0#5, 0#5, 0#5, 0#5, 31#5, 0#5, 960#10, 256#10, fun f => .srli f.m f.x f.y (f.fn.extractLsb' 0 6)⟩,
  ⟨8#6, 0#5, 0#5, 0#5, 0#5, 31#5, 0#5, 960#10, 512#10, fun f => .srai f.m f.x f.y (f.fn.extractLsb' 0 6)⟩,
  ⟨9#6, 0#5, 0#5, 0#5, 0#5, 0#5, 0#5, 0#10, 0#10, fun f => .lui f.m f.x (f.y ++ f.z ++ f.fn)⟩,
  ⟨10#6, 0#5, 0#5, 0#5, 0#5, 0#5, 0#5, 0#10, 0#10, fun f => .lua f.m f.x (f.y ++ f.z ++ f.fn)⟩,
  ⟨11#6, 0#5, 0#5, 0#5, 0#5, 0#5, 0#5, 1023#10, 0#10, fun f => .mull f.m f.x f.y f.z⟩]

/-- Rows of the opcode table, MULHS to PADDI (03 R71 to R76). -/
def rowsScalar3 : List Row := [
  ⟨11#6, 0#5, 0#5, 0#5, 0#5, 0#5, 0#5, 1023#10, 1#10, fun f => .mulhs f.m f.x f.y f.z⟩,
  ⟨11#6, 0#5, 0#5, 0#5, 0#5, 0#5, 0#5, 1023#10, 2#10, fun f => .mulhz f.m f.x f.y f.z⟩,
  ⟨11#6, 0#5, 0#5, 0#5, 0#5, 0#5, 0#5, 1023#10, 3#10, fun f => .mulhsz f.m f.x f.y f.z⟩,
  ⟨11#6, 0#5, 0#5, 0#5, 0#5, 0#5, 0#5, 1023#10, 4#10, fun f => .divq f.m f.x f.y f.z⟩,
  ⟨11#6, 0#5, 0#5, 0#5, 0#5, 0#5, 0#5, 1023#10, 5#10, fun f => .divqz f.m f.x f.y f.z⟩,
  ⟨11#6, 0#5, 0#5, 0#5, 0#5, 0#5, 0#5, 1023#10, 6#10, fun f => .divr f.m f.x f.y f.z⟩,
  ⟨11#6, 0#5, 0#5, 0#5, 0#5, 0#5, 0#5, 1023#10, 7#10, fun f => .divrz f.m f.x f.y f.z⟩,
  ⟨12#6, 0#5, 0#5, 0#5, 0#5, 0#5, 0#5, 1023#10, 0#10, fun f => .padd f.m f.x f.y f.z⟩,
  ⟨12#6, 0#5, 0#5, 0#5, 0#5, 0#5, 0#5, 1023#10, 1#10, fun f => .pfmt f.m f.x f.y f.z⟩,
  ⟨12#6, 0#5, 0#5, 0#5, 0#5, 31#5, 0#5, 1023#10, 2#10, fun f => .pget f.m f.x f.y⟩,
  ⟨12#6, 0#5, 0#5, 0#5, 0#5, 31#5, 0#5, 1023#10, 3#10, fun f => .pstrip f.m f.x f.y⟩,
  ⟨12#6, 0#5, 0#5, 0#5, 0#5, 0#5, 0#5, 1023#10, 4#10, fun f => .pidx f.m f.x f.y f.z⟩,
  ⟨12#6, 0#5, 0#5, 0#5, 0#5, 0#5, 0#5, 512#10, 512#10, fun f => .paddi f.m f.x f.y (f.z ++ f.fn.extractLsb' 0 9)⟩]

/-- Rows of the opcode table, BEQ to REP (03 R71 to R76). -/
def rowsControl : List Row := [
  ⟨16#6, 0#5, 0#5, 0#5, 0#5, 0#5, 0#5, 0#10, 0#10, fun f => .beq f.m f.x f.y (f.z ++ f.fn)⟩,
  ⟨17#6, 0#5, 0#5, 0#5, 0#5, 0#5, 0#5, 0#10, 0#10, fun f => .bne f.m f.x f.y (f.z ++ f.fn)⟩,
  ⟨18#6, 0#5, 0#5, 0#5, 0#5, 0#5, 0#5, 0#10, 0#10, fun f => .blt f.m f.x f.y (f.z ++ f.fn)⟩,
  ⟨19#6, 0#5, 0#5, 0#5, 0#5, 0#5, 0#5, 0#10, 0#10, fun f => .bge f.m f.x f.y (f.z ++ f.fn)⟩,
  ⟨20#6, 0#5, 0#5, 0#5, 0#5, 0#5, 0#5, 0#10, 0#10, fun f => .bltu f.m f.x f.y (f.z ++ f.fn)⟩,
  ⟨21#6, 0#5, 0#5, 0#5, 0#5, 0#5, 0#5, 0#10, 0#10, fun f => .bgeu f.m f.x f.y (f.z ++ f.fn)⟩,
  ⟨22#6, 0#5, 0#5, 0#5, 0#5, 0#5, 0#5, 0#10, 0#10, fun f => .j f.m (f.x ++ f.y ++ f.z ++ f.fn)⟩,
  ⟨23#6, 0#5, 0#5, 0#5, 0#5, 0#5, 0#5, 0#10, 0#10, fun f => .jl f.m (f.x ++ f.y ++ f.z ++ f.fn)⟩,
  ⟨24#6, 31#5, 0#5, 0#5, 0#5, 31#5, 0#5, 1023#10, 0#10, fun f => .jr f.m f.y⟩,
  ⟨24#6, 0#5, 0#5, 0#5, 0#5, 31#5, 0#5, 1023#10, 1#10, fun f => .jlr f.m f.x f.y⟩,
  ⟨25#6, 16#5, 0#5, 0#5, 0#5, 0#5, 0#5, 0#10, 0#10, fun f => .call f.m (f.x.extractLsb' 0 4 ++ f.y ++ f.z ++ f.fn)⟩,
  ⟨25#6, 31#5, 16#5, 0#5, 0#5, 31#5, 0#5, 1023#10, 0#10, fun f => .callr f.m f.y⟩,
  ⟨26#6, 31#5, 0#5, 31#5, 0#5, 31#5, 0#5, 1023#10, 0#10, fun f => .ret f.m⟩,
  ⟨26#6, 16#5, 16#5, 31#5, 0#5, 0#5, 0#5, 0#10, 0#10, fun f => .rep f.m (f.x.extractLsb' 0 4) (f.z.extractLsb' 2 3) (f.z.extractLsb' 0 2 ++ f.fn)⟩]

/-- Rows of the opcode table, LD_B to AMOOR (03 R71 to R76). -/
def rowsMemory1 : List Row := [
  ⟨32#6, 0#5, 0#5, 0#5, 0#5, 28#5, 0#5, 0#10, 0#10, fun f => .ldB f.m f.x f.y (f.z.extractLsb' 0 2 ++ f.fn)⟩,
  ⟨32#6, 0#5, 0#5, 0#5, 0#5, 28#5, 4#5, 0#10, 0#10, fun f => .ldBu f.m f.x f.y (f.z.extractLsb' 0 2 ++ f.fn)⟩,
  ⟨32#6, 0#5, 0#5, 0#5, 0#5, 28#5, 8#5, 0#10, 0#10, fun f => .ldH f.m f.x f.y (f.z.extractLsb' 0 2 ++ f.fn)⟩,
  ⟨32#6, 0#5, 0#5, 0#5, 0#5, 28#5, 12#5, 0#10, 0#10, fun f => .ldHu f.m f.x f.y (f.z.extractLsb' 0 2 ++ f.fn)⟩,
  ⟨32#6, 0#5, 0#5, 0#5, 0#5, 28#5, 16#5, 0#10, 0#10, fun f => .ldW f.m f.x f.y (f.z.extractLsb' 0 2 ++ f.fn)⟩,
  ⟨32#6, 0#5, 0#5, 0#5, 0#5, 28#5, 20#5, 0#10, 0#10, fun f => .ldWu f.m f.x f.y (f.z.extractLsb' 0 2 ++ f.fn)⟩,
  ⟨32#6, 0#5, 0#5, 0#5, 0#5, 28#5, 24#5, 0#10, 0#10, fun f => .ldD f.m f.x f.y (f.z.extractLsb' 0 2 ++ f.fn)⟩,
  ⟨32#6, 31#5, 0#5, 0#5, 0#5, 28#5, 28#5, 0#10, 0#10, fun f => .pref f.m f.y (f.z.extractLsb' 0 2 ++ f.fn)⟩,
  ⟨33#6, 0#5, 0#5, 0#5, 0#5, 28#5, 0#5, 0#10, 0#10, fun f => .stB f.m f.x f.y (f.z.extractLsb' 0 2 ++ f.fn)⟩,
  ⟨33#6, 0#5, 0#5, 0#5, 0#5, 28#5, 8#5, 0#10, 0#10, fun f => .stH f.m f.x f.y (f.z.extractLsb' 0 2 ++ f.fn)⟩,
  ⟨33#6, 0#5, 0#5, 0#5, 0#5, 28#5, 16#5, 0#10, 0#10, fun f => .stW f.m f.x f.y (f.z.extractLsb' 0 2 ++ f.fn)⟩,
  ⟨33#6, 0#5, 0#5, 0#5, 0#5, 28#5, 24#5, 0#10, 0#10, fun f => .stD f.m f.x f.y (f.z.extractLsb' 0 2 ++ f.fn)⟩,
  ⟨34#6, 0#5, 0#5, 0#5, 0#5, 28#5, 0#5, 0#10, 0#10, fun f => .lde f.m f.x f.y (f.z.extractLsb' 0 2 ++ f.fn)⟩,
  ⟨34#6, 0#5, 0#5, 0#5, 0#5, 28#5, 4#5, 0#10, 0#10, fun f => .ste f.m f.x f.y (f.z.extractLsb' 0 2 ++ f.fn)⟩,
  ⟨35#6, 0#5, 0#5, 0#5, 0#5, 0#5, 0#5, 3#10, 0#10, fun f => .ldlW f.m f.x f.y f.z (f.fn.extractLsb' 4 6) (f.fn.extractLsb' 2 2)⟩,
  ⟨35#6, 0#5, 0#5, 0#5, 0#5, 0#5, 0#5, 3#10, 1#10, fun f => .ldlWu f.m f.x f.y f.z (f.fn.extractLsb' 4 6) (f.fn.extractLsb' 2 2)⟩,
  ⟨35#6, 0#5, 0#5, 0#5, 0#5, 0#5, 0#5, 3#10, 2#10, fun f => .ldlD f.m f.x f.y f.z (f.fn.extractLsb' 4 6) (f.fn.extractLsb' 2 2)⟩,
  ⟨36#6, 0#5, 0#5, 0#5, 0#5, 0#5, 0#5, 1016#10, 0#10, fun f => .amoadd f.m f.x f.y f.z (f.fn.extractLsb' 2 1) (f.fn.extractLsb' 0 2)⟩,
  ⟨36#6, 0#5, 0#5, 0#5, 0#5, 0#5, 0#5, 1016#10, 8#10, fun f => .amoand f.m f.x f.y f.z (f.fn.extractLsb' 2 1) (f.fn.extractLsb' 0 2)⟩,
  ⟨36#6, 0#5, 0#5, 0#5, 0#5, 0#5, 0#5, 1016#10, 16#10, fun f => .amoor f.m f.x f.y f.z (f.fn.extractLsb' 2 1) (f.fn.extractLsb' 0 2)⟩]

/-- Rows of the opcode table, AMOXOR to ITGET (03 R71 to R76). -/
def rowsMemory2 : List Row := [
  ⟨36#6, 0#5, 0#5, 0#5, 0#5, 0#5, 0#5, 1016#10, 24#10, fun f => .amoxor f.m f.x f.y f.z (f.fn.extractLsb' 2 1) (f.fn.extractLsb' 0 2)⟩,
  ⟨36#6, 0#5, 0#5, 0#5, 0#5, 0#5, 0#5, 1016#10, 32#10, fun f => .amomin f.m f.x f.y f.z (f.fn.extractLsb' 2 1) (f.fn.extractLsb' 0 2)⟩,
  ⟨36#6, 0#5, 0#5, 0#5, 0#5, 0#5, 0#5, 1016#10, 40#10, fun f => .amomax f.m f.x f.y f.z (f.fn.extractLsb' 2 1) (f.fn.extractLsb' 0 2)⟩,
  ⟨36#6, 0#5, 0#5, 0#5, 0#5, 0#5, 0#5, 1016#10, 48#10, fun f => .amominu f.m f.x f.y f.z (f.fn.extractLsb' 2 1) (f.fn.extractLsb' 0 2)⟩,
  ⟨36#6, 0#5, 0#5, 0#5, 0#5, 0#5, 0#5, 1016#10, 56#10, fun f => .amomaxu f.m f.x f.y f.z (f.fn.extractLsb' 2 1) (f.fn.extractLsb' 0 2)⟩,
  ⟨36#6, 0#5, 0#5, 0#5, 0#5, 0#5, 0#5, 1016#10, 64#10, fun f => .amoswap f.m f.x f.y f.z (f.fn.extractLsb' 2 1) (f.fn.extractLsb' 0 2)⟩,
  ⟨36#6, 0#5, 0#5, 0#5, 0#5, 0#5, 0#5, 1020#10, 72#10, fun f => .amofaddS f.m f.x f.y f.z (f.fn.extractLsb' 0 2)⟩,
  ⟨36#6, 0#5, 0#5, 0#5, 0#5, 0#5, 0#5, 1016#10, 80#10, fun f => .cas f.m f.x f.y f.z (f.fn.extractLsb' 2 1) (f.fn.extractLsb' 0 2)⟩,
  ⟨36#6, 0#5, 0#5, 0#5, 0#5, 0#5, 0#5, 1016#10, 88#10, fun f => .cas2 f.m f.x f.y f.z (f.fn.extractLsb' 2 1) (f.fn.extractLsb' 0 2)⟩,
  ⟨37#6, 31#5, 0#5, 31#5, 0#5, 31#5, 0#5, 771#10, 0#10, fun f => .fence f.m (f.fn.extractLsb' 5 3) (f.fn.extractLsb' 2 3)⟩,
  ⟨37#6, 31#5, 0#5, 0#5, 0#5, 31#5, 0#5, 1023#10, 256#10, fun f => .cflush f.m f.y⟩,
  ⟨37#6, 31#5, 0#5, 0#5, 0#5, 31#5, 0#5, 1023#10, 512#10, fun f => .cinv f.m f.y⟩,
  ⟨37#6, 31#5, 0#5, 0#5, 0#5, 31#5, 0#5, 1023#10, 768#10, fun f => .cwb f.m f.y⟩,
  ⟨38#6, 0#5, 0#5, 0#5, 0#5, 16#5, 0#5, 0#10, 0#10, fun f => .lda f.m f.x f.y (f.z.extractLsb' 2 2) (f.z.extractLsb' 0 2 ++ f.fn)⟩,
  ⟨38#6, 0#5, 0#5, 0#5, 0#5, 16#5, 16#5, 0#10, 0#10, fun f => .strl f.m f.x f.y (f.z.extractLsb' 2 2) (f.z.extractLsb' 0 2 ++ f.fn)⟩,
  ⟨39#6, 31#5, 0#5, 31#5, 0#5, 28#5, 0#5, 0#10, 0#10, fun f => .itadv f.m (f.z.extractLsb' 0 2 ++ f.fn)⟩,
  ⟨39#6, 31#5, 0#5, 0#5, 0#5, 28#5, 4#5, 0#10, 0#10, fun f => .itset f.m f.y (f.z.extractLsb' 0 2 ++ f.fn)⟩,
  ⟨39#6, 0#5, 0#5, 31#5, 0#5, 31#5, 8#5, 1023#10, 0#10, fun f => .itget f.m f.x⟩]

/-- Rows of the opcode table, VADD to VFNEG (03 R71 to R76). -/
def rowsVector1 : List Row := [
  ⟨40#6, 0#5, 0#5, 0#5, 0#5, 0#5, 0#5, 31#10, 0#10, fun f => .vadd f.m f.x f.y f.z (f.fn.extractLsb' 8 2) (f.fn.extractLsb' 5 3)⟩,
  ⟨40#6, 0#5, 0#5, 0#5, 0#5, 0#5, 0#5, 31#10, 1#10, fun f => .vsub f.m f.x f.y f.z (f.fn.extractLsb' 8 2) (f.fn.extractLsb' 5 3)⟩,
  ⟨40#6, 0#5, 0#5, 0#5, 0#5, 0#5, 0#5, 31#10, 2#10, fun f => .vmul f.m f.x f.y f.z (f.fn.extractLsb' 8 2) (f.fn.extractLsb' 5 3)⟩,
  ⟨40#6, 0#5, 0#5, 0#5, 0#5, 0#5, 0#5, 31#10, 3#10, fun f => .vmin f.m f.x f.y f.z (f.fn.extractLsb' 8 2) (f.fn.extractLsb' 5 3)⟩,
  ⟨40#6, 0#5, 0#5, 0#5, 0#5, 0#5, 0#5, 31#10, 4#10, fun f => .vmax f.m f.x f.y f.z (f.fn.extractLsb' 8 2) (f.fn.extractLsb' 5 3)⟩,
  ⟨40#6, 0#5, 0#5, 0#5, 0#5, 0#5, 0#5, 31#10, 5#10, fun f => .vand f.m f.x f.y f.z (f.fn.extractLsb' 8 2) (f.fn.extractLsb' 5 3)⟩,
  ⟨40#6, 0#5, 0#5, 0#5, 0#5, 0#5, 0#5, 31#10, 6#10, fun f => .vor f.m f.x f.y f.z (f.fn.extractLsb' 8 2) (f.fn.extractLsb' 5 3)⟩,
  ⟨40#6, 0#5, 0#5, 0#5, 0#5, 0#5, 0#5, 31#10, 7#10, fun f => .vxor f.m f.x f.y f.z (f.fn.extractLsb' 8 2) (f.fn.extractLsb' 5 3)⟩,
  ⟨40#6, 0#5, 0#5, 0#5, 0#5, 0#5, 0#5, 31#10, 8#10, fun f => .vsll f.m f.x f.y f.z (f.fn.extractLsb' 8 2) (f.fn.extractLsb' 5 3)⟩,
  ⟨40#6, 0#5, 0#5, 0#5, 0#5, 0#5, 0#5, 31#10, 9#10, fun f => .vsrl f.m f.x f.y f.z (f.fn.extractLsb' 8 2) (f.fn.extractLsb' 5 3)⟩,
  ⟨40#6, 0#5, 0#5, 0#5, 0#5, 0#5, 0#5, 31#10, 10#10, fun f => .vsra f.m f.x f.y f.z (f.fn.extractLsb' 8 2) (f.fn.extractLsb' 5 3)⟩,
  ⟨41#6, 0#5, 0#5, 0#5, 0#5, 0#5, 0#5, 31#10, 0#10, fun f => .vfadd f.m f.x f.y f.z (f.fn.extractLsb' 8 2) (f.fn.extractLsb' 5 3)⟩,
  ⟨41#6, 0#5, 0#5, 0#5, 0#5, 0#5, 0#5, 31#10, 1#10, fun f => .vfsub f.m f.x f.y f.z (f.fn.extractLsb' 8 2) (f.fn.extractLsb' 5 3)⟩,
  ⟨41#6, 0#5, 0#5, 0#5, 0#5, 0#5, 0#5, 31#10, 2#10, fun f => .vfmul f.m f.x f.y f.z (f.fn.extractLsb' 8 2) (f.fn.extractLsb' 5 3)⟩,
  ⟨41#6, 0#5, 0#5, 0#5, 0#5, 0#5, 0#5, 31#10, 3#10, fun f => .vfma f.m f.x f.y f.z (f.fn.extractLsb' 8 2) (f.fn.extractLsb' 5 3)⟩,
  ⟨41#6, 0#5, 0#5, 0#5, 0#5, 0#5, 0#5, 31#10, 4#10, fun f => .vfnma f.m f.x f.y f.z (f.fn.extractLsb' 8 2) (f.fn.extractLsb' 5 3)⟩,
  ⟨41#6, 0#5, 0#5, 0#5, 0#5, 0#5, 0#5, 31#10, 5#10, fun f => .vfmin f.m f.x f.y f.z (f.fn.extractLsb' 8 2) (f.fn.extractLsb' 5 3)⟩,
  ⟨41#6, 0#5, 0#5, 0#5, 0#5, 0#5, 0#5, 31#10, 6#10, fun f => .vfmax f.m f.x f.y f.z (f.fn.extractLsb' 8 2) (f.fn.extractLsb' 5 3)⟩,
  ⟨41#6, 0#5, 0#5, 0#5, 0#5, 31#5, 0#5, 31#10, 7#10, fun f => .vfabs f.m f.x f.y (f.fn.extractLsb' 8 2) (f.fn.extractLsb' 5 3)⟩,
  ⟨41#6, 0#5, 0#5, 0#5, 0#5, 31#5, 0#5, 31#10, 8#10, fun f => .vfneg f.m f.x f.y (f.fn.extractLsb' 8 2) (f.fn.extractLsb' 5 3)⟩]

/-- Rows of the opcode table, VFRCP to VPERM (03 R71 to R76). -/
def rowsVector2 : List Row := [
  ⟨41#6, 0#5, 0#5, 0#5, 0#5, 31#5, 0#5, 31#10, 9#10, fun f => .vfrcp f.m f.x f.y (f.fn.extractLsb' 8 2) (f.fn.extractLsb' 5 3)⟩,
  ⟨41#6, 0#5, 0#5, 0#5, 0#5, 31#5, 0#5, 31#10, 10#10, fun f => .vfrsqrt f.m f.x f.y (f.fn.extractLsb' 8 2) (f.fn.extractLsb' 5 3)⟩,
  ⟨41#6, 0#5, 0#5, 0#5, 0#5, 31#5, 0#5, 31#10, 11#10, fun f => .vfexp2 f.m f.x f.y (f.fn.extractLsb' 8 2) (f.fn.extractLsb' 5 3)⟩,
  ⟨41#6, 0#5, 0#5, 0#5, 0#5, 0#5, 0#5, 31#10, 12#10, fun f => .vscale f.m f.x f.y f.z (f.fn.extractLsb' 8 2) (f.fn.extractLsb' 5 3)⟩,
  ⟨41#6, 24#5, 0#5, 0#5, 0#5, 0#5, 0#5, 31#10, 16#10, fun f => .vcmpEq f.m (f.x.extractLsb' 0 3) f.y f.z (f.fn.extractLsb' 8 2) (f.fn.extractLsb' 5 3)⟩,
  ⟨41#6, 24#5, 0#5, 0#5, 0#5, 0#5, 0#5, 31#10, 17#10, fun f => .vcmpLt f.m (f.x.extractLsb' 0 3) f.y f.z (f.fn.extractLsb' 8 2) (f.fn.extractLsb' 5 3)⟩,
  ⟨41#6, 24#5, 0#5, 0#5, 0#5, 0#5, 0#5, 31#10, 18#10, fun f => .vcmpLe f.m (f.x.extractLsb' 0 3) f.y f.z (f.fn.extractLsb' 8 2) (f.fn.extractLsb' 5 3)⟩,
  ⟨41#6, 24#5, 0#5, 0#5, 0#5, 0#5, 0#5, 31#10, 19#10, fun f => .vcmpNe f.m (f.x.extractLsb' 0 3) f.y f.z (f.fn.extractLsb' 8 2) (f.fn.extractLsb' 5 3)⟩,
  ⟨41#6, 0#5, 0#5, 0#5, 0#5, 0#5, 0#5, 31#10, 20#10, fun f => .vsel f.m f.x f.y f.z (f.fn.extractLsb' 8 2) (f.fn.extractLsb' 5 3)⟩,
  ⟨42#6, 0#5, 0#5, 0#5, 0#5, 31#5, 0#5, 31#10, 0#10, fun f => .vld f.m f.x f.y (f.fn.extractLsb' 8 2) (f.fn.extractLsb' 5 3)⟩,
  ⟨42#6, 0#5, 0#5, 0#5, 0#5, 31#5, 0#5, 31#10, 1#10, fun f => .vst f.m f.x f.y (f.fn.extractLsb' 8 2) (f.fn.extractLsb' 5 3)⟩,
  ⟨42#6, 0#5, 0#5, 0#5, 0#5, 0#5, 0#5, 31#10, 2#10, fun f => .vlds f.m f.x f.y f.z (f.fn.extractLsb' 8 2) (f.fn.extractLsb' 5 3)⟩,
  ⟨42#6, 0#5, 0#5, 0#5, 0#5, 0#5, 0#5, 31#10, 3#10, fun f => .vsts f.m f.x f.y f.z (f.fn.extractLsb' 8 2) (f.fn.extractLsb' 5 3)⟩,
  ⟨42#6, 0#5, 0#5, 0#5, 0#5, 0#5, 0#5, 31#10, 4#10, fun f => .vgath f.m f.x f.y f.z (f.fn.extractLsb' 8 2) (f.fn.extractLsb' 5 3)⟩,
  ⟨42#6, 0#5, 0#5, 0#5, 0#5, 0#5, 0#5, 31#10, 5#10, fun f => .vscat f.m f.x f.y f.z (f.fn.extractLsb' 8 2) (f.fn.extractLsb' 5 3)⟩,
  ⟨43#6, 0#5, 0#5, 0#5, 0#5, 0#5, 0#5, 0#10, 0#10, buildConversion⟩,
  ⟨44#6, 0#5, 0#5, 0#5, 0#5, 31#5, 0#5, 31#10, 0#10, fun f => .vbcast f.m f.x f.y (f.fn.extractLsb' 8 2) (f.fn.extractLsb' 5 3)⟩,
  ⟨44#6, 0#5, 0#5, 0#5, 0#5, 0#5, 0#5, 255#10, 1#10, fun f => .vmovx f.m f.x f.y f.z (f.fn.extractLsb' 8 2)⟩,
  ⟨44#6, 0#5, 0#5, 0#5, 0#5, 0#5, 0#5, 255#10, 2#10, fun f => .vins f.m f.x f.y f.z (f.fn.extractLsb' 8 2)⟩,
  ⟨44#6, 0#5, 0#5, 0#5, 0#5, 0#5, 0#5, 31#10, 3#10, fun f => .vperm f.m f.x f.y f.z (f.fn.extractLsb' 8 2) (f.fn.extractLsb' 5 3)⟩]

/-- Rows of the opcode table, VSLIDE to KMOV_FROM_MASK (03 R71 to R76). -/
def rowsVector3 : List Row := [
  ⟨44#6, 0#5, 0#5, 0#5, 0#5, 0#5, 0#5, 31#10, 4#10, fun f => .vslide f.m f.x f.y f.z (f.fn.extractLsb' 8 2) (f.fn.extractLsb' 5 3)⟩,
  ⟨44#6, 0#5, 0#5, 0#5, 0#5, 31#5, 0#5, 31#10, 5#10, fun f => .vredsum f.m f.x f.y (f.fn.extractLsb' 8 2) (f.fn.extractLsb' 5 3)⟩,
  ⟨44#6, 0#5, 0#5, 0#5, 0#5, 31#5, 0#5, 31#10, 6#10, fun f => .vredmax f.m f.x f.y (f.fn.extractLsb' 8 2) (f.fn.extractLsb' 5 3)⟩,
  ⟨44#6, 0#5, 0#5, 0#5, 0#5, 31#5, 0#5, 31#10, 7#10, fun f => .vredmin f.m f.x f.y (f.fn.extractLsb' 8 2) (f.fn.extractLsb' 5 3)⟩,
  ⟨44#6, 0#5, 0#5, 0#5, 0#5, 31#5, 0#5, 31#10, 8#10, fun f => .vredsumFloat f.m f.x f.y (f.fn.extractLsb' 8 2) (f.fn.extractLsb' 5 3)⟩,
  ⟨44#6, 0#5, 0#5, 0#5, 0#5, 31#5, 0#5, 31#10, 9#10, fun f => .vredmaxFloat f.m f.x f.y (f.fn.extractLsb' 8 2) (f.fn.extractLsb' 5 3)⟩,
  ⟨44#6, 0#5, 0#5, 0#5, 0#5, 31#5, 0#5, 31#10, 10#10, fun f => .vredminFloat f.m f.x f.y (f.fn.extractLsb' 8 2) (f.fn.extractLsb' 5 3)⟩,
  ⟨45#6, 24#5, 0#5, 24#5, 0#5, 24#5, 0#5, 1023#10, 0#10, fun f => .kand f.m (f.x.extractLsb' 0 3) (f.y.extractLsb' 0 3) (f.z.extractLsb' 0 3)⟩,
  ⟨45#6, 24#5, 0#5, 24#5, 0#5, 24#5, 0#5, 1023#10, 1#10, fun f => .kor f.m (f.x.extractLsb' 0 3) (f.y.extractLsb' 0 3) (f.z.extractLsb' 0 3)⟩,
  ⟨45#6, 24#5, 0#5, 24#5, 0#5, 24#5, 0#5, 1023#10, 2#10, fun f => .kxor f.m (f.x.extractLsb' 0 3) (f.y.extractLsb' 0 3) (f.z.extractLsb' 0 3)⟩,
  ⟨45#6, 24#5, 0#5, 24#5, 0#5, 31#5, 0#5, 1023#10, 3#10, fun f => .knot f.m (f.x.extractLsb' 0 3) (f.y.extractLsb' 0 3)⟩,
  ⟨45#6, 24#5, 0#5, 0#5, 0#5, 31#5, 0#5, 1023#10, 4#10, fun f => .kmovToMask f.m (f.x.extractLsb' 0 3) f.y⟩,
  ⟨45#6, 0#5, 0#5, 24#5, 0#5, 31#5, 0#5, 1023#10, 5#10, fun f => .kmovFromMask f.m f.x (f.y.extractLsb' 0 3)⟩]

/-- Rows of the opcode table, TCFG to VCFLUSH (03 R71 to R76). -/
def rowsEngine1 : List Row := [
  ⟨48#6, 24#5, 0#5, 0#5, 0#5, 31#5, 0#5, 1023#10, 0#10, fun f => .tcfg f.m (f.x.extractLsb' 0 3) f.y⟩,
  ⟨48#6, 24#5, 0#5, 31#5, 0#5, 31#5, 0#5, 1023#10, 64#10, fun f => .tzero f.m (f.x.extractLsb' 0 3)⟩,
  ⟨48#6, 24#5, 0#5, 0#5, 0#5, 31#5, 0#5, 960#10, 128#10, fun f => .tldr f.m (f.x.extractLsb' 0 3) f.y (f.fn.extractLsb' 0 6)⟩,
  ⟨48#6, 24#5, 0#5, 0#5, 0#5, 31#5, 0#5, 960#10, 192#10, fun f => .tstr f.m (f.x.extractLsb' 0 3) f.y (f.fn.extractLsb' 0 6)⟩,
  ⟨48#6, 24#5, 0#5, 0#5, 0#5, 31#5, 0#5, 960#10, 256#10, fun f => .tvrow f.m (f.x.extractLsb' 0 3) f.y (f.fn.extractLsb' 0 6)⟩,
  ⟨48#6, 24#5, 0#5, 0#5, 0#5, 31#5, 0#5, 960#10, 320#10, fun f => .trowv f.m (f.x.extractLsb' 0 3) f.y (f.fn.extractLsb' 0 6)⟩,
  ⟨48#6, 24#5, 0#5, 0#5, 0#5, 31#5, 0#5, 960#10, 384#10, fun f => .tvcol f.m (f.x.extractLsb' 0 3) f.y (f.fn.extractLsb' 0 6)⟩,
  ⟨48#6, 24#5, 0#5, 0#5, 0#5, 31#5, 0#5, 960#10, 448#10, fun f => .tcolv f.m (f.x.extractLsb' 0 3) f.y (f.fn.extractLsb' 0 6)⟩,
  ⟨48#6, 24#5, 0#5, 31#5, 0#5, 31#5, 0#5, 1023#10, 512#10, fun f => .tsave f.m (f.x.extractLsb' 0 3)⟩,
  ⟨48#6, 24#5, 0#5, 0#5, 0#5, 31#5, 0#5, 1023#10, 576#10, fun f => .tstat f.m (f.x.extractLsb' 0 3) f.y⟩,
  ⟨49#6, 24#5, 0#5, 0#5, 0#5, 0#5, 0#5, 1022#10, 0#10, fun f => .mma f.m (f.x.extractLsb' 0 3) f.y f.z (f.fn.extractLsb' 0 1)⟩,
  ⟨49#6, 24#5, 0#5, 0#5, 0#5, 0#5, 0#5, 1022#10, 256#10, fun f => .mmar f.m (f.x.extractLsb' 0 3) f.y f.z (f.fn.extractLsb' 0 1)⟩,
  ⟨50#6, 0#5, 0#5, 31#5, 0#5, 31#5, 0#5, 768#10, 0#10, fun f => .mxw f.m f.x (f.fn.extractLsb' 0 8)⟩,
  ⟨50#6, 0#5, 0#5, 31#5, 0#5, 31#5, 0#5, 768#10, 256#10, fun f => .mxr f.m f.x (f.fn.extractLsb' 0 8)⟩,
  ⟨50#6, 0#5, 0#5, 0#5, 0#5, 31#5, 4#5, 1023#10, 0#10, fun f => .ceStart f.m f.x f.y⟩,
  ⟨50#6, 0#5, 0#5, 31#5, 0#5, 31#5, 4#5, 1023#10, 1#10, fun f => .ceCancel f.m f.x⟩,
  ⟨50#6, 0#5, 0#5, 0#5, 0#5, 31#5, 4#5, 1023#10, 2#10, fun f => .ceStat f.m f.x f.y⟩,
  ⟨50#6, 0#5, 0#5, 0#5, 0#5, 31#5, 8#5, 1023#10, 0#10, fun f => .vcdef f.m f.x f.y⟩,
  ⟨50#6, 0#5, 0#5, 0#5, 0#5, 31#5, 8#5, 1023#10, 1#10, fun f => .vcresize f.m f.x f.y⟩,
  ⟨50#6, 0#5, 0#5, 0#5, 0#5, 31#5, 8#5, 1023#10, 2#10, fun f => .vcflush f.m f.x f.y⟩]

/-- Rows of the opcode table, VCINV to TMARK (03 R71 to R76). -/
def rowsEngine2 : List Row := [
  ⟨50#6, 0#5, 0#5, 0#5, 0#5, 31#5, 8#5, 1023#10, 3#10, fun f => .vcinv f.m f.x f.y⟩,
  ⟨50#6, 0#5, 0#5, 0#5, 0#5, 31#5, 8#5, 1023#10, 4#10, fun f => .vcstat f.m f.x f.y⟩,
  ⟨50#6, 0#5, 0#5, 0#5, 0#5, 31#5, 8#5, 1023#10, 5#10, fun f => .tlbfill f.m f.x f.y⟩,
  ⟨50#6, 0#5, 0#5, 0#5, 0#5, 31#5, 8#5, 1023#10, 6#10, fun f => .tlbprobe f.m f.x f.y⟩,
  ⟨50#6, 0#5, 0#5, 31#5, 0#5, 31#5, 8#5, 1023#10, 7#10, fun f => .pblock f.m f.x⟩,
  ⟨50#6, 0#5, 0#5, 0#5, 0#5, 31#5, 8#5, 1023#10, 8#10, fun f => .punblock f.m f.x f.y⟩,
  ⟨50#6, 0#5, 0#5, 31#5, 0#5, 31#5, 12#5, 1023#10, 0#10, fun f => .tmark f.m f.x⟩]

/-- Rows of the opcode table, HSTART to CSRR (03 R71 to R76). -/
def rowsSystem1 : List Row := [
  ⟨52#6, 31#5, 0#5, 0#5, 0#5, 0#5, 0#5, 63#10, 0#10, fun f => .hstart f.m f.y f.z (f.fn.extractLsb' 6 4)⟩,
  ⟨52#6, 31#5, 0#5, 0#5, 0#5, 31#5, 0#5, 1023#10, 1#10, fun f => .hexit f.m f.y⟩,
  ⟨52#6, 0#5, 0#5, 31#5, 0#5, 31#5, 0#5, 63#10, 2#10, fun f => .hjoin f.m f.x (f.fn.extractLsb' 6 4)⟩,
  ⟨52#6, 31#5, 0#5, 0#5, 0#5, 31#5, 0#5, 1023#10, 3#10, fun f => .exit f.m f.y⟩,
  ⟨52#6, 31#5, 0#5, 0#5, 0#5, 31#5, 0#5, 1023#10, 4#10, fun f => .pusht f.m f.y⟩,
  ⟨52#6, 0#5, 0#5, 31#5, 0#5, 31#5, 0#5, 1023#10, 5#10, fun f => .popt f.m f.x⟩,
  ⟨52#6, 31#5, 0#5, 0#5, 0#5, 31#5, 0#5, 1023#10, 6#10, fun f => .tcancel f.m f.y⟩,
  ⟨52#6, 0#5, 0#5, 31#5, 0#5, 31#5, 0#5, 1023#10, 7#10, fun f => .tpoll f.m f.x⟩,
  ⟨52#6, 0#5, 0#5, 31#5, 0#5, 31#5, 0#5, 1023#10, 8#10, fun f => .ctxid f.m f.x⟩,
  ⟨53#6, 31#5, 0#5, 0#5, 0#5, 0#5, 0#5, 1023#10, 0#10, fun f => .binit f.m f.y f.z⟩,
  ⟨53#6, 31#5, 0#5, 0#5, 0#5, 31#5, 0#5, 1023#10, 1#10, fun f => .barrive f.m f.y⟩,
  ⟨53#6, 31#5, 0#5, 0#5, 0#5, 0#5, 0#5, 1023#10, 2#10, fun f => .bbeat f.m f.y f.z⟩,
  ⟨53#6, 31#5, 0#5, 0#5, 0#5, 0#5, 0#5, 1023#10, 3#10, fun f => .bwait f.m f.y f.z⟩,
  ⟨53#6, 0#5, 0#5, 0#5, 0#5, 31#5, 0#5, 1023#10, 4#10, fun f => .bstat f.m f.x f.y⟩,
  ⟨54#6, 0#5, 0#5, 0#5, 0#5, 0#5, 0#5, 1023#10, 0#10, fun f => .msend f.m f.x f.y f.z⟩,
  ⟨54#6, 31#5, 0#5, 0#5, 0#5, 0#5, 0#5, 1023#10, 1#10, fun f => .mdep f.m f.y f.z⟩,
  ⟨54#6, 31#5, 0#5, 31#5, 0#5, 31#5, 0#5, 1023#10, 2#10, fun f => .waitm f.m⟩,
  ⟨55#6, 0#5, 0#5, 0#5, 0#5, 0#5, 0#5, 783#10, 0#10, fun f => .cred f.m f.x f.y f.z (f.fn.extractLsb' 6 2) (f.fn.extractLsb' 4 2)⟩,
  ⟨55#6, 0#5, 0#5, 0#5, 0#5, 0#5, 0#5, 831#10, 1#10, fun f => .cmaxb f.m f.x f.y f.z (f.fn.extractLsb' 6 2)⟩,
  ⟨56#6, 0#5, 0#5, 31#5, 0#5, 28#5, 0#5, 0#10, 0#10, fun f => .csrr f.m f.x (f.z.extractLsb' 0 2 ++ f.fn)⟩]

/-- Rows of the opcode table, CSRW to MIGR (03 R71 to R76). -/
def rowsSystem2 : List Row := [
  ⟨56#6, 31#5, 0#5, 0#5, 0#5, 28#5, 4#5, 0#10, 0#10, fun f => .csrw f.m f.y (f.z.extractLsb' 0 2 ++ f.fn)⟩,
  ⟨56#6, 0#5, 0#5, 0#5, 0#5, 28#5, 8#5, 0#10, 0#10, fun f => .csrs f.m f.x f.y (f.z.extractLsb' 0 2 ++ f.fn)⟩,
  ⟨56#6, 0#5, 0#5, 0#5, 0#5, 28#5, 12#5, 0#10, 0#10, fun f => .csrc f.m f.x f.y (f.z.extractLsb' 0 2 ++ f.fn)⟩,
  ⟨56#6, 31#5, 0#5, 31#5, 0#5, 28#5, 16#5, 0#10, 0#10, fun f => .trap f.m (f.z.extractLsb' 0 2 ++ f.fn)⟩,
  ⟨56#6, 31#5, 0#5, 31#5, 0#5, 31#5, 20#5, 1023#10, 0#10, fun f => .rtt f.m⟩,
  ⟨56#6, 0#5, 0#5, 0#5, 0#5, 31#5, 20#5, 1023#10, 1#10, fun f => .halt f.m f.x f.y⟩,
  ⟨56#6, 31#5, 0#5, 31#5, 0#5, 31#5, 20#5, 1023#10, 2#10, fun f => .bkpt f.m⟩,
  ⟨56#6, 0#5, 0#5, 0#5, 0#5, 31#5, 20#5, 1023#10, 3#10, fun f => .resume f.m f.x f.y⟩,
  ⟨56#6, 0#5, 0#5, 0#5, 0#5, 31#5, 20#5, 1023#10, 4#10, fun f => .kill f.m f.x f.y⟩,
  ⟨56#6, 0#5, 0#5, 0#5, 0#5, 31#5, 20#5, 1023#10, 5#10, fun f => .migr f.m f.x f.y⟩]

/-- Every encoded row. -/
def rows : List Row :=
  rowsScalar1 ++ rowsScalar2 ++ rowsScalar3 ++ rowsControl ++ rowsMemory1 ++ rowsMemory2 ++ rowsVector1 ++ rowsVector2 ++ rowsVector3 ++ rowsEngine1 ++ rowsEngine2 ++ rowsSystem1 ++ rowsSystem2

/-- Why a word is no instruction (03 R78): no row selects it (an unassigned major or selector, or a non-zero unused
field), or its row's entry forbids a field value. -/
inductive Reject where
  | unassigned
  | illFormed
  deriving DecidableEq, Repr

/-- The row's instruction before the entry's own checks. -/
def decodeRaw (f : Fields) : Option Instr :=
  (rows.find? (fun r => r.selects f)).map (fun r => r.build f)

/-- Decodes one word (03 R78). -/
def decode (w : BitVec 32) : Except Reject Instr :=
  match decodeRaw (Fields.ofWord w) with
  | none => .error .unassigned
  | some i => if i.wf then .ok i else .error .illFormed

/-- The instruction of four bytes in memory order, little-endian (03 R62). -/
def decodeBytes (b0 b1 b2 b3 : Byte) : Except Reject Instr := decode (b3 ++ b2 ++ b1 ++ b0)

/-- The host's numbering is the word's own: bit 0 is the least significant bit of the one 32-bit word. -/
def decodeTableWord (nbits w : Nat) : Option Instr :=
  if nbits ≤ 32 then
    match decode (BitVec.ofNat 32 w) with
    | .ok i => some i
    | .error _ => none
  else none

/-- The segments that encode an instruction; events have no encoding (03 R63 to R76). -/
def encodeFields : Instr → Option Fields
  | .add m d a b => some ⟨m, 1#6, d, a, b, 0#10⟩
  | .sub m d a b => some ⟨m, 1#6, d, a, b, 1#10⟩
  | .and m d a b => some ⟨m, 1#6, d, a, b, 2#10⟩
  | .or m d a b => some ⟨m, 1#6, d, a, b, 3#10⟩
  | .xor m d a b => some ⟨m, 1#6, d, a, b, 4#10⟩
  | .andn m d a b => some ⟨m, 1#6, d, a, b, 5#10⟩
  | .orn m d a b => some ⟨m, 1#6, d, a, b, 6#10⟩
  | .sll m d a b => some ⟨m, 1#6, d, a, b, 7#10⟩
  | .srl m d a b => some ⟨m, 1#6, d, a, b, 8#10⟩
  | .sra m d a b => some ⟨m, 1#6, d, a, b, 9#10⟩
  | .rol m d a b => some ⟨m, 1#6, d, a, b, 10#10⟩
  | .ror m d a b => some ⟨m, 1#6, d, a, b, 11#10⟩
  | .slt m d a b => some ⟨m, 1#6, d, a, b, 12#10⟩
  | .sltu m d a b => some ⟨m, 1#6, d, a, b, 13#10⟩
  | .min m d a b => some ⟨m, 1#6, d, a, b, 14#10⟩
  | .max m d a b => some ⟨m, 1#6, d, a, b, 15#10⟩
  | .minu m d a b => some ⟨m, 1#6, d, a, b, 16#10⟩
  | .maxu m d a b => some ⟨m, 1#6, d, a, b, 17#10⟩
  | .clz m d a => some ⟨m, 1#6, d, a, 0#5, 32#10⟩
  | .ctz m d a => some ⟨m, 1#6, d, a, 0#5, 33#10⟩
  | .popc m d a => some ⟨m, 1#6, d, a, 0#5, 34#10⟩
  | .bswap m d a => some ⟨m, 1#6, d, a, 0#5, 35#10⟩
  | .sextB m d a => some ⟨m, 1#6, d, a, 0#5, 36#10⟩
  | .sextH m d a => some ⟨m, 1#6, d, a, 0#5, 37#10⟩
  | .sextW m d a => some ⟨m, 1#6, d, a, 0#5, 38#10⟩
  | .zextB m d a => some ⟨m, 1#6, d, a, 0#5, 39#10⟩
  | .zextH m d a => some ⟨m, 1#6, d, a, 0#5, 40#10⟩
  | .zextW m d a => some ⟨m, 1#6, d, a, 0#5, 41#10⟩
  | .addi m d a i => some ⟨m, 2#6, d, a, i.extractLsb' 10 5, i.extractLsb' 0 10⟩
  | .andi m d a i => some ⟨m, 3#6, d, a, i.extractLsb' 10 5, i.extractLsb' 0 10⟩
  | .ori m d a i => some ⟨m, 4#6, d, a, i.extractLsb' 10 5, i.extractLsb' 0 10⟩
  | .xori m d a i => some ⟨m, 5#6, d, a, i.extractLsb' 10 5, i.extractLsb' 0 10⟩
  | .slti m d a i => some ⟨m, 6#6, d, a, i.extractLsb' 10 5, i.extractLsb' 0 10⟩
  | .sltiu m d a i => some ⟨m, 7#6, d, a, i.extractLsb' 10 5, i.extractLsb' 0 10⟩
  | .slli m d a n => some ⟨m, 8#6, d, a, 0#5, 0#4 ++ n⟩
  | .srli m d a n => some ⟨m, 8#6, d, a, 0#5, 4#4 ++ n⟩
  | .srai m d a n => some ⟨m, 8#6, d, a, 0#5, 8#4 ++ n⟩
  | .lui m d i => some ⟨m, 9#6, d, i.extractLsb' 15 5, i.extractLsb' 10 5, i.extractLsb' 0 10⟩
  | .lua m d i => some ⟨m, 10#6, d, i.extractLsb' 15 5, i.extractLsb' 10 5, i.extractLsb' 0 10⟩
  | .mull m d a b => some ⟨m, 11#6, d, a, b, 0#10⟩
  | .mulhs m d a b => some ⟨m, 11#6, d, a, b, 1#10⟩
  | .mulhz m d a b => some ⟨m, 11#6, d, a, b, 2#10⟩
  | .mulhsz m d a b => some ⟨m, 11#6, d, a, b, 3#10⟩
  | .divq m d a b => some ⟨m, 11#6, d, a, b, 4#10⟩
  | .divqz m d a b => some ⟨m, 11#6, d, a, b, 5#10⟩
  | .divr m d a b => some ⟨m, 11#6, d, a, b, 6#10⟩
  | .divrz m d a b => some ⟨m, 11#6, d, a, b, 7#10⟩
  | .divideComplete _ => none
  | .padd m d a b => some ⟨m, 12#6, d, a, b, 0#10⟩
  | .pfmt m d a b => some ⟨m, 12#6, d, a, b, 1#10⟩
  | .pget m d a => some ⟨m, 12#6, d, a, 0#5, 2#10⟩
  | .pstrip m d a => some ⟨m, 12#6, d, a, 0#5, 3#10⟩
  | .pidx m d a b => some ⟨m, 12#6, d, a, b, 4#10⟩
  | .paddi m d a i => some ⟨m, 12#6, d, a, i.extractLsb' 9 5, 1#1 ++ i.extractLsb' 0 9⟩
  | .beq m a b o => some ⟨m, 16#6, a, b, o.extractLsb' 10 5, o.extractLsb' 0 10⟩
  | .bne m a b o => some ⟨m, 17#6, a, b, o.extractLsb' 10 5, o.extractLsb' 0 10⟩
  | .blt m a b o => some ⟨m, 18#6, a, b, o.extractLsb' 10 5, o.extractLsb' 0 10⟩
  | .bge m a b o => some ⟨m, 19#6, a, b, o.extractLsb' 10 5, o.extractLsb' 0 10⟩
  | .bltu m a b o => some ⟨m, 20#6, a, b, o.extractLsb' 10 5, o.extractLsb' 0 10⟩
  | .bgeu m a b o => some ⟨m, 21#6, a, b, o.extractLsb' 10 5, o.extractLsb' 0 10⟩
  | .j m o => some ⟨m, 22#6, o.extractLsb' 20 5, o.extractLsb' 15 5, o.extractLsb' 10 5, o.extractLsb' 0 10⟩
  | .jl m o => some ⟨m, 23#6, o.extractLsb' 20 5, o.extractLsb' 15 5, o.extractLsb' 10 5, o.extractLsb' 0 10⟩
  | .jr m a => some ⟨m, 24#6, 0#5, a, 0#5, 0#10⟩
  | .jlr m d a => some ⟨m, 24#6, d, a, 0#5, 1#10⟩
  | .call m o => some ⟨m, 25#6, 0#1 ++ o.extractLsb' 20 4, o.extractLsb' 15 5, o.extractLsb' 10 5, o.extractLsb' 0 10⟩
  | .callr m a => some ⟨m, 25#6, 16#5, a, 0#5, 0#10⟩
  | .ret m => some ⟨m, 26#6, 0#5, 0#5, 0#5, 0#10⟩
  | .rep m l t c => some ⟨m, 26#6, 1#1 ++ l, 0#5, t ++ c.extractLsb' 10 2, c.extractLsb' 0 10⟩
  | .ldB m d a o => some ⟨m, 32#6, d, a, 0#3 ++ o.extractLsb' 10 2, o.extractLsb' 0 10⟩
  | .ldBu m d a o => some ⟨m, 32#6, d, a, 1#3 ++ o.extractLsb' 10 2, o.extractLsb' 0 10⟩
  | .ldH m d a o => some ⟨m, 32#6, d, a, 2#3 ++ o.extractLsb' 10 2, o.extractLsb' 0 10⟩
  | .ldHu m d a o => some ⟨m, 32#6, d, a, 3#3 ++ o.extractLsb' 10 2, o.extractLsb' 0 10⟩
  | .ldW m d a o => some ⟨m, 32#6, d, a, 4#3 ++ o.extractLsb' 10 2, o.extractLsb' 0 10⟩
  | .ldWu m d a o => some ⟨m, 32#6, d, a, 5#3 ++ o.extractLsb' 10 2, o.extractLsb' 0 10⟩
  | .ldD m d a o => some ⟨m, 32#6, d, a, 6#3 ++ o.extractLsb' 10 2, o.extractLsb' 0 10⟩
  | .pref m a o => some ⟨m, 32#6, 0#5, a, 7#3 ++ o.extractLsb' 10 2, o.extractLsb' 0 10⟩
  | .stB m b a o => some ⟨m, 33#6, b, a, 0#3 ++ o.extractLsb' 10 2, o.extractLsb' 0 10⟩
  | .stH m b a o => some ⟨m, 33#6, b, a, 2#3 ++ o.extractLsb' 10 2, o.extractLsb' 0 10⟩
  | .stW m b a o => some ⟨m, 33#6, b, a, 4#3 ++ o.extractLsb' 10 2, o.extractLsb' 0 10⟩
  | .stD m b a o => some ⟨m, 33#6, b, a, 6#3 ++ o.extractLsb' 10 2, o.extractLsb' 0 10⟩
  | .lde m d a k => some ⟨m, 34#6, d, a, 0#3 ++ k.extractLsb' 10 2, k.extractLsb' 0 10⟩
  | .ste m d a k => some ⟨m, 34#6, d, a, 1#3 ++ k.extractLsb' 10 2, k.extractLsb' 0 10⟩
  | .ldlW m d a b l mode => some ⟨m, 35#6, d, a, b, l ++ mode ++ 0#2⟩
  | .ldlWu m d a b l mode => some ⟨m, 35#6, d, a, b, l ++ mode ++ 1#2⟩
  | .ldlD m d a b l mode => some ⟨m, 35#6, d, a, b, l ++ mode ++ 2#2⟩
  | .amoadd m d a b w o => some ⟨m, 36#6, d, a, b, 0#7 ++ w ++ o⟩
  | .amoand m d a b w o => some ⟨m, 36#6, d, a, b, 1#7 ++ w ++ o⟩
  | .amoor m d a b w o => some ⟨m, 36#6, d, a, b, 2#7 ++ w ++ o⟩
  | .amoxor m d a b w o => some ⟨m, 36#6, d, a, b, 3#7 ++ w ++ o⟩
  | .amomin m d a b w o => some ⟨m, 36#6, d, a, b, 4#7 ++ w ++ o⟩
  | .amomax m d a b w o => some ⟨m, 36#6, d, a, b, 5#7 ++ w ++ o⟩
  | .amominu m d a b w o => some ⟨m, 36#6, d, a, b, 6#7 ++ w ++ o⟩
  | .amomaxu m d a b w o => some ⟨m, 36#6, d, a, b, 7#7 ++ w ++ o⟩
  | .amoswap m d a b w o => some ⟨m, 36#6, d, a, b, 8#7 ++ w ++ o⟩
  | .amofaddS m d a b o => some ⟨m, 36#6, d, a, b, 18#8 ++ o⟩
  | .cas m d a b w o => some ⟨m, 36#6, d, a, b, 10#7 ++ w ++ o⟩
  | .cas2 m d a b w o => some ⟨m, 36#6, d, a, b, 11#7 ++ w ++ o⟩
  | .fence m c k => some ⟨m, 37#6, 0#5, 0#5, 0#5, 0#2 ++ c ++ k ++ 0#2⟩
  | .cflush m a => some ⟨m, 37#6, 0#5, a, 0#5, 256#10⟩
  | .cinv m a => some ⟨m, 37#6, 0#5, a, 0#5, 512#10⟩
  | .cwb m a => some ⟨m, 37#6, 0#5, a, 0#5, 768#10⟩
  | .lda m d a z o => some ⟨m, 38#6, d, a, 0#1 ++ z ++ o.extractLsb' 10 2, o.extractLsb' 0 10⟩
  | .strl m d a z o => some ⟨m, 38#6, d, a, 1#1 ++ z ++ o.extractLsb' 10 2, o.extractLsb' 0 10⟩
  | .itadv m i => some ⟨m, 39#6, 0#5, 0#5, 0#3 ++ i.extractLsb' 10 2, i.extractLsb' 0 10⟩
  | .itset m a i => some ⟨m, 39#6, 0#5, a, 1#3 ++ i.extractLsb' 10 2, i.extractLsb' 0 10⟩
  | .itget m d => some ⟨m, 39#6, d, 0#5, 8#5, 0#10⟩
  | .vadd m d a b t k => some ⟨m, 40#6, d, a, b, t ++ k ++ 0#5⟩
  | .vsub m d a b t k => some ⟨m, 40#6, d, a, b, t ++ k ++ 1#5⟩
  | .vmul m d a b t k => some ⟨m, 40#6, d, a, b, t ++ k ++ 2#5⟩
  | .vmin m d a b t k => some ⟨m, 40#6, d, a, b, t ++ k ++ 3#5⟩
  | .vmax m d a b t k => some ⟨m, 40#6, d, a, b, t ++ k ++ 4#5⟩
  | .vand m d a b t k => some ⟨m, 40#6, d, a, b, t ++ k ++ 5#5⟩
  | .vor m d a b t k => some ⟨m, 40#6, d, a, b, t ++ k ++ 6#5⟩
  | .vxor m d a b t k => some ⟨m, 40#6, d, a, b, t ++ k ++ 7#5⟩
  | .vsll m d a b t k => some ⟨m, 40#6, d, a, b, t ++ k ++ 8#5⟩
  | .vsrl m d a b t k => some ⟨m, 40#6, d, a, b, t ++ k ++ 9#5⟩
  | .vsra m d a b t k => some ⟨m, 40#6, d, a, b, t ++ k ++ 10#5⟩
  | .vfadd m d a b t k => some ⟨m, 41#6, d, a, b, t ++ k ++ 0#5⟩
  | .vfsub m d a b t k => some ⟨m, 41#6, d, a, b, t ++ k ++ 1#5⟩
  | .vfmul m d a b t k => some ⟨m, 41#6, d, a, b, t ++ k ++ 2#5⟩
  | .vfma m d a b t k => some ⟨m, 41#6, d, a, b, t ++ k ++ 3#5⟩
  | .vfnma m d a b t k => some ⟨m, 41#6, d, a, b, t ++ k ++ 4#5⟩
  | .vfmin m d a b t k => some ⟨m, 41#6, d, a, b, t ++ k ++ 5#5⟩
  | .vfmax m d a b t k => some ⟨m, 41#6, d, a, b, t ++ k ++ 6#5⟩
  | .vfabs m d a t k => some ⟨m, 41#6, d, a, 0#5, t ++ k ++ 7#5⟩
  | .vfneg m d a t k => some ⟨m, 41#6, d, a, 0#5, t ++ k ++ 8#5⟩
  | .vfrcp m d a t k => some ⟨m, 41#6, d, a, 0#5, t ++ k ++ 9#5⟩
  | .vfrsqrt m d a t k => some ⟨m, 41#6, d, a, 0#5, t ++ k ++ 10#5⟩
  | .vfexp2 m d a t k => some ⟨m, 41#6, d, a, 0#5, t ++ k ++ 11#5⟩
  | .vscale m d a b t k => some ⟨m, 41#6, d, a, b, t ++ k ++ 12#5⟩
  | .vcmpEq m d a b t k => some ⟨m, 41#6, 0#2 ++ d, a, b, t ++ k ++ 16#5⟩
  | .vcmpLt m d a b t k => some ⟨m, 41#6, 0#2 ++ d, a, b, t ++ k ++ 17#5⟩
  | .vcmpLe m d a b t k => some ⟨m, 41#6, 0#2 ++ d, a, b, t ++ k ++ 18#5⟩
  | .vcmpNe m d a b t k => some ⟨m, 41#6, 0#2 ++ d, a, b, t ++ k ++ 19#5⟩
  | .vsel m d a b t k => some ⟨m, 41#6, d, a, b, t ++ k ++ 20#5⟩
  | .vld m d a t k => some ⟨m, 42#6, d, a, 0#5, t ++ k ++ 0#5⟩
  | .vst m d a t k => some ⟨m, 42#6, d, a, 0#5, t ++ k ++ 1#5⟩
  | .vlds m d a b t k => some ⟨m, 42#6, d, a, b, t ++ k ++ 2#5⟩
  | .vsts m d a b t k => some ⟨m, 42#6, d, a, b, t ++ k ++ 3#5⟩
  | .vgath m d a b t k => some ⟨m, 42#6, d, a, b, t ++ k ++ 4#5⟩
  | .vscat m d a b t k => some ⟨m, 42#6, d, a, b, t ++ k ++ 5#5⟩
  | .vcvt m d a g r k c => some ⟨m, 43#6, d, a, g, r ++ k ++ c⟩
  | .vquant m d a g r k c => some ⟨m, 43#6, d, a, g, r ++ k ++ c⟩
  | .vdequant m d a g r k c => some ⟨m, 43#6, d, a, g, r ++ k ++ c⟩
  | .vbcast m d a t k => some ⟨m, 44#6, d, a, 0#5, t ++ k ++ 0#5⟩
  | .vmovx m d a b t => some ⟨m, 44#6, d, a, b, t ++ 1#8⟩
  | .vins m d a b t => some ⟨m, 44#6, d, a, b, t ++ 2#8⟩
  | .vperm m d a b t k => some ⟨m, 44#6, d, a, b, t ++ k ++ 3#5⟩
  | .vslide m d a b t k => some ⟨m, 44#6, d, a, b, t ++ k ++ 4#5⟩
  | .vredsum m d a t k => some ⟨m, 44#6, d, a, 0#5, t ++ k ++ 5#5⟩
  | .vredmax m d a t k => some ⟨m, 44#6, d, a, 0#5, t ++ k ++ 6#5⟩
  | .vredmin m d a t k => some ⟨m, 44#6, d, a, 0#5, t ++ k ++ 7#5⟩
  | .vredsumFloat m d a t k => some ⟨m, 44#6, d, a, 0#5, t ++ k ++ 8#5⟩
  | .vredmaxFloat m d a t k => some ⟨m, 44#6, d, a, 0#5, t ++ k ++ 9#5⟩
  | .vredminFloat m d a t k => some ⟨m, 44#6, d, a, 0#5, t ++ k ++ 10#5⟩
  | .kand m d a b => some ⟨m, 45#6, 0#2 ++ d, 0#2 ++ a, 0#2 ++ b, 0#10⟩
  | .kor m d a b => some ⟨m, 45#6, 0#2 ++ d, 0#2 ++ a, 0#2 ++ b, 1#10⟩
  | .kxor m d a b => some ⟨m, 45#6, 0#2 ++ d, 0#2 ++ a, 0#2 ++ b, 2#10⟩
  | .knot m d a => some ⟨m, 45#6, 0#2 ++ d, 0#2 ++ a, 0#5, 3#10⟩
  | .kmovToMask m d a => some ⟨m, 45#6, 0#2 ++ d, a, 0#5, 4#10⟩
  | .kmovFromMask m d a => some ⟨m, 45#6, d, 0#2 ++ a, 0#5, 5#10⟩
  | .tcfg m t a => some ⟨m, 48#6, 0#2 ++ t, a, 0#5, 0#10⟩
  | .tzero m t => some ⟨m, 48#6, 0#2 ++ t, 0#5, 0#5, 64#10⟩
  | .tldr m t a i => some ⟨m, 48#6, 0#2 ++ t, a, 0#5, 2#4 ++ i⟩
  | .tstr m t a i => some ⟨m, 48#6, 0#2 ++ t, a, 0#5, 3#4 ++ i⟩
  | .tvrow m t a i => some ⟨m, 48#6, 0#2 ++ t, a, 0#5, 4#4 ++ i⟩
  | .trowv m t a i => some ⟨m, 48#6, 0#2 ++ t, a, 0#5, 5#4 ++ i⟩
  | .tvcol m t a i => some ⟨m, 48#6, 0#2 ++ t, a, 0#5, 6#4 ++ i⟩
  | .tcolv m t a i => some ⟨m, 48#6, 0#2 ++ t, a, 0#5, 7#4 ++ i⟩
  | .tsave m t => some ⟨m, 48#6, 0#2 ++ t, 0#5, 0#5, 512#10⟩
  | .tstat m t a => some ⟨m, 48#6, 0#2 ++ t, a, 0#5, 576#10⟩
  | .mma m t a b n => some ⟨m, 49#6, 0#2 ++ t, a, b, 0#9 ++ n⟩
  | .mmar m t a b n => some ⟨m, 49#6, 0#2 ++ t, a, b, 128#9 ++ n⟩
  | .mxw m a r => some ⟨m, 50#6, a, 0#5, 0#5, 0#2 ++ r⟩
  | .mxr m a r => some ⟨m, 50#6, a, 0#5, 0#5, 1#2 ++ r⟩
  | .ceStart m a b => some ⟨m, 50#6, a, b, 4#5, 0#10⟩
  | .ceCancel m a => some ⟨m, 50#6, a, 0#5, 4#5, 1#10⟩
  | .ceStat m a b => some ⟨m, 50#6, a, b, 4#5, 2#10⟩
  | .vcdef m a b => some ⟨m, 50#6, a, b, 8#5, 0#10⟩
  | .vcresize m a b => some ⟨m, 50#6, a, b, 8#5, 1#10⟩
  | .vcflush m a b => some ⟨m, 50#6, a, b, 8#5, 2#10⟩
  | .vcinv m a b => some ⟨m, 50#6, a, b, 8#5, 3#10⟩
  | .vcstat m a b => some ⟨m, 50#6, a, b, 8#5, 4#10⟩
  | .tlbfill m a b => some ⟨m, 50#6, a, b, 8#5, 5#10⟩
  | .tlbprobe m a b => some ⟨m, 50#6, a, b, 8#5, 6#10⟩
  | .pblock m a => some ⟨m, 50#6, a, 0#5, 8#5, 7#10⟩
  | .punblock m a b => some ⟨m, 50#6, a, b, 8#5, 8#10⟩
  | .tmark m a => some ⟨m, 50#6, a, 0#5, 12#5, 0#10⟩
  | .hstart m a b h => some ⟨m, 52#6, 0#5, a, b, h ++ 0#6⟩
  | .hexit m a => some ⟨m, 52#6, 0#5, a, 0#5, 1#10⟩
  | .hjoin m d h => some ⟨m, 52#6, d, 0#5, 0#5, h ++ 2#6⟩
  | .exit m a => some ⟨m, 52#6, 0#5, a, 0#5, 3#10⟩
  | .pusht m a => some ⟨m, 52#6, 0#5, a, 0#5, 4#10⟩
  | .popt m d => some ⟨m, 52#6, d, 0#5, 0#5, 5#10⟩
  | .tcancel m a => some ⟨m, 52#6, 0#5, a, 0#5, 6#10⟩
  | .tpoll m d => some ⟨m, 52#6, d, 0#5, 0#5, 7#10⟩
  | .ctxid m d => some ⟨m, 52#6, d, 0#5, 0#5, 8#10⟩
  | .binit m a b => some ⟨m, 53#6, 0#5, a, b, 0#10⟩
  | .barrive m a => some ⟨m, 53#6, 0#5, a, 0#5, 1#10⟩
  | .bbeat m a b => some ⟨m, 53#6, 0#5, a, b, 2#10⟩
  | .bwait m a b => some ⟨m, 53#6, 0#5, a, b, 3#10⟩
  | .bstat m d a => some ⟨m, 53#6, d, a, 0#5, 4#10⟩
  | .msend m d a b => some ⟨m, 54#6, d, a, b, 0#10⟩
  | .mdep m a b => some ⟨m, 54#6, 0#5, a, b, 1#10⟩
  | .waitm m => some ⟨m, 54#6, 0#5, 0#5, 0#5, 2#10⟩
  | .cred m d a b t o => some ⟨m, 55#6, d, a, b, 0#2 ++ t ++ o ++ 0#4⟩
  | .cmaxb m d a b t => some ⟨m, 55#6, d, a, b, 0#2 ++ t ++ 1#6⟩
  | .csrr m d c => some ⟨m, 56#6, d, 0#5, 0#3 ++ c.extractLsb' 10 2, c.extractLsb' 0 10⟩
  | .csrw m a c => some ⟨m, 56#6, 0#5, a, 1#3 ++ c.extractLsb' 10 2, c.extractLsb' 0 10⟩
  | .csrs m d a c => some ⟨m, 56#6, d, a, 2#3 ++ c.extractLsb' 10 2, c.extractLsb' 0 10⟩
  | .csrc m d a c => some ⟨m, 56#6, d, a, 3#3 ++ c.extractLsb' 10 2, c.extractLsb' 0 10⟩
  | .trap m i => some ⟨m, 56#6, 0#5, 0#5, 4#3 ++ i.extractLsb' 10 2, i.extractLsb' 0 10⟩
  | .rtt m => some ⟨m, 56#6, 0#5, 0#5, 20#5, 0#10⟩
  | .halt m d a => some ⟨m, 56#6, d, a, 20#5, 1#10⟩
  | .bkpt m => some ⟨m, 56#6, 0#5, 0#5, 20#5, 2#10⟩
  | .resume m d a => some ⟨m, 56#6, d, a, 20#5, 3#10⟩
  | .kill m d a => some ⟨m, 56#6, d, a, 20#5, 4#10⟩
  | .migr m d a => some ⟨m, 56#6, d, a, 20#5, 5#10⟩
  | .illegalEncoding _ => none
  | .resultWriteback _ _ _ _ => none
  | .translationInvalidation _ => none
  | .translationInvalidationAck _ => none
  | .ownershipRequest _ => none
  | .recallCopy _ => none
  | .invalidationAcknowledgement _ => none
  | .grant _ => none
  | .bisnpResponse _ _ => none
  | .stampedStoreAtHome _ => none
  | .stampedReadAtHome _ => none
  | .staleTimeout _ _ _ => none
  | .backoffRetry _ => none
  | .blockedPageAccess _ => none
  | .replayAccess _ => none
  | .hostCxlMemRead _ _ => none
  | .hostCxlMemWrite _ _ _ => none
  | .load _ => none
  | .store _ => none
  | .atomic _ => none
  | .cas2Packet _ => none
  | .enq _ => none
  | .chase _ => none
  | .withdraw _ => none
  | .data _ => none
  | .ack _ => none
  | .nack _ => none
  | .fabricTimeout _ _ => none
  | .packetDiscard _ => none
  | .tagGroupClose _ => none
  | .tagFlit _ _ _ => none
  | .retransmitRequest _ _ => none
  | .keyload => none
  | .partitionDissolve => none
  | .registerWrite _ _ => none
  | .rejCounterClear _ => none
  | .domainWrite _ _ => none
  | .scrubComplete _ => none
  | .bsplitWrite _ _ => none
  | .iterWrite _ _ _ => none
  | .tshapeWrite _ _ _ => none
  | .tsavepWrite _ => none
  | .mxstepWrite _ _ => none
  | .vcSetMigrated _ => none
  | .vcOperationComplete _ => none
  | .vcRetireComplete _ => none
  | .copyWindow _ _ => none
  | .copyComplete _ _ => none
  | .matrixStep _ => none
  | .mmarCommand _ => none
  | .handlerMessageDelivery _ => none
  | .directedMessageDelivery _ => none
  | .deposit _ => none
  | .depositAnswer _ => none
  | .dispatch _ => none
  | .dispatchRoundTimer _ => none
  | .stealRequest _ => none
  | .stealReply _ => none
  | .combiningContribution _ => none
  | .combiningTimeout _ _ => none
  | .lateCount _ => none
  | .cmaxbRelease _ => none
  | .bwaitAnswer _ => none
  | .forwardedArrival _ => none
  | .doorbell _ _ => none
  | .ringEntryRead _ => none
  | .queueEnable _ => none
  | .queueDrain _ => none
  | .queueDisable _ => none
  | .queueKill _ => none
  | .launchEligible _ => none
  | .launchPrepare _ _ => none
  | .launchComplete _ => none
  | .powerOn _ => none
  | .bootgo _ _ => none
  | .attgo => none
  | .gong _ => none
  | .release _ => none
  | .counterClear _ _ => none
  | .trcdataRead _ => none
  | .traceGap _ => none
  | .powerMeasure _ => none
  | .thermalLimit _ _ => none
  | .writeBack _ => none
  | .hostAcknowledgement _ => none
  | .adaptiveRoutingReenable _ => none

/-- The word of an encoded instruction; an event, which has none, gives the always illegal word 0 (03 R78). -/
def encodeWord (i : Instr) : BitVec 32 :=
  match i with
  | .illegalEncoding w => w
  | i => match encodeFields i with
    | some f => f.toWord
    | none => 0#32

/-- The words of an instruction: one for an encoded row, none for an event. -/
def encode (i : Instr) : List (BitVec 32) :=
  match encodeFields i with
  | some f => [f.toWord]
  | none => []

/-- Whether the row has an encoding. -/
def Instr.encoded (i : Instr) : Bool := (encodeFields i).isSome

end Sys2Proof
end

