-- ==== Sys2Proof/Config.lean ====
section
/-! DEFINITION. What is fixed for the module and what the spec leaves open.

The constants without a body are free: nothing in Lean can evaluate them, so a theorem holds whatever they are. They are
the results of the cryptographic functions the spec names and whose keys come from a random source or from physically
unclonable structures (04 R83, 18 R381, 24 R416, R418), and the HBM ciphertext is not modelled (assumption 4, DESIGN CHOICE, safe). -/

namespace Sys2Proof.Config

/-- Falcon-1024 verification of the image bytes against the firmware key in the boot ROM (24 R416). -/
opaque imageSignatureValid : List Byte → List Byte → Bool
/-- The key drawn for a domain's key slot, one for each draw (04 R83). -/
opaque domainKey : Nat → BitVec 256
/-- What a unit reads as when it is decrypted under another key than it was encrypted under: the key that wrote it, the key that reads
it, the unit and the data (04 R83; assumption 4, DESIGN CHOICE, safe). -/
opaque recrypt : Option (BitVec 256) → Option (BitVec 256) → Nat → BitVec 1024 → BitVec 1024
/-- Which words of an UNTRACKED destination unit a copy writes next (06 R139; assumption 22, DESIGN CHOICE, safe). -/
opaque copyWords : Nat → BitVec 16
/-- The authentication tag of AES-256-GCM under a key and a nonce over a group of flits (18 R379). -/
opaque linkTag : BitVec 256 → BitVec 96 → List (BitVec 512) → BitVec 128
/-- The position or group that the detour of the next packet sent would pass through (18 R374; assumption 34, DESIGN CHOICE, safe). -/
opaque detour : Nat → Nat
/-- ML-KEM decapsulation and AES key unwrap of a key block: the job key, or nothing when either fails (18 R381). -/
opaque jobKey : List Byte → Option (BitVec 256)
/-- The 64-byte SHAKE256 digest of an image (24 R418). -/
opaque imageDigest : List Byte → List Byte
/-- The Falcon-1024 identity signature over a report's first 104 bytes (24 R418). -/
opaque identitySignature : List Byte → List Byte
/-- The public identity and encapsulation keys (24 R418). -/
opaque publicKeyByte : Nat → Byte
/-- EINFO[11:0] of a window trap from a ring that breaks 10 R215: 10 R218 names no entry there (assumption 6, DESIGN CHOICE, safe). -/
opaque brokenRingEntry : Nat → BitVec 12
/-- LOW after an rtt that moves it in a ring without entries: 10 R221 takes it mod N there (assumption 6, DESIGN CHOICE, safe). -/
opaque brokenRingLow : Nat → BitVec 12
/-- Which elements a step that stops on a refused operand has already updated (13 R284: "partly updated"; assumption 8, DESIGN CHOICE, safe). -/
opaque partlyUpdated : Nat → Nat → Bool

end Sys2Proof.Config
end

