-- ==== Sys2Proof/Machine/State.lean ====
section
/-! DEFINITION. The state of the module (INVENTORY.md, State) and its reset. Plain data: sparse tables keyed by number,
lists and bit vectors. Registers whose entry is not listed in a table hold that table's reset value. -/

namespace Sys2Proof.Machine

/-- A sparse table by number, keys rising. -/
abbrev Assoc (α : Type) := List (Nat × α)
/-- Byte storage: rising addresses, no byte listed that equals what an unlisted address reads as (assumption 2, DESIGN CHOICE, unsafe). -/
abbrev Memory := List Host.Cell

/-- Why the machine's step stops. -/
inductive Fault where
  /-- Raised by `step` after a failure of bring-up step 1 or 4: "the module stops", and only a power cycle restarts it
  (24 R414). Safe: the spec's own stop. -/
  | moduleStopped
  deriving DecidableEq, Repr

/-- Why a step has no meaning. -/
inductive Refusal where
  /-- Raised by `exec` alone, for an instruction whose meaning is not written yet. Safe: nothing is claimed of it. -/
  | notModelled (mnemonic : String)
  deriving DecidableEq, Repr

/-- Privilege (01 R16, 17 R349). -/
inductive Mode where
  | user
  | supervisor
  deriving DecidableEq, Repr

/-- CTXST.STATE (14 R289). -/
inductive CtxState where
  | dormant
  | ready
  | parked
  | held
  | halted
  deriving DecidableEq, Repr

/-- Coherence classes (06 R132). -/
inductive Cls where
  | tracked
  | stamped
  | untracked
  deriving DecidableEq, Repr

/-- Directory states, and the states of an L1 copy (06 R133). -/
inductive Dir where
  | i
  | s
  | e
  | m
  deriving DecidableEq, Repr

/-- Kinds of access (04 R86, R89). -/
inductive Acc where
  | read
  | write
  | fetch
  | atomic
  deriving DecidableEq, Repr

/-- Remote causes (17 R351). -/
inductive Cause where
  | illegal
  | priv
  | misalign
  | range
  | xlate
  | vcFault
  | tileUnconf
  | depDenied
  | poison
  | eccUncorr
  | collOverrun
  | fabricTimeout
  | linkIntegrity
  | killed
  deriving DecidableEq, Repr

/-- A remote fault's cause, INFO and ADDR (17 R353). -/
structure FaultInfo where
  cause : Cause
  info : BitVec 32
  addr : Addr
  undeliv : Bool
  deriving DecidableEq, Repr

/-- A local trap (17 R348): code, EPC, EINFO, and the WPEND and REPST.ACT updates made at handler entry. -/
structure Trap where
  code : BitVec 8
  epc : Addr
  einfo : Word
  wpend : BitVec 2
  deriving DecidableEq, Repr

/-- A repetition in progress (10 R227). -/
structure RepRun where
  base : Addr
  len : Nat
  count : Nat
  stride : Nat
  pos : Nat
  pass : Nat
  buf : List (BitVec 32)
  deriving DecidableEq, Repr

/-- A fault whose context still drains its outstanding operations (17 R352). -/
structure PendFault where
  f : FaultInfo
  pc : Addr
  seq : Nat
  deferred : Bool
  rep : Option RepRun
  deriving DecidableEq, Repr

/-- Where a scalar result goes, resolved at issue (10 R216). -/
inductive RegDst where
  | none
  | ram (e : Nat)
  | glob (j : Nat)
  deriving DecidableEq, Repr

/-- One register write of a returning result (03 R66). -/
inductive RegWrite where
  | scalar (d : RegDst) (w : Word)
  | vec (v : Nat) (data : Vec) (bits : Vec)
  | tileRow (t row : Nat) (data : Vec)
  | age (w : Word)
  deriving DecidableEq, Repr

/-- Where an access performs (08 R175). -/
inductive Place where
  | unit (vcid : Nat) (cls : Cls) (key pa : Nat)
  | hostw (pa : Nat)
  | remote (cls : Cls) (key pa : Nat)
  | ctrl (off : Nat)
  | tcm (core off : Nat)
  | slot (core off : Nat)
  | scratch (core off : Nat)
  | inter (cluster off : Nat)
  | ramEntry (core e : Nat)
  | vreg (core ctx off : Nat)
  | tile (core t off : Nat)
  | mask (core ctx k : Nat)
  | glob (core ctx j : Nat)
  | csr (core off : Nat)
  deriving DecidableEq, Repr

/-- What a lane does at its place: a read; a write of the bits of a mask; an atomic of R185; the pair or quad compare
and swap of R187 with its register; a whole-unit write of tsave with the poison bit
it leaves (13 R272); a write whose data waits for a scale (08 R183); ENQ or CHASE, which only a remote home performs, with the register and what the
issuer's translation adds (08 R187 to R189). -/
inductive LaneOp where
  | read
  | write (data mask : Vec)
  | amo (op : Nat) (n : Nat) (b : Word)
  | cas (n : Nat) (expect new : Word)
  | cas2 (quad : Bool) (v : Vec)
  | save (data : Vec) (poison : Bool)
  | later
  | enq (v : Vec) (link : Nat)
  | chase (v : Vec) (va : Addr) (pageBits : Nat)
  deriving DecidableEq, Repr

/-- One part of a memory operation: n bytes at one place. -/
structure Lane where
  ix : Nat
  va : Addr
  n : Nat
  place : Place
  op : LaneOp
  done : Bool
  data : Vec
  age : Option (BitVec 16)
  srcs : List Nat
  deriving DecidableEq, Repr

/-- How an operation's register writes follow from its lanes' data; `block` is memory that an instruction or the copy engine
reads for itself (09 R199, R204). -/
inductive Fin where
  | none
  | ready (ws : List RegWrite)
  | load (d : RegDst) (n : Nat) (signed : Bool)
  | ldl (d b : RegDst) (n : Nat) (signed : Bool)
  | elem (d : RegDst) (fmt sub : Nat) (mode : Nat) (lfsr : BitVec 32)
  | mxStore (fmt bit : Nat) (x : Word) (mode : Nat) (lfsr : BitVec 32)
  | amo (d : RegDst) (n : Nat)
  | cas2 (v : Nat) (quad : Bool)
  | remote64 (v : Nat)
  | vec (v : Nat)
  | tileRow (t row : Nat)
  | lazy (core t : Nat)
  | block
  deriving DecidableEq, Repr

/-- An issued operation that has not completed: a memory access, or a variable-latency result. `conv` says that it has advanced its
context's LFSR (02 R55), `wide` that it is no scalar access (01 R29), and `dead` that its context was killed: its write still performs, and no
fault of it reaches a context (17 R360). -/
structure Op where
  id : Nat
  ctx : Nat
  pc : Addr
  seq : Nat
  isLoad : Bool
  isStore : Bool
  acquire : Bool
  fin : Fin
  lanes : List Lane
  iter : BitVec 16
  lag : Nat
  ldlMode : Nat
  ord : Nat
  due : Option Nat
  stale : Bool
  lagTrap : Bool
  noInstall : Bool
  joint : Bool
  conv : Bool
  fault : Option FaultInfo
  sup : Bool
  wide : Bool
  rep : Option RepRun
  dead : Bool
  deriving DecidableEq, Repr

/-- What a context waits for when it cannot simply issue again. -/
inductive Wait where
  | none
  | marker
  | xlate (tag : Nat)
  | trapEntry (t : Trap)
  | drain (f : PendFault)
  | bwait (pa : Nat) (m : Bool)
  | message
  | deposit (m : Bool)
  | release (gid inst : Nat) (m : Bool)
  | router
  | scrub (id : Nat) (m : Bool) (d : RegDst) (w : Word)
  | steal
  | join
  deriving DecidableEq, Repr

/-- A context (14 R289, 17 R362). `engWords` says that a fence of kind eng covers UNTRACKED words that had not reached their homes (07
R172); `gonged` is the cluster whose Gong has halted the
context (24 R421); `kept` is what an instruction that waits has read at its first issue, with its `seq` and PC; `lfsrSet` is `seq` at the last write of LFSR, which undoes what the instructions before it left there
(02 R55). -/
structure Ctx where
  st : CtxState
  wait : Wait
  mode : Mode
  pc : Addr
  globs : Assoc Word
  vecs : Assoc Vec
  masks : Assoc Word
  iter : BitVec 16
  age : Word
  wpend : BitVec 2
  low : BitVec 12
  base : BitVec 12
  rslo : BitVec 12
  rshi : BitVec 13
  spillp : Word
  tvec : Word
  inh : Bool
  epc : Addr
  ecause : Word
  einfo : Word
  repst : Word
  rmode : BitVec 3
  lfsr : BitVec 32
  lfsrSet : Nat
  depen : BitVec 8
  msrc : BitVec 17
  mslot : BitVec 4
  mseen : Bool
  mpend : Bool
  ptrap : Option (Trap × Nat)
  msgStarted : Bool
  msgSlot : Option Nat
  exitVal : Word
  creator : Option Nat
  rep : Option RepRun
  fetched : List (Nat × BitVec 32)
  seq : Nat
  gonged : Option Nat
  ranged : Bool
  stepOver : Bool
  fenceErr : Option (Cause × Nat)
  engWait : List (Nat × Bool)
  engWords : Bool
  kept : Option (Nat × Addr × List Nat)
  deriving DecidableEq, Repr

/-- A translation entry (04 R91). -/
structure TlbEnt where
  vpn : Nat
  size : Nat
  pfn : Nat
  xwr : BitVec 3
  sup : Bool
  cls : Cls
  vcid : Nat
  domain : Nat
  key : Nat
  srcs : List Nat
  deriving DecidableEq, Repr

/-- An outstanding translation request (04 R88, R89): agent 0 context, 1 copy engine, 2 tile fetch unit, 3 the launch
sequencer acting as context 0 (16 R336), 4 an access that is replayed (04 R102). `slot` is the context or channel; for agent 4,
its context and the number of its message times 16. -/
structure XReq where
  tag : Nat
  agent : Nat
  slot : Nat
  acc : Acc
  va : Addr
  sup : Bool
  refusal : Option FaultInfo
  deriving DecidableEq, Repr

/-- A unit held in an L1 data cache (06 R134, R138, R145). `writers` are the contexts whose UNTRACKED stores stand in its dirty words
(07 R159). -/
structure Copy where
  unit : Nat
  vcid : Nat
  cls : Cls
  key : Nat
  st : Dir
  data : Unit128
  stamp : BitVec 16
  dirty : BitVec 16
  writers : List Nat
  poison : Bool
  deriving DecidableEq, Repr

/-- A unit held in an L1 instruction cache (01 R438). -/
structure ICopy where
  unit : Nat
  cls : Cls
  key : Nat
  data : Unit128
  deriving DecidableEq, Repr

/-- A tile register (13 R268, R270): ST is 0 ZERO, 1 SAVED, 2 DIRTY, 3 LAZY. -/
structure Tile where
  rows : Nat
  rowb : Nat
  fmt : Nat
  st : Nat
  psn : Bool
  content : Assoc Vec
  deriving DecidableEq, Repr

/-- A queued or running matrix operation with its captured registers, and the number of its issuer's launch (13 R275, R281, R287). -/
structure MxOp where
  id : Nat
  tile : Nat
  neg : Bool
  a : Word
  b : Word
  k : Nat
  sa : BitVec 32
  sb : BitVec 32
  grp : Nat
  acc : Bool
  bar : Word
  mode : Mode
  launch : Option Nat
  issuer : Option Nat
  origin : Nat
  step : Nat
  begun : Bool
  opErr : Bool
  uncorr : Bool
  ecc : Bool
  nan : Bool
  ovf : Bool
  first : Nat
  abandoned : Bool
  deriving DecidableEq, Repr

/-- An operand unit that the tile fetch unit has read for the running step and not consumed yet: its VA / 128, its data, and the unit that
it pins, by cache and unit, if it is pinned (09 R208). -/
structure OpUnit where
  va : Nat
  data : Unit128
  pin : Option (Nat × Nat)
  deriving DecidableEq, Repr

/-- A steal round (14 R301): the victims not tried yet, the context of the popt it is for when it is not a dispatch,
whether a victim's answer is awaited, and the entry received and not claimed yet. -/
structure StealRound where
  victims : List Nat
  forCtx : Option Nat
  waiting : Bool
  got : Option Nat
  deriving DecidableEq, Repr

/-- A core. Its deque holds the hardware entries, newest first, and entries ringLo to ringHi − 1 of its spill ring, oldest first (14
R299). `takenAt` is the cycle in which an agent found an entry or none in the deque last, with its rank (14 R302), `exitSucc` the successor that a waiting exit has read, with
the instruction's `seq` and PC (14 R297); bits 0 and 1 of `mxstop` say that a halt of the issuing context, or of the core, has
interrupted the matrix operation, and bit 2 that a migration has (09 R212); `issuedAt` is the cycle in which a context issued last, for the
state log (24 R423); `mover` is the core and context whose migr moves the core, and the core that it goes to (17 R361); `scratchBad` are the poisoned 128-byte units of its scratch (17 R364),
`depAt` the cycle in which a deposit wrote a register last (10 R225), and `leases` the residency ranges that launches have passed to it as a
supervisor core, by the launch's number (04 R100). -/
structure Core where
  ctxs : Assoc Ctx
  ram : Assoc Word
  tcm : Memory
  slots : Assoc Vec
  slotOwner : Assoc Nat
  scratch : Memory
  scratchBad : List Nat
  owners : Assoc Nat
  tiles : Assoc Tile
  domain : Nat
  bsplit : Nat
  staletmo : BitVec 32
  ctmo : BitVec 32
  hmsg : BitVec 11
  grp : Assoc (BitVec 9)
  capt : Assoc (BitVec 25)
  tsavep : Word
  mxk : BitVec 17
  mxsa : BitVec 32
  mxsb : BitVec 32
  mxcfg : Word
  mxbar : Word
  mxpend : Bool
  mxstop : Nat
  mxstep : BitVec 32
  mxq : List MxOp
  mxbuf : List OpUnit
  ops : List Op
  l1tlb : List TlbEnt
  l2tlb : List TlbEnt
  xreqs : List XReq
  l1 : List Copy
  icache : List ICopy
  divider : Option Nat
  deque : List Nat
  ringLo : Nat
  ringHi : Nat
  takenAt : Option (Nat × Nat)
  origin : Option Nat
  queue : Option Nat
  task : Option Nat
  taskLid : BitVec 32
  exitSucc : Option (Nat × Addr × Addr)
  steal : Option StealRound
  idleSince : Option Nat
  migrated : Bool
  treeHalted : Bool
  moving : Bool
  mover : Option (Nat × Nat × Nat)
  tagInc : Assoc Nat
  lateReplies : Nat
  sent : Nat
  received : Nat
  hcyc : Nat
  depAt : Option Nat
  leases : List (Nat × List (Nat × Nat × Bool × Bool))
  hmcnt : Word
  bp : Assoc Word
  trace : Assoc Word
  traceAt : Nat
  traceWrap : Bool
  traceRd : Nat
  traceState : BitVec 2
  traceLast : Nat
  issuedAt : Nat
  scrubbing : Option Nat
  deriving DecidableEq, Repr

/-- One unit of a virtual cache line, with its metadata (05 R117, 04 R84). -/
structure VUnit where
  data : Unit128
  tag : Option Nat
  stamp : BitVec 16
  poison : Bool
  deriving DecidableEq, Repr

/-- The metadata of a unit in HBM (04 R84, 06 R142, 08 R176), and the key that it is encrypted under (04 R83). -/
structure UMeta where
  tag : Option Nat
  key : Option (BitVec 256)
  stamp : BitVec 16
  poison : Bool
  deriving DecidableEq, Repr

/-- A line of a virtual cache at one member (05 R115, R117). `lay` is the number of its layout: the EPOCH of the record, and of a
resize's new layout the one after it (05 R122). -/
structure VLine where
  vcid : Nat
  lay : Nat
  core : Nat
  set : Nat
  li : Nat
  units : Assoc VUnit
  dirty : Bool
  deriving DecidableEq, Repr

/-- A background operation on a cache (05 R130): 2 flush, 3 invalidate, 5 reclaim. `done` and `psn` are its progress and PSN while a
reclaim runs before it (05 R131). -/
structure VcOp where
  kind : Nat
  bar : Word
  domain : Nat
  sup : Bool
  core : Nat
  done : Nat
  psn : Bool
  deriving DecidableEq, Repr

/-- A cache definition record with its resize and operation state (05 R113, R123, R130, R131). `stay` gives the old home of a unit
that a pin holds there (05 R125). -/
structure Cdr where
  w0 : Word
  w1 : Word
  epoch : BitVec 32
  shadow : Option (Word × Word)
  progress : Nat
  bar : Option (Word × VcOp)
  ops : List VcOp
  psn : Bool
  scrubId : Option Nat
  stay : Assoc Nat
  deriving DecidableEq, Repr

/-- An ownership request for a unit that its home is serving (06 R134): for S (a prefetch, 08 R180), for E or S (a read), or for M. -/
inductive HomeReq where
  | own (core key : Nat) (want : Dir)
  deriving DecidableEq, Repr

/-- Who acts at a home: a message, a copy channel, an agent that acts in one step (its kind and number: 0 an instruction of a context, 1 an
instruction fetch, 2 a launch sequencer, 3 a tile fetch unit, 4 a cache's background work, 5 a deque or a steal, 6 a router's slot, 7 an engine's
completion), or one that leaves no trace. -/
inductive Writer where
  | msg (id : Nat)
  | chan (n : Nat)
  | agent (kind n : Nat)
  | other
  deriving DecidableEq, Repr

/-- The home's record of one unit (06 R133, 04 R94, R95, 06 R137). A sharer set lists up to four agents, and of more their
clusters' marks (State.addSharer): agents below 8192 are L1 data caches, 8192 + n is core n's instruction cache, 16384 + n its tile
fetch unit, and 24576 + n copy channel n. `queue` holds the agents that wait at the home, in arrival order, and whether each waits for the unit
alone (04 R95, 18 R369). -/
structure HomeUnit where
  dir : Dir
  sharers : List Nat
  tshare : List Nat
  host : Bool
  hostDirty : Bool
  busy : Option HomeReq
  acks : List Nat
  tacks : List Nat
  snoop : Bool
  queue : List (Writer × Bool)
  deriving DecidableEq, Repr

/-- A stamped waiter at a home (06 R150). -/
structure StWaiter where
  home : Nat
  unit : Nat
  core : Nat
  op : Nat
  remote : Option Packet
  iter : BitVec 16
  lag : Nat
  deriving DecidableEq, Repr

/-- A barrier waiter at a home (15 R318, R319). -/
structure BWaiter where
  home : Nat
  addr : Nat
  core : Nat
  ctx : Nat
  deriving DecidableEq, Repr

/-- A page's block state (04 R102). -/
inductive BlkState where
  | blocked
  | replaying
  deriving DecidableEq, Repr

/-- A page that is not OPEN: base PA, size code, its queue and replay slots by message number, and the stamped waiters among
the queue, which take no slot of the 64 (04 R102, R103). -/
structure PageBlk where
  base : Nat
  size : Nat
  st : BlkState
  queue : List Nat
  slots : List Nat
  moved : List Nat
  deriving DecidableEq, Repr

/-- A set of a RESIZING cache on one member, that waits to migrate or whose held requests are replayed at its new place (05 R123): the old
layout, the member, the set, and the messages held in order. -/
structure SetHold where
  vcid : Nat
  geo : Word × Word
  core : Nat
  set : Nat
  moving : Bool
  queue : List Nat
  deriving DecidableEq, Repr

/-- A contribution or partial of a collective (15 R320 to R330), of the launch with a number. -/
structure Contrib where
  launch : Nat
  gid : Nat
  inst : Nat
  kind : Nat
  op : Nat
  ty : Nat
  val : Vec
  count : Nat
  timedOut : Bool
  nan : Bool
  ovf : Bool
  member : Nat
  area : Nat
  areaVcid : Nat
  areaKey : Nat
  deriving DecidableEq, Repr

/-- Router inputs in combining order (15 R323). -/
inductive Input where
  | own
  | west
  | east
  | north
  | south
  | bridge
  deriving DecidableEq, Repr

/-- An open combining slot (15 R321). -/
structure RSlot where
  launch : Nat
  gid : Nat
  inst : Nat
  got : List (Input × Contrib)
  due : Option Nat
  deriving DecidableEq, Repr

/-- A combining router (15 R320 to R326, R330): open slots, early contributions, flushed instances by launch, group and
instance, the instance counter of each group slot of its own core, that core's contributions to cmaxb that await their release,
maxima kept for late ones, the areas of instances completed here as root, and straggler counts that came before it. -/
structure Router where
  slots : List RSlot
  early : List (Input × Contrib)
  flushed : List (Nat × Nat × Nat)
  counters : Assoc Nat
  areas : List Contrib
  kept : List (Nat × Nat × Nat × Vec)
  done : List Contrib
  late : List (Nat × Nat × Nat)
  deriving DecidableEq, Repr

/-- What travels on the networks. -/
inductive Pkt where
  | ownReq (unit vcid key core : Nat) (want : Dir)
  | recall (unit vcid agent : Nat) (inv : Bool)
  | invAck (unit vcid agent : Nat) (data : Option (Nat × Unit128 × Bool))
  | grant (unit vcid key core : Nat) (st : Dir) (data : Unit128) (poison : Bool)
  | copyTurn (chan unit va : Nat)
  | turn (w : Writer) (unit : Nat)
  | hostAcc (addr n : Nat) (data : Option Unit128)
  | tinv (unit vcid core : Nat) (removed : Bool)
  | tinvAck (unit vcid core : Nat)
  | bisnp (unit vcid : Nat) (inv : Bool)
  | stStore (core op u : Nat)
  | stRead (core op u : Nat)
  | writeBack (core : Nat) (ctxs : List Nat) (unit vcid key : Nat) (words : BitVec 16) (data : Unit128) (poison : Bool)
  | hostStore (core op ix : Nat)
  | pktOut (p : Packet) (sentAt port : Nat)
  | pktIn (p : Packet)
  | msg (dst : Nat) (ctx : Option Nat) (pc : Addr) (payload : Vec) (src : BitVec 17) (domain : Nat) (sup : Bool)
  | deposit (dst ctx j : Nat) (v : Word) (srcCore srcCtx : Nat)
  | depAnswer (dst ctx : Nat) (ok : Bool)
  | steal (victim thief : Nat)
  | stealReply (thief : Nat) (entry : Option Nat)
  | contrib (pos : Nat) (inp : Input) (c : Contrib)
  | late (root launch gid inst : Nat)
  | cmaxRelease (member launch gid inst : Nat) (val : Vec)
  | bwaitAns (dst ctx : Nat)
  | mmar (dst : Nat) (op : MxOp) (tag : BitVec 16) (groups : List (BitVec 8))
  deriving DecidableEq, Repr

/-- Where a message stands: on its way, refused and waiting to be sent again, queued at a blocked page or a migrating set, returned to
its requester as a replay, or being served by its home from a replay slot that it still holds (04 R102, R103, 05 R123). -/
inductive Hold where
  | flying
  | refused
  | queued
  | replay
  | served
  deriving DecidableEq, Repr

/-- A message in flight. -/
structure Flight where
  id : Nat
  hold : Hold
  pkt : Pkt
  deriving DecidableEq, Repr

/-- A copy command block (09 R195), as eight doublewords. -/
abbrev CopyBlock := List Word

/-- What a copy still has to write of a destination unit that it does not own, a STAMPED or an UNTRACKED one: the words left of those
that its mask of bytes touches (06 R139), with the sources of the translation it was made through (04 R96). -/
structure Beat where
  va : Nat
  cls : Cls
  vcid : Nat
  key : Nat
  pa : Nat
  words : BitVec 16
  mask : BitVec 128
  data : Unit128
  srcs : List Nat
  deriving DecidableEq, Repr

/-- A copy engine channel (09 R194, R200 to R206): the destination units written so far by VA / 128, those that it owns (06 R135),
and what of its UNTRACKED units is still to be written. -/
structure Channel where
  busy : Bool
  blk : CopyBlock
  core : Nat
  domain : Nat
  queue : Option Nat
  mode : Mode
  written : List Nat
  units : Nat
  own : List (Nat × Nat)
  beats : List Beat
  lfsr : BitVec 32
  malf : Bool
  fail : Option Nat
  cancel : Bool
  nan : Bool
  sat : Bool
  last : BitVec 16
  lastDomain : Nat
  deriving DecidableEq, Repr

/-- States of a launch (16 R342). -/
inductive LaunchState where
  | queued
  | eligible
  | preparing
  | running
  | completing
  deriving DecidableEq, Repr

/-- A launch read from a ring (16 R336 to R343): `serial` tells it from every other launch; `answered` is the answer of its dependence
object, with its ABORT (16 R338); `ranges` its residency ranges as pages, with WOK and XOK (04 R99), `pinned` while they are pinned;
`step` the steps of preparation that are over (16 R341), `written` and `pushed` its initial records written and pushed. -/
structure Launch where
  serial : Nat
  words : List Word
  st : LaunchState
  answered : Option Bool
  eligibleAt : Nat
  abort : Bool
  n : Nat
  count : Nat
  fail : Bool
  cause : Nat
  activated : List Nat
  ranges : List (Nat × Nat × Bool × Bool)
  pinned : Bool
  groups : List (List Word)
  step : Nat
  stage : Nat
  written : Nat
  pushed : Nat
  drained : Bool
  killed : Bool
  retiring : List Nat
  deriving DecidableEq, Repr

/-- A work queue descriptor (16 R333). `head` counts the entries read without end (16 R334); HEAD is its low 32 bits. -/
structure Queue where
  w0 : Word
  w1 : Word
  head : Nat
  tail : BitVec 32
  mask0 : Word
  mask1 : Word
  launch : Option Launch
  deriving DecidableEq, Repr

/-- A forwarding entry (17 R363). -/
structure Fwd where
  old : Nat
  new : Nat
  queue : Nat
  deriving DecidableEq, Repr

/-- An unanswered fabric request (17 R365, 08 R192). -/
structure FabReq where
  core : Nat
  tag : Nat
  inc : Nat
  op : Nat
  group : Nat
  ctx : Nat
  write : Bool
  bar : Option (Nat × Nat × Nat)
  sentAt : Nat
  dev : Nat
  deriving DecidableEq, Repr

/-- A fabric port (18 R379, R380): packets not in a closed tag group yet, the flits of the first that are in closed groups, the group
counter, closed groups that may be sent again with the packets that begin in them, and the failures in a row of each group. -/
structure Port where
  tx : List Packet
  counter : Nat
  replay : List (Nat × List Packet)
  part : Nat
  fails : Assoc Nat
  adaptiveOff : Bool
  deriving DecidableEq, Repr

/-- Device status, identity and fabric registers (24 R413 to R418, 18 R366 to R381). -/
structure Dev where
  ready : Bool
  stage : Nat
  bootErr : Nat
  stopped : Bool
  hot : BitVec 8
  pwrthr : Bool
  attDone : Bool
  svc : Nat
  plim : Nat
  dbgen : BitVec 3
  rate : Nat
  bootAddr : Word
  bootLen : Word
  image : List Byte
  attNonce : Memory
  report : Memory
  hostcfg : Word
  fabcfg : Word
  exports : Assoc (Word × Word)
  rejh : BitVec 32
  rejf : BitVec 32
  keyBlock : Memory
  jobKey : Option (BitVec 256)
  keyDraws : Nat
  keys : Assoc (BitVec 256)
  deriving DecidableEq, Repr

/-- A cluster debug module (24 R419 to R421). -/
structure Dbg where
  bken : Bool
  tren : Bool
  xten : Bool
  frozen : Bool
  recorded : Bool
  cause : Nat
  core : Nat
  sel : Nat
  cecnt : Nat
  deriving DecidableEq, Repr

/-- A share scrub in progress and the operation that waits for it (05 R108, R109). -/
inductive ScrubFor where
  | domain (core : Nat) (v : Nat) (ctx : Option Nat)
  | bsplit (core old new : Nat) (ctx : Option Nat)
  | activate (vcid : Nat) (core : Nat) (ctx : Option Nat)
  deriving DecidableEq, Repr

/-- What the host or the fabric receives from the module. -/
inductive HostOut where
  | memRead (addr n : Nat) (data : Unit128) (poison : Bool)
  | ctrlRead (off : Nat) (v : Word)
  | trace (v : Word)
  | retransmit (port : Nat)
  deriving DecidableEq, Repr

/-- Where an error that SECDED detects strikes (17 R364): a unit at its home, a unit of bank scratch, an L1 copy, a tile (13 R272), the operands of the running
matrix operation (13 R284), a register that an instruction reads at issue, with the source code of 17 R353, or, corrected, anywhere at a core or in one of its
tiles. -/
inductive EccSite where
  | home (vcid u : Nat)
  | scratch (core u : Nat)
  | l1 (core u : Nat)
  | tile (core t : Nat)
  | operand (core : Nat)
  | register (core ctx source : Nat)
  | corrected (core : Nat) (tile : Option Nat)
  deriving DecidableEq, Repr

/-- Which agent moves next, after how many cycles (assumption 3, DESIGN CHOICE, unsafe): a context issues (and fetches `ahead` further words), or
an event of the table happens, an error strikes, the host reads a register of device control space (18 R366) or writes one that a
migration has held (17 R363), an access of the host to main memory that waits is tried again (18 R369), a fabric manager writes an entry of the routing table (18 R372), a
migration goes on (17 R361), or a step of bring-up ends, and succeeds or not (24 R414). -/
inductive Turn where
  | issue (core ctx ahead elapsed : Nat)
  | event (i : Instr) (elapsed : Nat)
  | ecc (e : EccSite) (elapsed : Nat)
  | hostRead (off elapsed : Nat)
  | hostMem (id elapsed : Nat)
  | route (dev port elapsed : Nat)
  | migr (core elapsed : Nat)
  | boot (ok : Bool) (elapsed : Nat)
  | hostWrite (off : Nat) (v : Word) (elapsed : Nat)
  deriving DecidableEq, Repr

/-- The module. `tables` are the combining tables of launches, as the members of each group (15 R320), and `cancelled` the flags words that
tcancel has acted on, with the cycle (14 R303). `routes` are the entries of the routing table that a fabric manager has written, the port
towards a device (18 R372). -/
structure State where
  clock : Nat
  agenda : List Turn
  curCore : Nat
  curCtx : Nat
  nextId : Nat
  cores : Assoc Core
  hbm : Memory
  umeta : Assoc UMeta
  hostMem : Memory
  cdrs : Assoc Cdr
  vlines : List VLine
  homes : Assoc HomeUnit
  stWaiters : List StWaiter
  bWaiters : List BWaiter
  pages : List PageBlk
  setHolds : List SetHold
  net : List Flight
  channels : Assoc Channel
  queues : Assoc Queue
  routers : Assoc Router
  fwds : List Fwd
  fabReqs : List FabReq
  ports : Assoc Port
  routes : Assoc Nat
  dev : Dev
  dbg : Assoc Dbg
  scrubs : Assoc ScrubFor
  tables : Assoc (List (List Nat))
  cancelled : List (Nat × Nat)
  hostOut : List HostOut
  deriving DecidableEq, Repr

/-- A context after reset; `c` is its number (10 R214, R215, 14 R289). -/
def Ctx.reset (c : Nat) : Ctx where
  st := .dormant
  wait := .none
  mode := .user
  pc := 0
  globs := []
  vecs := []
  masks := []
  iter := 0
  age := 0
  wpend := 0
  low := BitVec.ofNat 12 (368 * c)
  base := BitVec.ofNat 12 (368 * c)
  rslo := BitVec.ofNat 12 (368 * c)
  rshi := BitVec.ofNat 13 (368 * c + 368)
  spillp := 0
  tvec := 0
  inh := false
  epc := 0
  ecause := 0
  einfo := 0
  repst := 0
  rmode := 0
  lfsr := 1
  lfsrSet := 0
  depen := 0
  msrc := 0
  mslot := 0
  mseen := false
  mpend := false
  ptrap := none
  msgStarted := false
  msgSlot := none
  exitVal := 0
  creator := none
  rep := none
  fetched := []
  seq := 0
  gonged := none
  ranged := false
  stepOver := false
  fenceErr := none
  engWait := []
  engWords := false
  kept := none

/-- A tile after reset: unconfigured, ZERO (13 R268). -/
def Tile.reset : Tile := { rows := 0, rowb := 0, fmt := 0, st := 0, psn := false, content := [] }

/-- A core after reset. -/
def Core.reset : Core where
  ctxs := []
  ram := []
  tcm := []
  slots := []
  slotOwner := []
  scratch := []
  scratchBad := []
  owners := []
  tiles := []
  domain := 0
  bsplit := 0
  staletmo := 0x01000000
  ctmo := 0x00100000
  hmsg := 0
  grp := []
  capt := []
  tsavep := 0
  mxk := 0
  mxsa := 0
  mxsb := 0
  mxcfg := 0
  mxbar := 0
  mxpend := false
  mxstop := 0
  mxstep := 0
  mxq := []
  mxbuf := []
  ops := []
  l1tlb := []
  l2tlb := []
  xreqs := []
  l1 := []
  icache := []
  divider := none
  deque := []
  ringLo := 0
  ringHi := 0
  takenAt := none
  origin := none
  queue := none
  task := none
  taskLid := 0
  exitSucc := none
  steal := none
  idleSince := none
  migrated := false
  treeHalted := false
  moving := false
  mover := none
  tagInc := []
  lateReplies := 0
  sent := 0
  received := 0
  hcyc := 0
  depAt := none
  leases := []
  hmcnt := 0
  bp := []
  trace := []
  traceAt := 0
  traceWrap := false
  traceRd := 0
  traceState := 3
  traceLast := 0
  issuedAt := 0
  scrubbing := none

/-- A cache definition record at bring-up: every record is zero (05 R113). -/
def Cdr.reset : Cdr :=
  { w0 := 0, w1 := 0, epoch := 0, shadow := none, progress := 0, bar := none, ops := [], psn := false,
    scrubId := none, stay := [] }

/-- A unit at its home before any request. -/
def HomeUnit.reset : HomeUnit :=
  { dir := .i, sharers := [], tshare := [], host := false, hostDirty := false, busy := none, acks := [], tacks := [], snoop := false,
    queue := [] }

/-- HBM metadata as bring-up leaves it: tag invalid, stamp 0, poison clear (24 R414). -/
def UMeta.reset : UMeta := { tag := none, key := none, stamp := 0, poison := false }

/-- An idle channel. -/
def Channel.reset : Channel :=
  { busy := false, blk := [], core := 0, domain := 0, queue := none, mode := .user, written := [], units := 0, own := [], beats := [],
    lfsr := 1, malf := false, fail := none, cancel := false, nan := false, sat := false, last := 0, lastDomain := 0 }

/-- A work queue at reset: DISABLED (16 R333). -/
def Queue.reset : Queue := { w0 := 0, w1 := 0, head := 0, tail := 0, mask0 := 0, mask1 := 0, launch := none }

/-- A combining router with no slot open. -/
def Router.reset : Router :=
  { slots := [], early := [], flushed := [], counters := [], areas := [], kept := [], done := [], late := [] }

/-- A fabric port with nothing sent. -/
def Port.reset : Port := { tx := [], counter := 0, replay := [], part := 0, fails := [], adaptiveOff := false }

/-- A debug module at reset. -/
def Dbg.reset : Dbg :=
  { bken := false, tren := false, xten := false, frozen := false, recorded := false, cause := 0, core := 0, sel := 0,
    cecnt := 0 }

/-- Device registers at reset (24 R413, 18 R367, R373). -/
def Dev.reset : Dev where
  ready := false
  stage := 0
  bootErr := 0
  stopped := false
  hot := 0
  pwrthr := false
  attDone := false
  svc := 0
  plim := 0
  dbgen := 0
  rate := 16
  bootAddr := 0
  bootLen := 0
  image := []
  attNonce := []
  report := []
  hostcfg := 0
  fabcfg := 0
  exports := []
  rejh := 0
  rejf := 0
  keyBlock := []
  jobKey := none
  keyDraws := 0
  keys := []

/-- The module right after reset: STAGE 0, every context DORMANT, memory with nothing listed. -/
def State.reset : State where
  clock := 0
  agenda := []
  curCore := 255
  curCtx := 0
  nextId := 0
  cores := []
  hbm := []
  umeta := []
  hostMem := []
  cdrs := []
  vlines := []
  homes := []
  stWaiters := []
  bWaiters := []
  pages := []
  setHolds := []
  net := []
  channels := []
  queues := []
  routers := []
  fwds := []
  fabReqs := []
  ports := []
  routes := []
  dev := Dev.reset
  dbg := []
  scrubs := []
  tables := []
  cancelled := []
  hostOut := []

end Sys2Proof.Machine
end

