-- ==== Sys2Proof/Machine/Table.lean ====
section
/-! DEFINITION. Sparse tables and byte storage: the reads and writes that every other layer goes through. A table keeps
its keys rising; byte storage keeps its addresses rising and lists no zero byte (assumption 2, DESIGN CHOICE, unsafe), so equal contents are
equal data. -/

namespace Sys2Proof.Machine

/-- The entry of a key. -/
def tget? {α : Type} : List (Nat × α) → Nat → Option α
  | [], _ => none
  | (k, v) :: l, a => if a = k then some v else tget? l a

/-- The entry of a key, or the table's reset value. -/
def tget {α : Type} (l : List (Nat × α)) (a : Nat) (d : α) : α := (tget? l a).getD d

/-- Sets the entry of a key. -/
def tset {α : Type} : List (Nat × α) → Nat → α → List (Nat × α)
  | [], a, v => [(a, v)]
  | (k, w) :: l, a, v => if a = k then (k, v) :: l else if a < k then (a, v) :: (k, w) :: l else (k, w) :: tset l a v

/-- Removes the entry of a key. -/
def tdel {α : Type} : List (Nat × α) → Nat → List (Nat × α)
  | [], _ => []
  | (k, w) :: l, a => if a = k then tdel l a else (k, w) :: tdel l a

/-- Sets the entry of a key to a 64-bit word, dropping the entry of a zero word. -/
def wset (l : List (Nat × Word)) (a : Nat) (v : Word) : List (Nat × Word) := if v = 0 then tdel l a else tset l a v

/-- What a byte that storage does not list reads as (24 R414 step 4; assumption 2, DESIGN CHOICE, unsafe). -/
def unlistedByte : Byte := 0

/-- One byte of storage. -/
def Memory.byte (m : Memory) (a : Nat) : Byte := tget m a unlistedByte

/-- Writes one byte of storage, keeping the canonical form. -/
def Memory.setByte (m : Memory) (a : Nat) (b : Byte) : Memory := if b = unlistedByte then tdel m a else tset m a b

/-- The n bytes at an address as a little-endian number (00 R4). -/
def Memory.read (m : Memory) (a : Nat) : Nat → Nat
  | 0 => 0
  | n + 1 => (m.byte a).toNat + 256 * Memory.read m (a + 1) n

/-- Writes the low n bytes of a number, little-endian (00 R4). -/
def Memory.write (m : Memory) (a : Nat) (v : Nat) : Nat → Memory
  | 0 => m
  | n + 1 => Memory.write (m.setByte a (BitVec.ofNat 8 v)) (a + 1) (v / 256) n

/-- Storage of a list of bytes from address 0. -/
def Memory.ofBytes (l : List Byte) : Memory := l.zipIdx.foldl (fun (m : Memory) (p : Byte × Nat) => m.setByte p.2 p.1) []

/-- The canonical form of storage: rising addresses, no byte listed that an unlisted address reads as. -/
def Memory.wfFrom : Nat → Memory → Bool
  | _, [] => true
  | lo, (k, b) :: l => decide (lo ≤ k) && b != unlistedByte && Memory.wfFrom (k + 1) l

/-- The canonical form of storage. -/
def Memory.wf (m : Memory) : Bool := Memory.wfFrom 0 m

/-- Bits [hi:lo] of a number, as the low bits of a number. -/
def bitsOf (x lo n : Nat) : Nat := (x >>> lo) % 2 ^ n

/-- Sets n bits of a number at lo. -/
def setBits (x lo n v : Nat) : Nat := x - (bitsOf x lo n <<< lo) + ((v % 2 ^ n) <<< lo)

/-- n lanes of w bits each, lane 0 lowest. -/
def packLanes (w : Nat) (f : Nat → Nat) : Nat → Nat
  | 0 => 0
  | n + 1 => packLanes w f n + ((f n % 2 ^ w) <<< (w * n))

/-- Two's complement value of the low n bits. -/
def signedOf (n x : Nat) : Int := (BitVec.ofNat n x).toInt

/-- Removes the first element that satisfies a test. -/
def dropFirst {α : Type} (p : α → Bool) : List α → List α
  | [] => []
  | x :: l => if p x then l else x :: dropFirst p l

/-- Maps every element that satisfies a test. -/
def mapIf {α : Type} (p : α → Bool) (f : α → α) (l : List α) : List α := l.map fun x => if p x then f x else x

/-- Adds an element to a list without repeats. -/
def addOnce (l : List Nat) (a : Nat) : List Nat := if l.contains a then l else l ++ [a]

end Sys2Proof.Machine
end

