-- ==== Sys2Proof/Machine/Float.lean ====
section
/-! DEFINITION. The number formats of 02: exact values, rounding (R52 to R56), block scales, the MX layouts and EC8
(R41 to R50), and the exact arithmetic that the vector and matrix units round (R57 to R61). -/

namespace Sys2Proof.Machine

/-- How a format codes special values (R36): IEEE infinities and NaNs; E4M3, whose only NaN is S.1111.111; none. -/
inductive Special where
  | ieee
  | e4m3
  | plain
  deriving DecidableEq, Repr

/-- A floating-point format (R36). -/
structure FFmt where
  ebits : Nat
  mbits : Nat
  bias : Nat
  special : Special
  deriving DecidableEq, Repr

def fp32 : FFmt := ⟨8, 23, 127, .ieee⟩
def fp16 : FFmt := ⟨5, 10, 15, .ieee⟩
def bf16 : FFmt := ⟨8, 7, 127, .ieee⟩
def e5m2 : FFmt := ⟨5, 2, 15, .ieee⟩
def e4m3 : FFmt := ⟨4, 3, 7, .e4m3⟩
def e3m2 : FFmt := ⟨3, 2, 3, .plain⟩
def e2m3 : FFmt := ⟨2, 3, 1, .plain⟩
def e2m1 : FFmt := ⟨2, 1, 1, .plain⟩

/-- Width of a format's codes. -/
def FFmt.width (f : FFmt) : Nat := 1 + f.ebits + f.mbits

/-- The magnitude bits of the largest finite code (R38). -/
def FFmt.maxCode (f : FFmt) : Nat :=
  match f.special with
  | .ieee => ((2 ^ f.ebits - 1) <<< f.mbits) - 1
  | .e4m3 => 2 ^ (f.ebits + f.mbits) - 2
  | .plain => 2 ^ (f.ebits + f.mbits) - 1

/-- The canonical NaN (R39); a format without NaNs has none and gives zero. -/
def FFmt.nan (f : FFmt) : Nat :=
  match f.special with
  | .ieee => (2 ^ (f.ebits + 1) - 1) <<< (f.mbits - 1)
  | .e4m3 => 2 ^ (f.ebits + f.mbits) - 1
  | .plain => 0

/-- An exact value: NaN, a signed infinity, or ±m·2^e. -/
inductive FVal where
  | nan
  | inf (neg : Bool)
  | fin (neg : Bool) (m : Nat) (e : Int)
  deriving DecidableEq, Repr

def FVal.zero : FVal := .fin false 0 0

/-- The value of a code (R37). -/
def FFmt.decode (f : FFmt) (c : Nat) : FVal :=
  let m := bitsOf c 0 f.mbits
  let e := bitsOf c f.mbits f.ebits
  let s := c.testBit (f.ebits + f.mbits)
  let top := 2 ^ f.ebits - 1
  let num := if e = 0 then FVal.fin s m (1 - (f.bias : Int) - f.mbits)
    else FVal.fin s (2 ^ f.mbits + m) ((e : Int) - f.bias - f.mbits)
  match f.special with
  | .ieee => if e = top then (if m = 0 then .inf s else .nan) else num
  | .e4m3 => if e = top ∧ m = 2 ^ f.mbits - 1 then .nan else num
  | .plain => num

/-- Rounding modes (R52, R53); SR carries the LFSR state it compares with (R54). -/
inductive Rm where
  | rne
  | rtz
  | rdn
  | rup
  | sr (l : Nat)
  deriving DecidableEq, Repr

/-- A mode outside conversions: SR acts as RNE (R53). -/
def Rm.arith (r : Rm) : Rm :=
  match r with
  | .sr _ => .rne
  | r => r

/-- RMODE.MODE with the LFSR state. -/
def Rm.ofMode (mode : Nat) (l : Nat) : Rm :=
  match mode with
  | 0 => .rne
  | 1 => .rtz
  | 2 => .rdn
  | 3 => .rup
  | _ => .sr l

/-- Length in bits. -/
def bitLen (m : Nat) : Nat := if m = 0 then 0 else Nat.log2 m + 1

/-- The integer that a magnitude of m·2^-k (with a further fraction below when `sticky`) rounds to (R53, R54). -/
def roundShift (r : Rm) (neg : Bool) (m k : Nat) (sticky : Bool) : Nat :=
  let base := m >>> k
  let d := m % 2 ^ k
  let exact := d = 0 ∧ !sticky
  let up : Bool := match r with
    | .rne => decide (2 ^ k < 2 * d) || (decide (2 ^ k = 2 * d) && (sticky || base % 2 == 1))
    | .rtz => false
    | .rdn => neg && !decide exact
    | .rup => !neg && !decide exact
    | .sr l => if k ≤ 32 then decide (l >>> (32 - k) < d)
      else decide (l < d >>> (k - 32)) || (decide (l = d >>> (k - 32)) && decide (d % 2 ^ (k - 32) ≠ 0))
  if k = 0 ∧ sticky then
    -- half of the last place is not held: only the directed modes can raise it
    match r with
    | .rdn => if neg then base + 1 else base
    | .rup => if neg then base else base + 1
    | _ => base
  else base + up.toNat

/-- The integer that m·2^e rounds to. -/
def roundInt (r : Rm) (neg : Bool) (m : Nat) (e : Int) : Nat :=
  if 0 ≤ e then m <<< e.toNat else roundShift r neg m (-e).toNat false

/-- What a finite result beyond the largest finite value becomes (R56). -/
inductive Over where
  | ieee
  | saturate
  deriving DecidableEq, Repr

/-- Puts a sign on a magnitude. -/
def FFmt.signed (f : FFmt) (neg : Bool) (mag : Nat) : Nat := if neg then 2 ^ (f.ebits + f.mbits) + mag else mag

/-- The code of an infinity: E5M2 and the IEEE formats keep it, E4M3 and the MX elements take the largest (R56). -/
def FFmt.infCode (f : FFmt) (neg : Bool) : Nat :=
  f.signed neg (match f.special with
    | .ieee => (2 ^ f.ebits - 1) <<< f.mbits
    | _ => f.maxCode)

/-- Rounds ±m·2^e (plus a fraction below m's last place when `sticky`) to a format; the flag says that it overflowed
(R53, R56). -/
def FFmt.round (f : FFmt) (o : Over) (r : Rm) (neg : Bool) (m : Nat) (e : Int) (sticky : Bool) : Nat × Bool :=
  if m = 0 then (f.signed neg 0, false) else
  let emin : Int := 1 - (f.bias : Int)
  let top : Int := e + (bitLen m : Int) - 1
  let q : Int := max top emin - f.mbits
  let n : Nat := if q ≤ e ∧ !sticky then m <<< (e - q).toNat
    else if q ≤ e then roundShift r neg (m <<< (e - q).toNat) 0 sticky
    else roundShift r neg m (q - e).toNat sticky
  let mag : Nat := (((q + f.mbits + f.bias - 1) * (2 ^ f.mbits : Nat)).toNat) + n
  if mag ≤ f.maxCode then (f.signed neg mag, false) else
  let toInf : Bool := match o, r with
    | .saturate, _ => false
    | .ieee, .rtz => false
    | .ieee, .rdn => neg
    | .ieee, .rup => !neg
    | .ieee, _ => true
  (if toInf then f.infCode neg else f.signed neg f.maxCode, true)

/-- Rounds an exact value to a format. -/
def FFmt.encode (f : FFmt) (o : Over) (r : Rm) (v : FVal) : Nat :=
  match v with
  | .nan => f.nan
  | .inf s => f.infCode s
  | .fin s m e => (f.round o r s m e false).1

/-- Exact sum; the sign of an exact zero follows IEEE 754 (R37): minus only when both are minus zeros, or under RDN when
opposite signs cancel. -/
def FVal.add (r : Rm) (x y : FVal) : FVal :=
  match x, y with
  | .nan, _ => .nan
  | _, .nan => .nan
  | .inf s, .inf t => if s = t then .inf s else .nan
  | .inf s, _ => .inf s
  | _, .inf t => .inf t
  | .fin s m e, .fin t n g =>
    let q := min e g
    let a : Int := (m <<< (e - q).toNat : Nat)
    let b : Int := (n <<< (g - q).toNat : Nat)
    let v := (if s then -a else a) + (if t then -b else b)
    if v = 0 then .fin (if s = t then s else decide (r = .rdn)) 0 0
    else .fin (decide (v < 0)) v.natAbs q

/-- Changes the sign. -/
def FVal.neg (x : FVal) : FVal :=
  match x with
  | .nan => .nan
  | .inf s => .inf (!s)
  | .fin s m e => .fin (!s) m e

/-- Magnitude. -/
def FVal.abs (x : FVal) : FVal :=
  match x with
  | .nan => .nan
  | .inf _ => .inf false
  | .fin _ m e => .fin false m e

/-- Exact product (infinity times zero is NaN, R61). -/
def FVal.mul (x y : FVal) : FVal :=
  match x, y with
  | .nan, _ => .nan
  | _, .nan => .nan
  | .inf s, .inf t => .inf (s != t)
  | .inf s, .fin t m _ => if m = 0 then .nan else .inf (s != t)
  | .fin t m _, .inf s => if m = 0 then .nan else .inf (s != t)
  | .fin s m e, .fin t n g => .fin (s != t) (m * n) (e + g)

/-- Times a power of two. -/
def FVal.scale (x : FVal) (k : Int) : FVal :=
  match x with
  | .fin s m e => .fin s m (e + k)
  | x => x

/-- Exact comparison x < y; false when either is NaN; both zeros are equal. -/
def FVal.lt (x y : FVal) : Bool :=
  match x, y with
  | .nan, _ => false
  | _, .nan => false
  | .inf s, .inf t => s && !t
  | .inf s, _ => s
  | _, .inf t => !t
  | .fin s m e, .fin t n g =>
    let q := min e g
    let a : Int := (m <<< (e - q).toNat : Nat)
    let b : Int := (n <<< (g - q).toNat : Nat)
    decide ((if s then -a else a) < (if t then -b else b))

/-- Exact equality of values; false when either is NaN. -/
def FVal.eq (x y : FVal) : Bool :=
  match x, y with
  | .nan, _ => false
  | _, .nan => false
  | x, y => !x.lt y && !y.lt x

def FVal.isNan (x : FVal) : Bool := match x with | .nan => true | _ => false
def FVal.isInf (x : FVal) : Bool := match x with | .inf _ => true | _ => false
def FVal.isZero (x : FVal) : Bool := match x with | .fin _ 0 _ => true | _ => false
def FVal.sign (x : FVal) : Bool := match x with | .nan => false | .inf s => s | .fin s _ _ => s

/-- An integer as a value. -/
def FVal.ofInt (x : Int) : FVal := .fin (decide (x < 0)) x.natAbs 0

/-- Conversion to an integer range: rounds the magnitude, takes the nearest end, NaN gives 0 (R54, R56). -/
def FVal.toIntRange (lo hi : Int) (r : Rm) (x : FVal) : Int :=
  match x with
  | .nan => 0
  | .inf s => if s then lo else hi
  | .fin s m e =>
    let n : Int := roundInt r s m e
    max lo (min hi (if s then -n else n))

/-- One step of the LFSR (R55). -/
def lfsrNext (l : BitVec 32) : BitVec 32 :=
  let t := l >>> 1
  if l.getLsbD 0 then t ^^^ 0x80200003 else t

/-- A write of the LFSR state: zero stores 1 (R55). -/
def lfsrStore (v : BitVec 32) : BitVec 32 := if v = 0 then 1 else v

/-- Integer square root, bit by bit from bit n. -/
def isqrtFrom (x : Nat) : Nat → Nat → Nat
  | 0, r => if (r + 1) * (r + 1) ≤ x then r + 1 else r
  | n + 1, r => isqrtFrom x n (let t := r + 2 ^ (n + 1); if t * t ≤ x then t else r)

/-- Integer square root. -/
def isqrt (x : Nat) : Nat := isqrtFrom x (bitLen x / 2) 0

/-- Reciprocal, rounded once (12 R252). -/
def FFmt.rcp (f : FFmt) (r : Rm) (x : FVal) : Nat :=
  match x with
  | .nan => f.nan
  | .inf s => f.signed s 0
  | .fin s 0 _ => f.infCode s
  | .fin s m e =>
    let k := bitLen m + 64
    let q := 2 ^ k / m
    (f.round .ieee r s q (-(k : Int) - e) (decide (2 ^ k % m ≠ 0))).1

/-- Reciprocal square root, rounded once (12 R252). -/
def FFmt.rsqrt (f : FFmt) (r : Rm) (x : FVal) : Nat :=
  match x with
  | .nan => f.nan
  | .inf s => if s then f.nan else 0
  | .fin s 0 _ => f.infCode s
  | .fin true _ _ => f.nan
  | .fin false m e =>
    let (m, e) := if e % 2 = 0 then (m, e) else (2 * m, e - 1)
    let k := bitLen m + 64
    let a := 2 ^ (2 * k) / m
    let q := isqrt a
    (f.round .ieee r false q (-(k : Int) - e / 2) (decide (2 ^ (2 * k) % m ≠ 0 ∨ q * q ≠ a))).1

/-- Fixed-point product of the roots 2^(2^-i) over the fraction bits of x, most significant first: `c` is 2^(2^-i) at
192 bits. -/
def exp2Loop : Nat → Nat → Nat → Nat → Nat
  | 0, _, _, acc => acc
  | n + 1, c, frac, acc =>
    let c := isqrt (c <<< 192)
    let b := frac >>> 127
    exp2Loop n c ((frac <<< 1) % 2 ^ 128) (if b = 1 then (acc * c) >>> 192 else acc)

/-- 2^x rounded once (12 R252): 128 fraction bits of x by fixed-point products at 192 bits; a non-integer x has an
irrational result, so the sticky flag is set (assumption 5, DEDUCED, unsafe). -/
def FFmt.exp2 (f : FFmt) (r : Rm) (x : FVal) : Nat :=
  match x with
  | .nan => f.nan
  | .inf s => if s then 0 else f.infCode false
  | .fin _ 0 _ => (f.round .ieee r false 1 0 false).1
  | .fin s m e =>
    if e + (bitLen m : Int) > 20 then
      -- beyond every format's range
      if s then (f.round .ieee r false 1 (-1048576) false).1 else (f.round .ieee r false 1 1048576 false).1
    else
    -- x = n + frac / 2^128, with what lies below 2^-128 kept as a sticky bit
    let scaled : Int := if 0 ≤ e + 128 then ((m <<< (e + 128).toNat : Nat) : Int) else ((m >>> (-(e + 128)).toNat : Nat) : Int)
    let lost : Bool := decide (e + 128 < 0) && decide (m % 2 ^ (-(e + 128)).toNat ≠ 0)
    let v : Int := if s then -scaled - (if lost then 1 else 0) else scaled
    let n : Int := v / (2 ^ 128 : Nat)
    let frac : Nat := (v % (2 ^ 128 : Nat)).toNat
    if frac = 0 ∧ !lost then (f.round .ieee r false 1 n false).1
    else
      let p := exp2Loop 128 (2 <<< 192) frac (1 <<< 192)
      (f.round .ieee r false p (n - 192) true).1

/-! ### Format codes of the fat pointer (R51) -/

/-- Floating formats by code: FP16, BF16, FP32, E4M3, E5M2. -/
def floatCode (c : Nat) : Option FFmt :=
  match c with
  | 6 => some fp16
  | 7 => some bf16
  | 8 => some fp32
  | 9 => some e4m3
  | 10 => some e5m2
  | _ => none

/-- Integer formats by code: width and signedness. -/
def intCode (c : Nat) : Option (Nat × Bool) :=
  match c with
  | 1 => some (8, true)
  | 2 => some (8, false)
  | 3 => some (16, true)
  | 4 => some (32, true)
  | 5 => some (64, true)
  | _ => none

/-- Element width of an unblocked code. -/
def codeWidth (c : Nat) : Nat :=
  match c with
  | 1 => 8
  | 2 => 8
  | 3 => 16
  | 4 => 32
  | 5 => 64
  | 6 => 16
  | 7 => 16
  | 8 => 32
  | 9 => 8
  | 10 => 8
  | _ => 0

/-- The value of an element of an unblocked format. -/
def codeValue (c x : Nat) : FVal :=
  match floatCode c, intCode c with
  | some f, _ => f.decode x
  | none, some (n, true) => .ofInt (signedOf n x)
  | none, some (n, false) => .ofInt (x % 2 ^ n)
  | none, none => .zero

/-- Range of an integer format. -/
def intRange (n : Nat) (signed : Bool) : Int × Int :=
  if signed then (-(2 ^ (n - 1) : Nat), (2 ^ (n - 1) : Nat) - 1) else (0, (2 ^ n : Nat) - 1)

/-- How a format code treats values beyond range (R56): FP32, FP16 and BF16 as IEEE 754, E5M2 and E4M3 saturate. -/
def codeOver (c : Nat) : Over := if c = 6 ∨ c = 7 ∨ c = 8 then .ieee else .saturate

/-- Converts a value to an element of an unblocked format (R56). -/
def codeEncode (c : Nat) (r : Rm) (v : FVal) : Nat :=
  match floatCode c, intCode c with
  | some f, _ => f.encode (codeOver c) r v
  | none, some (n, sg) =>
    let (lo, hi) := intRange n sg
    ((v.toIntRange lo hi r) % (2 ^ n : Nat)).toNat
  | none, none => 0

/-! ### Blocked formats (R41 to R50) -/

/-- Element format of an MX code; code 16 (EC8) has E4M3 elements. -/
def mxFmt (c : Nat) : Option FFmt :=
  match c with
  | 11 => some e4m3
  | 12 => some e5m2
  | 13 => some e3m2
  | 14 => some e2m3
  | 15 => some e2m1
  | 16 => some e4m3
  | _ => none

/-- Element bits of a blocked code in storage. -/
def mxBits (c : Nat) : Nat :=
  match c with
  | 13 => 6
  | 14 => 6
  | 15 => 4
  | _ => 8

/-- Exponent of the largest finite element (R38). -/
def mxEmax (c : Nat) : Int :=
  match c with
  | 11 => 8
  | 12 => 15
  | 13 => 4
  | 14 => 2
  | 15 => 2
  | 16 => 8
  | _ => 0

/-- Bytes of a superblock, or of an EC8 slot (R42, R45). -/
def blockBytes (c : Nat) : Nat :=
  match c with
  | 13 => 100
  | 14 => 100
  | 15 => 68
  | 16 => 28
  | _ => 132

/-- Elements of one storage block: a superblock of 128, or an EC8 slot of 32. -/
def blockElems (c : Nat) : Nat := if c = 16 then 32 else 128

/-- The value of an element code, without its block scale; MXINT8 is INT8 × 2^-6 (R42). -/
def mxElem (c x : Nat) : FVal :=
  match mxFmt c with
  | some f => f.decode x
  | none => (FVal.ofInt (signedOf 8 x)).scale (-6)

/-- Applies a block scale: 0xFF decodes as NaN (R41). -/
def applyScale (s : Nat) (v : FVal) : FVal := if s = 255 then .nan else v.scale ((s : Int) - 127)

/-- The E4M3 code of each element of an EC8 slot, or none for a zero of d = 7 or a negative exponent, with its sign
(R50). -/
def ec8Codes (slot : Nat) : List Nat :=
  let b : Int := bitsOf slot 8 4
  let code (s : Bool) (e : Int) (m : Nat) : Nat :=
    (if s then 128 else 0) + (if e < 0 then 0 else e.toNat * 8 + m)
  let bit (i : Nat) : Bool := decide (i < 224) && slot.testBit i
  if slot.testBit 12 then
    (List.range 32).map fun j =>
      let f := bitsOf slot (16 + 6 * j) 6
      let d := bitsOf f 2 3
      code (f.testBit 5) (if d = 7 then -1 else b - d) (2 * (f % 4))
  else
    ((List.range 32).foldl (fun (st : Nat × List Nat) j =>
      let (pos, acc) := st
      let s := bit (16 + 4 * j + 3)
      let m := bitsOf slot (16 + 4 * j) 3
      let (e, pos) : Int × Nat :=
        if !bit pos then (b, pos + 1)
        else if !bit (pos + 1) then (b - 1, pos + 2)
        else if !bit (pos + 2) then (b - 2, pos + 3)
        else (((bit (pos + 3)).toNat * 8 + (bit (pos + 4)).toNat * 4 + (bit (pos + 5)).toNat * 2
          + (bit (pos + 6)).toNat : Nat), pos + 7)
      (pos, code s e m :: acc)) (144, [])).2.reverse

/-- Scale byte and element code of element k of a storage block held as a number. -/
def blockElem (c blk k : Nat) : Nat × Nat :=
  if c = 16 then (blk % 256, (ec8Codes (blk % 2 ^ 224)).getD k 0)
  else (bitsOf blk (8 * (k / 32)) 8, bitsOf blk (32 + mxBits c * k) (mxBits c))

/-- The value of element k of a storage block (R42, R50). -/
def blockValue (c blk k : Nat) : FVal :=
  let (s, x) := blockElem c blk k
  applyScale s (mxElem c x)

/-- Floor(Log2) of a non-zero magnitude. -/
def floorLog2 (m : Nat) (e : Int) : Int := e + (bitLen m : Int) - 1

/-- The scale of a block of inputs (R43). -/
def chooseScale (c : Nat) (xs : List FVal) : Nat :=
  if xs.any (fun x => x.isNan || x.isInf) then 255 else
  match xs.foldl (fun (best : Option Int) x => match x with
    | .fin _ 0 _ => best
    | .fin _ m e => some (match best with
      | none => floorLog2 m e
      | some b => max b (floorLog2 m e))
    | _ => best) none with
  | none => 0
  | some b => (min (max (b - mxEmax c + 127) 0) 254).toNat

/-- One element under a chosen scale: Convert(x × 2^(127 − s)), saturating; MXINT8 to −127 and 127 (R44). -/
def mxConvert (c s : Nat) (r : Rm) (x : FVal) : Nat :=
  if s = 255 then 0 else
  let v := x.scale (127 - (s : Int))
  match mxFmt c with
  | some f => f.encode .saturate r v
  | none => ((FVal.toIntRange (-127) 127 r (v.scale 6)) % 256).toNat

/-- Header and payload of an EC8 slot from a scale and 32 E4M3 codes (R45 to R49). -/
def ec8Pack (s : Nat) (codes : List Nat) : Nat :=
  if s = 255 then 255 else
  let ex (c : Nat) := bitsOf c 3 4
  let b := codes.foldl (fun b c => max b (ex c)) 0
  let tok (c : Nat) : Nat × Nat :=
    let d := b - ex c
    if d = 0 then (0, 1) else if d = 1 then (1, 2) else if d = 2 then (3, 3)
    else (7 + 8 * ((ex c).testBit 3).toNat + 16 * ((ex c).testBit 2).toNat + 32 * ((ex c).testBit 1).toNat
      + 64 * ((ex c).testBit 0).toNat, 7)
  let total := codes.foldl (fun n c => n + (tok c).2) 0
  if total ≤ 80 then
    let nib := packLanes 4 (fun j => let c := codes.getD j 0; c % 8 + 8 * (c / 128)) 32
    let tf := (codes.foldl (fun (st : Nat × Nat) c => let (t, n) := tok c; (st.1 + (t <<< st.2), st.2 + n)) (0, 0)).1
    s + b * 256 + (nib <<< 16) + (tf <<< 144)
  else
    let flat (c : Nat) : Nat :=
      let d := b - ex c
      let sg := 32 * (c / 128)
      if 6 < d then sg + 28 else
      match c % 8 with
      | 0 => sg + 4 * d
      | 1 => sg + 4 * d
      | 2 => sg + 4 * d + 1
      | 3 => sg + 4 * d + 2
      | 4 => sg + 4 * d + 2
      | 5 => sg + 4 * d + 2
      | 6 => sg + 4 * d + 3
      | _ => if d = 0 then sg + 3 else sg + 4 * (d - 1)
    s + b * 256 + 4096 + (packLanes 6 (fun j => flat (codes.getD j 0)) 32 <<< 16)

end Sys2Proof.Machine
end

