-- ==== Sys2Proof/Machine/Ops.lean ====
section
/-! DEFINITION. The named operations over cores, contexts and registers, what completes an instruction, and taking an
exception: local traps (17 R347 to R349), remote faults (17 R350 to R354) and their return. -/

namespace Sys2Proof.Machine

/-- What `exec` answers. -/
abbrev Out := Host.Outcome State Fault Refusal

/-! ### Cores and contexts -/

/-- The core of a flat number (00 R6). -/
def State.core (s : State) (c : Nat) : Core := tget s.cores c Core.reset
/-- Replaces a core. -/
def State.setCore (s : State) (c : Nat) (k : Core) : State := { s with cores := tset s.cores c k }
/-- Changes a core. -/
def State.modCore (s : State) (c : Nat) (f : Core → Core) : State := s.setCore c (f (s.core c))
/-- Context x of a core. -/
def Core.ctx (k : Core) (x : Nat) : Ctx := tget k.ctxs x (Ctx.reset x)
/-- Replaces a context. -/
def Core.setCtx (k : Core) (x : Nat) (v : Ctx) : Core := { k with ctxs := tset k.ctxs x v }
/-- Context x of core c. -/
def State.ctx (s : State) (c x : Nat) : Ctx := (s.core c).ctx x
/-- Changes a context. -/
def State.modCtx (s : State) (c x : Nat) (f : Ctx → Ctx) : State :=
  s.modCore c fun k => k.setCtx x (f (k.ctx x))
/-- The issuing core. -/
def State.mine (s : State) : Core := s.core s.curCore
/-- The issuing context. -/
def State.me (s : State) : Ctx := s.ctx s.curCore s.curCtx
/-- Changes the issuing context. -/
def State.modMe (s : State) (f : Ctx → Ctx) : State := s.modCtx s.curCore s.curCtx f
/-- The eleven contexts of a core (14 R289). -/
def allCtx : List Nat := List.range 11
/-- Every core of the module. -/
def allCores : List Nat := List.range 8192
/-- The launch running on a core (16 R340). -/
def State.launchOf (s : State) (c : Nat) : Option Launch :=
  match (s.core c).queue with
  | none => none
  | some q => (tget s.queues q Queue.reset).launch

/-! ### Service cores (01 R15 to R17, 17 R354) -/

/-- The configured number of service cores of a cluster: 4 until a configuration record names another (01 R15). -/
def State.svcN (s : State) : Nat := if 2 ≤ s.dev.svc ∧ s.dev.svc ≤ 8 then s.dev.svc else 4
/-- Translation service cores of a cluster. -/
def State.svcT (s : State) : Nat := (s.svcN + 1) / 2
/-- Supervisor cores of a cluster. -/
def State.svcS (s : State) : Nat := s.svcN / 2
/-- Position n within its cluster. -/
def posOf (c : Nat) : Nat := c % 256
/-- Cluster of a core, 0 to 31. -/
def clusterOf (c : Nat) : Nat := c / 256
/-- Die of a core. -/
def dieOf (c : Nat) : Nat := c / 1024
/-- Whether a core is a service core. -/
def State.isService (s : State) (c : Nat) : Bool := decide (256 ≤ posOf c + s.svcN)
/-- Whether a number names a compute core. -/
def State.isCompute (s : State) (c : Nat) : Bool := decide (c < 8192) && !s.isService c
/-- Translation service core i of a cluster. -/
def xlateCore (cl i : Nat) : Nat := 256 * cl + (255 - i)
/-- Supervisor core j of a cluster. -/
def State.superCore (s : State) (cl j : Nat) : Nat := 256 * cl + (255 - s.svcT - j)
/-- Where a core sends its translation requests (01 R17, 04 R88). -/
def State.xlateTarget (s : State) (c : Nat) : Nat :=
  let n := posOf c
  let i := 255 - n
  if s.isService c then
    if i < s.svcT then xlateCore (clusterOf c) ((i + 1) % s.svcT) else xlateCore (clusterOf c) ((i - s.svcT) % s.svcT)
  else xlateCore (clusterOf c) (n % s.svcT)
/-- The supervisor core that a core's fault messages go to (01 R17, 17 R354). -/
def State.faultTarget (s : State) (c : Nat) : Nat :=
  let i := 255 - posOf c
  if s.isService c && decide (s.svcT ≤ i) then
    if s.svcS = 1 then s.superCore (4 * dieOf c + (clusterOf c + 1) % 4) 0
    else s.superCore (clusterOf c) ((i - s.svcT + 1) % s.svcS)
  else s.superCore (clusterOf c) (posOf c % s.svcS)
/-- Follows forwarding entries from a position (17 R363). -/
def forwardFrom : Nat → List Fwd → Nat → Nat
  | 0, _, c => c
  | n + 1, l, c => match l.find? (fun f => f.old == c) with
    | some f => forwardFrom n l f.new
    | none => c
/-- The core that now serves a position. -/
def State.forwarded (s : State) (c : Nat) : Nat := forwardFrom s.fwds.length s.fwds c

/-! ### Registers (10 R213) -/

/-- Ring size N (10 R213). -/
def Ctx.ringN (x : Ctx) : Int := (x.rshi.toNat : Int) - x.rslo.toNat
/-- An entry reached from LO by a signed distance, wrapping in the ring (10 R213, R218). -/
def Ctx.ringAt (x : Ctx) (d : Int) : Nat := ((x.rslo.toNat : Int) + d % x.ringN).toNat
/-- The register RAM entry that windowed name j of the context names (10 R213). -/
def Ctx.slot (x : Ctx) (j : Nat) : Nat :=
  if x.ringN ≤ 0 then (x.base.toNat + j - 8) % 4096
  else x.ringAt ((x.base.toNat : Int) - x.rslo.toNat + j - 8) % 4096
/-- The name a scalar field has under rotation (10 R227). -/
def Ctx.rotated (x : Ctx) (f : BitVec 5) : Nat :=
  match x.rep with
  | some r => if 16 ≤ f.toNat ∧ f.toNat ≤ 23 then 16 + (f.toNat - 16 + r.pass * r.stride) % 8 else f.toNat
  | none => f.toNat
/-- The storage of a named register. -/
def Ctx.dstOf (x : Ctx) (j : Nat) : RegDst := if j = 0 then .none else if j ≤ 7 then .glob j else .ram (x.slot j)
/-- Writes a register RAM entry. -/
def Core.setRam (k : Core) (e : Nat) (w : Word) : Core := { k with ram := wset k.ram e w }
/-- Writes a global. -/
def Ctx.setGlob (y : Ctx) (j : Nat) (w : Word) : Ctx := { y with globs := wset y.globs j w }
/-- Reads a register's storage: x0 reads zero. -/
def State.readDst (s : State) (c x : Nat) (d : RegDst) : Word :=
  match d with
  | .none => 0
  | .ram e => tget (s.core c).ram e 0
  | .glob j => tget (s.ctx c x).globs j 0
/-- Writes a register's storage: a write to x0 is discarded. -/
def State.writeDst (s : State) (c x : Nat) (d : RegDst) (w : Word) : State :=
  match d with
  | .none => s
  | .ram e => s.modCore c fun k => k.setRam e w
  | .glob j => s.modCtx c x fun y => y.setGlob j w
/-- The storage that a scalar field of the issuing context names at issue (10 R216). -/
def State.dst (s : State) (f : BitVec 5) : RegDst := s.me.dstOf (s.me.rotated f)
/-- Reads a scalar register field of the issuing context. -/
def State.reg (s : State) (f : BitVec 5) : Word := s.readDst s.curCore s.curCtx (s.dst f)
/-- Writes a scalar register field of the issuing context. -/
def State.setReg (s : State) (f : BitVec 5) (w : Word) : State := s.writeDst s.curCore s.curCtx (s.dst f) w
/-- A windowed or global register of any context by name, without rotation. -/
def State.regOf (s : State) (c x j : Nat) : Word := s.readDst c x ((s.ctx c x).dstOf j)
/-- Writes a named register of any context, without rotation. -/
def State.setRegOf (s : State) (c x j : Nat) (w : Word) : State := s.writeDst c x ((s.ctx c x).dstOf j) w
/-- A vector register of a context (10 R230). -/
def Ctx.vec (x : Ctx) (v : Nat) : Vec := tget x.vecs v 0
/-- Sets a vector register; a zero register is not listed. -/
def Ctx.setVec (x : Ctx) (v : Nat) (w : Vec) : Ctx := { x with vecs := if w = 0 then tdel x.vecs v else tset x.vecs v w }
/-- A mask register; k0 reads all ones (10 R230). -/
def Ctx.mask (x : Ctx) (k : Nat) : Word := if k = 0 then BitVec.allOnes 64 else tget x.masks k 0
/-- Sets a mask register; a write to k0 is discarded. -/
def Ctx.setMask (x : Ctx) (k : Nat) (w : Word) : Ctx := if k = 0 then x else { x with masks := wset x.masks k w }
/-- A vector register field of the issuing context. -/
def State.vreg (s : State) (f : BitVec 5) : Vec := s.me.vec f.toNat
/-- Writes a vector register field of the issuing context. -/
def State.setVreg (s : State) (f : BitVec 5) (w : Vec) : State := s.modMe fun x => x.setVec f.toNat w
/-- A mask register field of the issuing context. -/
def State.kreg (s : State) (f : BitVec 3) : Word := s.me.mask f.toNat
/-- Writes a mask register field of the issuing context. -/
def State.setKreg (s : State) (f : BitVec 3) (w : Word) : State := s.modMe fun x => x.setMask f.toNat w

/-! ### Messages in flight -/

/-- Puts a message on the networks. -/
def State.send (s : State) (p : Pkt) : State :=
  { s with net := s.net ++ [{ id := s.nextId, hold := .flying, pkt := p }], nextId := s.nextId + 1 }
/-- The message of a number. -/
def State.flight? (s : State) (id : Nat) : Option Flight := s.net.find? fun f => f.id == id
/-- Removes a message. -/
def State.drop (s : State) (id : Nat) : State := { s with net := dropFirst (fun f => f.id == id) s.net }
/-- Replaces what a message holds. -/
def State.setFlight (s : State) (f : Flight) : State := { s with net := mapIf (fun g => g.id == f.id) (fun _ => f) s.net }
/-- An active message as it leaves its sender; the sender's count of messages sent rises (17 R359). -/
def State.sendMsg (s : State) (src : Nat) (p : Pkt) : State :=
  (s.modCore src fun k => { k with sent := k.sent + 1 }).send p
/-- A sender or destination descriptor (14 R306). -/
def descriptor (c x : Nat) : BitVec 17 := BitVec.ofNat 17 (c + 8192 * x)

/-! ### Outstanding operations -/

/-- Whether a place is a register window, whose accesses a marker park waits for (10 R222). -/
def Place.isWindow (p : Place) : Bool :=
  match p with
  | .ramEntry _ _ => true
  | .vreg _ _ _ => true
  | .tile _ _ _ => true
  | .mask _ _ _ => true
  | .glob _ _ _ => true
  | .csr _ _ => true
  | _ => false
/-- Whether an operation writes a register. -/
def Op.hasResult (o : Op) : Bool := match o.fin with | .none => false | .mxStore _ _ _ _ _ => false | .block => false | _ => true
/-- Whether every lane has performed. -/
def Op.allDone (o : Op) : Bool := o.lanes.all fun l => l.done
/-- Whether an operation holds a marker park (03 R65, 10 R222). -/
def Op.holdsPark (o : Op) : Bool := o.hasResult || o.lanes.any fun l => l.place.isWindow && !l.done
/-- The context's operations. -/
def Core.opsOf (k : Core) (x : Nat) : List Op := k.ops.filter fun o => o.ctx == x
/-- Whether the context has a variable-latency result outstanding (03 R65). -/
def Core.resultsOut (k : Core) (x : Nat) : Bool := (k.opsOf x).any Op.holdsPark
/-- Adds an operation; its number is the next one. -/
def State.addOp (s : State) (c : Nat) (o : Op) : State :=
  { (s.modCore c fun k => { k with ops := k.ops ++ [{ o with id := s.nextId }] }) with nextId := s.nextId + 1 }
/-- An operation by its number. -/
def Core.op? (k : Core) (id : Nat) : Option Op := k.ops.find? fun o => o.id == id
/-- Replaces an operation. -/
def State.setOp (s : State) (c : Nat) (o : Op) : State :=
  s.modCore c fun k => { k with ops := mapIf (fun p => p.id == o.id) (fun _ => o) k.ops }
/-- Removes an operation. -/
def State.delOp (s : State) (c id : Nat) : State :=
  s.modCore c fun k => { k with ops := dropFirst (fun p => p.id == id) k.ops }
/-- A fresh operation of a context. -/
def State.opOf (s : State) (c x : Nat) : Op :=
  let y := s.ctx c x
  { id := 0, ctx := x, pc := y.pc, seq := y.seq, isLoad := false, isStore := false, acquire := false,
    fin := .none, lanes := [], iter := y.iter, lag := 63, ldlMode := 0, ord := 0, due := none, stale := false,
    lagTrap := false, noInstall := false, joint := false, conv := false, fault := none, sup := decide (y.mode = .supervisor),
    wide := false, rep := y.rep, dead := false }
/-- A fresh operation of the issuing context. -/
def State.newOp (s : State) : Op := s.opOf s.curCore s.curCtx

/-! ### Taking an exception -/

/-- Code of a remote cause (17 R351). -/
def Cause.code (c : Cause) : Nat :=
  match c with
  | .illegal => 0x20
  | .priv => 0x21
  | .misalign => 0x22
  | .range => 0x23
  | .xlate => 0x24
  | .vcFault => 0x25
  | .tileUnconf => 0x26
  | .depDenied => 0x27
  | .poison => 0x28
  | .eccUncorr => 0x29
  | .collOverrun => 0x2A
  | .fabricTimeout => 0x2B
  | .linkIntegrity => 0x2C
  | .killed => 0x2D

/-- REPST for an instruction inside a body, or with ACT cleared for any other (10 R229). -/
def Ctx.repstFor (x : Ctx) (r : Option RepRun) : Word :=
  match r with
  | none => x.repst &&& BitVec.ofNat 64 (2 ^ 63 - 1)
  | some r => BitVec.ofNat 64 (2 ^ 63 + (r.stride % 8) * 2 ^ 32 + ((r.len - 1) % 16) * 2 ^ 28
      + ((r.count - 1) % 4096) * 2 ^ 16 + (r.pos % 16) * 2 ^ 12 + r.pass % 4096)

/-- The launch id that a record of a launch holds (16 R336). -/
def Launch.lid (l : Launch) : Nat := bitsOf ((l.words.getD 1 0).toNat) 32 32

/-- The 32-byte fault message (17 R353) as the low bytes of a slot. -/
def faultPayload (c ctx : Nat) (cause : Nat) (info : BitVec 32) (addr pc : Addr) (launch follow : Nat)
    (deferred inh sup undeliv migrated : Bool) : Vec :=
  let w3 := c % 8192 + (ctx % 16) * 2 ^ 13 + cause * 2 ^ 24 + (min follow 65535) * 2 ^ 32 + deferred.toNat * 2 ^ 48
    + inh.toNat * 2 ^ 49 + sup.toNat * 2 ^ 50 + undeliv.toNat * 2 ^ 51 + migrated.toNat * 2 ^ 52
  BitVec.ofNat 512 (addr.toNat + pc.toNat * 2 ^ 64 + (info.toNat + launch * 2 ^ 32) * 2 ^ 128 + w3 * 2 ^ 192)

/-- The handler address that a core keeps in its TCM: the low two bits of an instruction's address are zero (03 R62). -/
def State.handlerPc (s : State) (c off : Nat) : Addr := BitVec.ofNat 56 (Memory.read (s.core c).tcm off 8 / 4 * 4)
/-- Sends a fault message to a supervisor core: a handler message whose PC is held at TCM offset 8 (17 R354). -/
def State.sendFault (s : State) (target src ctx : Nat) (payload : Vec) : State :=
  s.sendMsg src (.msg target none (s.handlerPc target 8) payload (descriptor src ctx)
    (s.core src).domain true)

/-- Step 6 of 17 R352: the context becomes HALTED, EPC, ECAUSE and EINFO are written, and the fault message leaves. -/
def State.haltFault (s : State) (c x : Nat) (p : PendFault) : State :=
  let y := s.ctx c x
  let launch := match s.launchOf c with
    | some l => l.lid
    | none => 0
  let payload := faultPayload c x p.f.cause.code p.f.info p.f.addr p.pc launch (y.seq - p.seq - 1) p.deferred y.inh
    (decide (y.mode = .supervisor)) p.f.undeliv (s.core c).migrated
  (s.modCtx c x fun y => { y with
    st := .halted
    wait := .none
    pc := p.pc
    epc := p.pc
    ecause := BitVec.ofNat 64 (p.f.cause.code + p.f.info.toNat * 2 ^ 32)
    einfo := p.f.addr.setWidth 64
    repst := y.repstFor p.rep
    rep := none
    fetched := []
    kept := none
    gonged := none
    ranged := decide (p.f.cause = .range) }).sendFault (s.faultTarget c) c x payload

/-- The earlier, in program order, of two faults (17 R352 step 5). -/
def earlierFault (p q : PendFault) : PendFault := if q.seq < p.seq then q else p

/-- A remote fault: the context issues nothing more, drains its operations and halts (17 R352). -/
def State.raiseFault (s : State) (c x : Nat) (p : PendFault) : State :=
  let s := s.modCore c fun k => { k with ops := k.ops.filter fun o => !(o.ctx == x && decide (o.fin = .block)) }
  let y := s.ctx c x
  let p := match y.wait with
    | .drain q => earlierFault q p
    | _ => p
  if (s.core c).opsOf x = [] then s.haltFault c x p
  else s.modCtx c x fun y => { y with st := .held, wait := .drain p }

/-- Handler entry of a local trap, or the remote fault of one that cannot be delivered (17 R349). -/
def State.enterTrap (s : State) (c x : Nat) (t : Trap) : State :=
  let y := s.ctx c x
  let va := (y.tvec >>> 2).setWidth 54
  if va = 0 ∨ y.inh then
    s.raiseFault c x { f := { cause := .illegal, info := BitVec.ofNat 32 (0x80000000 + t.code.toNat), addr := 0,
                              undeliv := true }, pc := t.epc, seq := y.seq, deferred := false, rep := y.rep }
  else s.modCtx c x fun y => { y with
    st := .ready
    wait := .none
    epc := t.epc
    ecause := t.code.setWidth 64
    einfo := t.einfo
    inh := true
    wpend := if t.wpend = 0 then y.wpend else t.wpend
    repst := y.repstFor y.rep
    rep := none
    fetched := []
    stepOver := false
    kept := none
    pc := va.setWidth 56 <<< 2 }

/-- A local trap: handler entry parks as a marker does (03 R68, 17 R349). -/
def State.localTrap (s : State) (c x : Nat) (t : Trap) : State :=
  if (s.core c).resultsOut x then s.modCtx c x fun y => { y with st := .parked, wait := .trapEntry t }
  else s.enterTrap c x t

/-- The end of a marker park: a pending local trap is taken, with EPC at the resume address (06 R153). -/
def State.endPark (s : State) (c x : Nat) : State :=
  let y := s.ctx c x
  match y.ptrap with
  | some (t, _) => (s.modCtx c x fun y => { y with ptrap := none, st := .ready, wait := .none }).enterTrap c x
      { t with epc := y.pc }
  | none => s.modCtx c x fun y => { y with st := if y.st = .halted then .halted else .ready, wait := .none }

/-- Marker park (03 R65): ends at once when no result is outstanding. -/
def State.park (s : State) (c x : Nat) : State :=
  if (s.core c).resultsOut x then s.modCtx c x fun y => { y with st := .parked, wait := .marker } else s.endPark c x

/-- What follows from an operation of the context having left: a drained fault halts it, a park ends. A halted context
keeps its wait for its resume (17 R359). -/
def State.settle (s : State) (c x : Nat) : State :=
  let y := s.ctx c x
  match y.wait with
  | .drain p => if (s.core c).opsOf x = [] then s.haltFault c x p else s
  | .marker => if (s.core c).resultsOut x ∨ y.st = .halted then s else s.endPark c x
  | .trapEntry t => if (s.core c).resultsOut x ∨ y.st = .halted then s else s.enterTrap c x t
  | _ => s

/-- Ends a wait: the context may issue again, unless it is halted (17 R359). -/
def Ctx.wake (y : Ctx) : Ctx := { y with wait := .none, st := if y.st = .halted then .halted else .ready }

/-- Restarts rotation when REPST.ACT is 1: the body starts at EPC − 4·POS (10 R229). Its buffer is
filled again (assumption 86, DEDUCED, unsafe). -/
def Ctx.restartRep (y : Ctx) (epc : Addr) : Ctx :=
  if y.repst.getLsbD 63 then
    let r := y.repst.toNat
    let pos := bitsOf r 12 4
    { y with
      rep := some { base := epc - BitVec.ofNat 56 (4 * pos), len := bitsOf r 28 4 + 1, count := bitsOf r 16 12 + 1,
                    stride := bitsOf r 32 3, pos := pos, pass := bitsOf r 0 12, buf := [] }
      repst := y.repst &&& BitVec.ofNat 64 (2 ^ 63 - 1) }
  else { y with rep := none }

/-- Takes a pending local trap before the next instruction, after the park of its handler's entry; until then it stays pending (06 R153, 17
R352, R358). -/
def State.takePending (s : State) (c x : Nat) : State := if (s.ctx c x).ptrap.isSome then s.park c x else s

/-- The register part of a return from a local trap handler (17 R358, 10 R221): LOW moves by 16 entries, WPEND and INH
clear, rotation restarts, PC becomes EPC. `free` is LOW after a move in a ring of no entries, which has no mod N
(assumption 6, DESIGN CHOICE, safe). -/
def Ctx.unwind (free : BitVec 12) (y : Ctx) : Ctx :=
  let low := (y.low.toNat : Int) - y.rslo.toNat
  let move (d : Int) : BitVec 12 := if y.ringN ≤ 0 then free else BitVec.ofNat 12 (y.ringAt (low + d))
  let y := if y.wpend = 1 then { y with low := move 16 } else if y.wpend = 2 then { y with low := move (-16) } else y
  let y := { y with wpend := 0, inh := false, fetched := [], stepOver := false, kept := none, seq := y.seq + 1, st := .ready, wait := .none, pc := y.epc }
  y.restartRep y.pc

/-- Return from a local trap handler (17 R358): a pending trap is taken before the first instruction at EPC, after the
park when the marker asks for one. -/
def State.returnTrap (s : State) (m : Bool) : State :=
  let n := s.nextId
  let s : State := { s with nextId := n + 1 }
  let s := s.modMe (Ctx.unwind (Config.brokenRingLow n))
  if m then s.park s.curCore s.curCtx else s.takePending s.curCore s.curCtx

/-! ### Completing an instruction -/

/-- Where the context goes on after an instruction that does not transfer control, inside or outside a repetition body
(10 R227). -/
def Ctx.nextPos (y : Ctx) : Addr × Option RepRun :=
  match y.rep with
  | none => (y.pc + 4, none)
  | some r =>
    if r.pos + 1 < r.len then (y.pc + 4, some { r with pos := r.pos + 1 })
    else if r.pass + 1 < r.count then (r.base, some { r with pos := 0, pass := r.pass + 1 })
    else (y.pc + 4, none)
/-- The context after an instruction that does not transfer control. -/
def Ctx.advance (y : Ctx) : Ctx :=
  { y with pc := y.nextPos.1, rep := y.nextPos.2, seq := y.seq + 1, st := .ready, wait := .none, stepOver := false, kept := none }

/-- Completes an instruction: the next one follows, and the marker parks (03 R65). -/
def State.retire (s : State) (m : Bool) : State :=
  let s := s.modMe Ctx.advance
  if m then s.park s.curCore s.curCtx else s

/-- Completes the instruction that a waiting context was parked in; a halted context keeps its state, and the park of the instruction's marker
goes on (17 R359). -/
def State.retireAt (s : State) (c x : Nat) (m : Bool) : State :=
  if (s.ctx c x).st = .halted then
    let w : Wait := if m && (s.core c).resultsOut x then .marker else .none
    s.modCtx c x fun y => { y.advance with st := .halted, wait := w }
  else
    let s := s.modCtx c x Ctx.advance
    if m then s.park c x else s

/-- Completes a taken transfer of control: what was fetched ahead is discarded (01 R438). -/
def State.retireTo (s : State) (m : Bool) (target : Addr) : State :=
  let s := s.modMe fun y =>
    { y with pc := target, seq := y.seq + 1, st := .ready, wait := .none, stepOver := false, fetched := [], kept := none }
  if m then s.park s.curCore s.curCtx else s

/-- Why an instruction does not complete at this issue. -/
inductive Stop where
  /-- The context waits and issues the instruction again; the state holds the wait and any message it sent. -/
  | wait (s : State)
  /-- A precise remote fault; the instruction has no effect. -/
  | fault (f : FaultInfo)
  /-- A local trap; the instruction has no effect. -/
  | trap (t : Trap)

/-- An instruction that can stop. -/
abbrev M (α : Type) := StateT State (Except Stop) α

/-- Precise fault of the issuing context. -/
def State.faultHere (s : State) (f : FaultInfo) : State :=
  s.raiseFault s.curCore s.curCtx { f := f, pc := s.me.pc, seq := s.me.seq, deferred := false, rep := s.me.rep }

/-- Runs an instruction: a stop discards every other effect of it. -/
def runM (a : M Unit) (s : State) : Out :=
  match a s with
  | .ok (_, t) => .next t
  | .error (.wait t) => .next t
  | .error (.fault f) => .next (s.faultHere f)
  | .error (.trap t) => .next (s.localTrap s.curCore s.curCtx t)

def stop {α : Type} (e : Stop) : M α := fun _ => .error e
/-- A precise fault with a cause and an address. -/
def faultM {α : Type} (c : Cause) (info : BitVec 32) (addr : Addr) : M α :=
  stop (.fault { cause := c, info := info, addr := addr, undeliv := false })
/-- HELD at issue: the instruction issues again at a later turn (14 R289). -/
def holdM {α : Type} : M α := fun s => .error (.wait (s.modMe fun y => { y with st := .held, wait := .none }))
/-- PARKED in the instruction, which is tried again at a later turn. -/
def parkM {α : Type} : M α := fun s => .error (.wait (s.modMe fun y => { y with st := .parked, wait := .none }))
/-- PARKED in the instruction for an event. -/
def waitM {α : Type} (w : Wait) : M α := fun s => .error (.wait (s.modMe fun y => { y with st := .parked, wait := w }))
/-- PARKED in the instruction for an event, keeping what it has done so far. -/
def stopWith {α : Type} (f : State → State) : M α := fun s => .error (.wait (f s))
/-- What an instruction reads when it issues, and keeps while it waits (17 R359, 14 R297). -/
def Ctx.keptNow (y : Ctx) : Option (List Nat) := y.kept.bind fun k => if k.1 = y.seq ∧ k.2.1 = y.pc then some k.2.2 else none
/-- Reads values at the first issue of an instruction; when the instruction has waited and issues again it finds what it read then. -/
def keepM (f : State → List Nat) : M (List Nat) := fun s =>
  match s.me.keptNow with
  | some l => .ok (l, s)
  | none => .ok (f s, s.modMe fun y => { y with kept := some (y.seq, y.pc, f s) })
def getM {α : Type} (f : State → α) : M α := fun s => .ok (f s, s)
def modM (f : State → State) : M Unit := fun s => .ok ((), f s)
def retireM (m : Bool) : M Unit := modM fun s => s.retire m
/-- ILLEGAL at execution, with the word in INFO (17 R353). -/
def illegalM {α : Type} (word : BitVec 32) : M α := faultM .illegal word 0
/-- PRIV unless in supervisor mode (03 R77). -/
def supervisorM : M Unit := fun s => if s.me.mode = .supervisor then .ok ((), s) else faultM .priv 0 0 s
/-- REP_FAULT of an instruction that may not stand in a repetition body (10 R228). -/
def noRepM : M Unit := fun s =>
  if s.me.rep.isSome then stop (.trap { code := 5, epc := s.me.pc, einfo := 0, wpend := 0 }) s else .ok ((), s)

/-- Completes a scalar result of fixed latency (03 R66). -/
def State.finish (s : State) (m : Bool) (d : BitVec 5) (w : Word) : Out := .next ((s.setReg d w).retire m)
/-- Completes a vector result of fixed latency. -/
def State.finishV (s : State) (m : Bool) (d : BitVec 5) (w : Vec) : Out := .next ((s.setVreg d w).retire m)
/-- Completes a mask result of fixed latency. -/
def State.finishK (s : State) (m : Bool) (d : BitVec 3) (w : Word) : Out := .next ((s.setKreg d w).retire m)
/-- Issues a result of variable latency, written by a later RESULT_WRITEBACK (03 R66). -/
def State.issueResult (s : State) (m : Bool) (ws : List RegWrite) : State :=
  (s.addOp s.curCore { s.newOp with fin := .ready ws }).retire m

end Sys2Proof.Machine
end

