-- ==== Sys2Proof/Machine/Vc.lean ====
section
/-! DEFINITION. Main memory with its metadata (04 R84, 06 R142), the virtual caches (05 R113 to R120), the homes and
what an agent does to a unit at its home (06 R133 to R138, R142, R150). -/

namespace Sys2Proof

open Machine

/-- The units of n bytes at an address. -/
def unitsAt (pa n : Nat) : List Nat := (List.range ((pa + n - 1) / 128 + 1 - pa / 128)).map fun i => pa / 128 + i
/-- Payload bytes of a packet (18 R376). -/
def Packet.bytes (p : Packet) : Nat :=
  match p.opc with
  | 1 => p.len
  | 2 => if p.aop.toNat / 8 = 10 then 16 else 8
  | 3 => 64
  | 4 => 64
  | 5 => 64
  | 8 => p.len
  | _ => 0
/-- Flits of a packet (18 R376). -/
def Packet.flits (p : Packet) : Nat := (32 + p.bytes + 63) / 64
/-- Whether a packet begins its way at a device: a request there was issued there, a reply there was made at its home. -/
def Packet.begunAt (p : Packet) (n : Nat) : Bool := if p.opc < 8 then p.dev == n else p.pa.toNat / 2 ^ 42 == n
/-- The units of a packet: those that a LOAD or STORE names, an ACK's those of its STORE, whose length its unsent payload keeps, and an ENQ's
the units of its head and of its link word (18 R375, 08 R188; assumption 7, DESIGN CHOICE, unsafe). -/
def Packet.units (p : Packet) : List Nat :=
  let pa := p.pa.toNat
  match p.opc with
  | 4 => addOnce [pa / 128] ((pa / 2 ^ 42 * 2 ^ 42 + bitsOf p.payload.toNat 512 42) / 128)
  | 9 => unitsAt pa (max 1 p.payload.toNat)
  | _ => unitsAt pa (max 1 p.len)
/-- Whether two packets are of one core, both requests or both replies, and share a unit (18 R375). -/
def Packet.follows (p q : Packet) : Bool :=
  p.dev == q.dev && p.core == q.core && decide (p.opc < 8) == decide (q.opc < 8) && p.units.any q.units.contains
/-- Flits that wait at a port (18 R374). -/
def Machine.Port.flits (p : Port) : Nat := (p.tx.map Packet.flits).sum - p.part

end Sys2Proof

namespace Sys2Proof.Machine

/-! ### Cache definition records (05 R113 to R116) -/

/-- A field of a doubleword. -/
def fld (w : Word) (lo n : Nat) : Nat := bitsOf w.toNat lo n
/-- Replaces a field of a doubleword. -/
def setFld (w : Word) (lo n v : Nat) : Word := BitVec.ofNat 64 (setBits w.toNat lo n v)

def State.cdr (s : State) (v : Nat) : Cdr := tget s.cdrs v Cdr.reset
def State.setCdr (s : State) (v : Nat) (c : Cdr) : State := { s with cdrs := tset s.cdrs v c }
def State.modCdr (s : State) (v : Nat) (f : Cdr → Cdr) : State := s.setCdr v (f (s.cdr v))
/-- STATE: 0 FREE, 1 DEFINED, 2 ACTIVE, 3 RESIZING, 4 RETIRING. -/
def Cdr.state (c : Cdr) : Nat := fld c.w0 60 3
def Cdr.setState (c : Cdr) (n : Nat) : Cdr := { c with w0 := setFld c.w0 60 3 n }
def Cdr.rclm (c : Cdr) : Bool := c.w0.getLsbD 36
def Cdr.setRclm (c : Cdr) (b : Bool) : Cdr := { c with w0 := setFld c.w0 36 1 b.toNat }
def Cdr.domain (c : Cdr) : Nat := fld c.w0 50 10

/-- The geometry of a record image: its two RW words. -/
abbrev Geo := Word × Word
def Cdr.geo (c : Cdr) : Geo := (c.w0, c.w1)
def Geo.line (g : Geo) : Nat := 128 <<< fld g.1 48 2
def Geo.ways (g : Geo) : Nat := 1 <<< fld g.1 45 3
/-- 0 WB, 1 WT, 2 NA, 3 RO, 4 EF (05 R118). -/
def Geo.policy (g : Geo) : Nat := fld g.1 42 3
/-- 0 HOME, 1 HASH, 2 LOCAL. -/
def Geo.placeKind (g : Geo) : Nat := fld g.1 40 2
def Geo.nsh (g : Geo) : Nat := fld g.1 32 4
def Geo.fsh (g : Geo) : Nat := fld g.1 28 4
def Geo.homeCore (g : Geo) : Nat := fld g.1 15 13
def Geo.sets (g : Geo) : Nat := (g.nsh + 1) * 65536 / (g.line * g.ways)
/-- Number of set bits. -/
def popcount (m : Nat) : Nat → Nat
  | 0 => 0
  | n + 1 => popcount m n + bitsOf m n 1
/-- Position of the i-th set bit of m, searching n positions from p. -/
def nthBit (m i p : Nat) : Nat → Nat
  | 0 => p
  | n + 1 => if m.testBit p then (if i = 0 then p else nthBit m (i - 1) (p + 1) n) else nthBit m i (p + 1) n
/-- A rectangle of cores: dies, clusters, first column and row, width and height less one (05 R113, 14 R311). -/
def rectHas (w : Word) (c : Nat) : Bool :=
  let x := c % 16
  let y := c / 16 % 16
  w.getLsbD (56 + dieOf c) && w.getLsbD (52 + clusterOf c % 4) && decide (fld w 48 4 ≤ x) &&
    decide (x ≤ fld w 48 4 + fld w 40 4) && decide (fld w 44 4 ≤ y) && decide (y ≤ fld w 44 4 + fld w 36 4)
/-- Number of members (05 R115). -/
def Geo.count (g : Geo) : Nat :=
  if g.placeKind = 0 then 1
  else popcount (fld g.2 56 8) 8 * popcount (fld g.2 52 4) 4 * (fld g.2 40 4 + 1) * (fld g.2 36 4 + 1)
/-- The core of member i, in the order of 05 R115. -/
def Geo.member (g : Geo) (i : Nat) : Nat :=
  if g.placeKind = 0 then g.homeCore else
  let w := fld g.2 40 4 + 1
  let h := fld g.2 36 4 + 1
  let nc := popcount (fld g.2 52 4) 4
  let x := fld g.2 48 4 + i % w
  let y := fld g.2 44 4 + i / w % h
  let c := nthBit (fld g.2 52 4) (i / (w * h) % nc) 0 4
  let d := nthBit (fld g.2 56 8) (i / (w * h * nc)) 0 8
  1024 * d + 256 * c + 16 * y + x
/-- Whether a core is a member. -/
def Geo.has (g : Geo) (c : Nat) : Bool := if g.placeKind = 0 then g.homeCore == c else rectHas g.2 c
/-- f of 05 R115. -/
def foldLine (li : Nat) : Nat := bitsOf li 0 12 ^^^ bitsOf li 12 12 ^^^ bitsOf li 24 12 ^^^ bitsOf li 36 12
/-- Member core and set of a PA for a requester (05 R115); `none` names the home (05 R116). -/
def Geo.place (g : Geo) (pa : Nat) (req : Option Nat) : Nat × Nat :=
  let li := pa / g.line
  let m := g.count
  if g.placeKind = 0 then (g.homeCore, li % g.sets)
  else if g.placeKind = 1 then (g.member (foldLine li % m), li / m % g.sets)
  else
    let home := g.member (foldLine li % m)
    (match req with
      | some c => if g.has c then c else home
      | none => home, li % g.sets)
/-- The module's own device number (01 R26, 18 R373). -/
def State.devNum (s : State) : Nat := fld s.dev.fabcfg 0 14
/-- The physical address of a unit of this module, its device number included (01 R26). -/
def State.paOf (s : State) (u : Nat) : Nat := s.devNum * 2 ^ 42 + 128 * u
/-- The layout that a unit is served under, and its number: a RESIZING cache serves migrated sets by its new one (05 R123). -/
def State.layout (s : State) (vcid u : Nat) : Geo × Nat :=
  let r := s.cdr vcid
  match r.shadow with
  | some g => if (r.geo.place (s.paOf u) none).2 < r.progress then (g, (r.epoch + 1).toNat) else (r.geo, r.epoch.toNat)
  | none => (r.geo, r.epoch.toNat)
/-- Where a unit stands in its cache: layout, layout number, core, set and line number. -/
structure Spot where
  geo : Geo
  lay : Nat
  core : Nat
  set : Nat
  li : Nat
/-- Where a unit stands for a requester (05 R115). -/
def State.spot (s : State) (vcid u : Nat) (req : Option Nat) : Spot :=
  let (g, n) := s.layout vcid u
  let (c, i) := g.place (s.paOf u) req
  { geo := g, lay := n, core := c, set := i, li := u / (g.line / 128) }
/-- The core at which a unit's home stands (05 R116); a unit whose pin holds it is still at its old home (05 R125). -/
def State.homeCore (s : State) (vcid u : Nat) : Nat := (tget? (s.cdr vcid).stay u).getD (s.spot vcid u none).core

/-! ### HBM units and their metadata -/

def State.umeta? (s : State) (u : Nat) : UMeta := tget s.umeta u UMeta.reset
/-- The key in a slot (04 R83). -/
def State.slotKey (s : State) (tag : Option Nat) : Option (BitVec 256) := tag.bind fun d => tget? s.dev.keys d
/-- A unit as HBM gives it (04 R84, 06 R142, 08 R176): one that was encrypted under another key than its slot now holds reads as what
decryption makes of it (04 R83). -/
def State.hbmUnit (s : State) (u : Nat) : VUnit :=
  let m := s.umeta? u
  let d := BitVec.ofNat 1024 (s.hbm.read (128 * u) 128)
  { data := if m.key = s.slotKey m.tag then d else Config.recrypt m.key (s.slotKey m.tag) u d, tag := m.tag, stamp := m.stamp, poison := m.poison }
/-- Writes a unit with its metadata to HBM, encrypted under the key of its slot. -/
def State.setHbm (s : State) (u : Nat) (v : VUnit) : State :=
  { s with
    hbm := s.hbm.write (128 * u) v.data.toNat 128
    umeta := tset s.umeta u { tag := v.tag, key := s.slotKey v.tag, stamp := v.stamp, poison := v.poison } }
/-- A unit as a key sees it: another or an invalid tag reads as zeros with stamp 0 (04 R84). -/
def VUnit.under (v : VUnit) (key : Nat) : VUnit :=
  if v.tag = some key then v else { data := 0, tag := some key, stamp := 0, poison := v.poison }
/-- Whether a read under a key consumes poison: a mismatch reads zeros and raises nothing (04 R84, 08 R176). -/
def VUnit.poisonFor (v : VUnit) (key : Nat) : Bool := v.poison && decide (v.tag = some key)

/-! ### Homes (06 R133) -/

/-- The key of a unit's home record. -/
def homeKey (vcid u : Nat) : Nat := vcid + 256 * u
def State.home (s : State) (vcid u : Nat) : HomeUnit := tget s.homes (homeKey vcid u) HomeUnit.reset
def State.setHome (s : State) (vcid u : Nat) (h : HomeUnit) : State :=
  { s with homes := if h = HomeUnit.reset then tdel s.homes (homeKey vcid u) else tset s.homes (homeKey vcid u) h }
def State.modHome (s : State) (vcid u : Nat) (f : HomeUnit → HomeUnit) : State := s.setHome vcid u (f (s.home vcid u))
/-- The cluster of a caching agent. -/
def agentCluster (a : Nat) : Nat := if a < 24576 then a % 8192 / 256 else (a - 24576) / 32
/-- What stands in a sharer set for every agent of a cluster (06 R133, 04 R94). -/
def clusterMark (k : Nat) : Nat := 2 ^ 20 + k
/-- Whether a sharer set has more than four agents recorded. -/
def coarse (l : List Nat) : Bool := l.any fun a => decide (2 ^ 20 ≤ a)
/-- Records an agent: exactly up to four, and by cluster beyond (06 R133, 04 R94). -/
def addSharer (l : List Nat) (a : Nat) : List Nat :=
  if coarse l then addOnce l (clusterMark (agentCluster a))
  else if l.contains a then l
  else if l.length < 4 then l ++ [a]
  else (l ++ [a]).foldl (fun m b => addOnce m (clusterMark (agentCluster b))) []
/-- Whether a sharer set lists an agent. -/
def lists (l : List Nat) (a : Nat) : Bool := l.contains a || l.contains (clusterMark (agentCluster a))
/-- The cores of a cluster. -/
def coresOf (k : Nat) : List Nat := (List.range 256).map fun i => 256 * k + i
/-- The cores that a set of T-sharers stands for (04 R94). -/
def tagents (l : List Nat) : List Nat := l.flatMap fun a => if 2 ^ 20 ≤ a then coresOf (a - 2 ^ 20) else [a]
/-- The caching agents that a sharer set stands for (06 R133). -/
def agents (l : List Nat) : List Nat :=
  l.flatMap fun a => if 2 ^ 20 ≤ a then
      coresOf (a - 2 ^ 20) ++ (coresOf (a - 2 ^ 20)).map (8192 + ·) ++ (coresOf (a - 2 ^ 20)).map (16384 + ·) ++
        (List.range 32).map fun i => 24576 + 32 * (a - 2 ^ 20) + i
    else [a]
/-- Removes a caching agent from the sharers; one that is recorded by its cluster stays recorded. -/
def HomeUnit.leave (h : HomeUnit) (agent : Nat) : HomeUnit :=
  let l := h.sharers.filter fun a => a != agent
  { h with sharers := l, dir := if l = [] then .i else h.dir }

/-! ### L1 copies (01 R437, 06 R134, R138, R145) -/

def Core.copy? (k : Core) (u : Nat) (cls : Cls) : Option Copy := k.l1.find? fun c => c.unit == u && decide (c.cls = cls)
/-- The copy of a unit, of whatever class: one frame has one copy (01 R437). -/
def Core.copyOf (k : Core) (u : Nat) : Option Copy := k.l1.find? fun c => c.unit == u
def Core.dropCopy (k : Core) (u : Nat) (cls : Cls) : Core :=
  { k with l1 := k.l1.filter fun c => !(c.unit == u && decide (c.cls = cls)) }
/-- Puts a copy at the most recently used position, as the one copy of its unit. -/
def Core.putCopy (k : Core) (c : Copy) : Core := { k with l1 := c :: k.l1.filter fun x => x.unit != c.unit }
/-- Marks a copy most recently used. -/
def Core.touchCopy (k : Core) (u : Nat) (cls : Cls) : Core :=
  match k.copy? u cls with
  | some c => k.putCopy c
  | none => k
/-- Era drop: copies whose stamp's era is (ITER[15:14] + 2) mod 4 leave (06 R145). -/
def Core.eraDrop (k : Core) (iter : BitVec 16) : Core :=
  { k with l1 := k.l1.filter fun c => !(decide (c.cls = .stamped) && decide (c.stamp.toNat / 16384 = (iter.toNat / 16384 + 2) % 4)) }

/-! ### Lines of a virtual cache (05 R117, R118) -/

def VLine.unitAt (l : VLine) (j : Nat) : VUnit := tget l.units j { data := 0, tag := none, stamp := 0, poison := false }
/-- A line as HBM holds it. -/
def State.fillLine (s : State) (vcid : Nat) (p : Spot) : VLine :=
  let n := p.geo.line / 128
  { vcid := vcid, lay := p.lay, core := p.core, set := p.set, li := p.li, dirty := false,
    units := (List.range n).map fun j => (j, s.hbmUnit (p.li * n + j)) }
/-- Writes a line's units to HBM. -/
def State.flushLine (s : State) (g : Geo) (l : VLine) : State :=
  l.units.foldl (fun s p => s.setHbm (l.li * (g.line / 128) + p.1) p.2) s

/-- The units of a line. -/
def VLine.unitNums (l : VLine) (g : Geo) : List Nat := (List.range (g.line / 128)).map fun j => l.li * (g.line / 128) + j

/-- A grant of a unit is on its way. -/
def State.grantInFlight (s : State) (vcid u : Nat) : Bool :=
  s.net.any fun f => match f.pkt with
    | .grant u' v' _ _ _ _ _ => u' == u && v' == vcid
    | _ => false

/-- Whether an access of a core waits in the queue of a blocked page, or for its replay: it is withdrawn from its old
translation (04 R96). -/
def State.heldBack (s : State) (c : Nat) (o : Op) (l : Lane) : Bool :=
  match l.place with
  | .unit vcid _ _ pa => s.net.any fun f => (decide (f.hold = .replay) || s.pages.any fun p => p.queue.contains f.id) && (match f.pkt with
    | .ownReq u v _ c' _ => c' == c && u == pa / 128 && v == vcid
    | .stStore c' op u => c' == c && op == o.id && u == pa / 128
    | .stRead c' op u => c' == c && op == o.id && u == pa / 128
    | _ => false)
  | _ => false
/-- Whether an access in flight of a core was translated through an entry derived from unit u (04 R95 step 3). A channel's write that takes its
turn at a blocked page translates again (04 R96). -/
def State.usesSource (s : State) (c u : Nat) : Bool :=
  ((s.core c).ops.any fun o => o.lanes.any fun l => !l.done && l.srcs.contains u && !s.heldBack c o l) ||
    s.channels.any fun p => s.forwarded p.2.core == c && p.2.beats.any fun b => b.srcs.contains u && !s.net.any fun f => match f.pkt with
      | .copyTurn n _ va => n == p.1 && va == b.va
      | _ => false
/-- Removes from both TLBs the entries that list unit u among their sources (04 R95 step 3). -/
def Core.dropDerived (k : Core) (u : Nat) : Core :=
  { k with l1tlb := k.l1tlb.filter (fun e => !e.srcs.contains u), l2tlb := k.l2tlb.filter (fun e => !e.srcs.contains u) }
/-- Whether a TLB entry of a core is derived from unit u. -/
def Core.derives (k : Core) (u : Nat) : Bool := k.l1tlb.any (fun e => e.srcs.contains u) || k.l2tlb.any (fun e => e.srcs.contains u)

/-- What an agent that acts at a home in one step finds. -/
inductive AtHome (α : Type) where
  | done (s : State) (a : α)
  | busy (s : State)

/-- The channel that owns a unit as a caching agent (06 R135). -/
def State.copyOwner (s : State) (vcid u : Nat) : Option Nat := (s.channels.find? fun p => p.2.own.contains (vcid, u)).map fun p => p.1
/-- Whether a tile fetch unit has pinned a unit (09 R208). -/
def State.pinned (s : State) (vcid u : Nat) : Bool := s.cores.any fun p => p.2.mxbuf.any fun q => q.pin == some (vcid, u)

/-! ### Waiting at a home (04 R95, 18 R369) -/

/-- The agent that an instruction of a context is. -/
def ctxAgent (c x seq : Nat) : Writer := .agent 0 (x + 16 * c + 2 ^ 17 * seq)
/-- The agent of the instruction that issues. -/
def State.myAgent (s : State) : Writer := ctxAgent s.curCore s.curCtx s.me.seq
/-- Whether an agent that has come to a home still has the work that it came for. -/
def State.waits (s : State) (w : Writer) : Bool :=
  let live (c x : Nat) : Bool := decide ((s.ctx c x).st ≠ .halted) && decide ((s.ctx c x).st ≠ .dormant)
  match w with
  | .msg id => s.net.any fun f => f.id == id && decide (f.hold = .flying)
  | .chan n => let c := tget s.channels n Channel.reset; c.busy && !c.cancel && c.fail.isNone
  | .agent 0 n | .agent 1 n => live (n / 16 % 8192) (n % 16) && (s.ctx (n / 16 % 8192) (n % 16)).seq == n / 2 ^ 17
  | .agent 2 q => let d := tget s.queues q Queue.reset; d.launch.isSome || fld d.w1 62 2 == 1
  | .agent 3 c => (s.core c).mxq != []
  | .agent 7 c => (s.core c).mxq != []
  | .agent 4 v => (s.cdr v).w0.getLsbD 63
  | .agent 5 c => decide ((s.ctx c 0).st = .dormant) && (s.core c).queue.isSome
  | .agent 6 n => (tget s.routers (n % 8192) Router.reset).slots.any fun x => x.gid == n / 8192
  | .agent _ _ => false
  | .other => false
/-- The first of the agents that wait at a home. -/
def State.firstAt (s : State) (vcid u : Nat) : Option Writer := ((s.home vcid u).queue.find? fun p => s.waits p.1).map fun p => p.1
/-- Whether it is an agent's turn at a home: no other has come before it. Reads of a pinned unit are served at once (06 R136). -/
def State.turnAt (s : State) (w : Writer) (vcid u : Nat) (excl : Bool) : Bool :=
  (!excl && s.pinned vcid u) || (match s.firstAt vcid u with
    | some x => decide (x = w)
    | none => true)
/-- An agent waits at a home, behind those that came before it. -/
def State.waitAt (s : State) (w : Writer) (vcid u : Nat) (excl : Bool) : State :=
  if w = .other || (s.home vcid u).queue.any (fun p => decide (p.1 = w)) then s
  else s.modHome vcid u fun h => { h with queue := (h.queue.filter fun p => s.waits p.1) ++ [(w, excl)] }
/-- An agent that has had its turn at a home waits there no more. -/
def State.unwait (s : State) (w : Writer) (vcid u : Nat) : State :=
  if (s.home vcid u).queue.isEmpty then s else s.modHome vcid u fun h => { h with queue := h.queue.filter fun p => decide (p.1 ≠ w) }
/-- Whether an agent has come to the home of a unit and waits there: no block of its page and no migration of its set turns it away. -/
def State.cameTo (s : State) (w : Writer) (u : Nat) : Bool :=
  s.homes.any fun p => p.1 / 256 == u && p.2.queue.any fun q => decide (q.1 = w)

/-- The set of a RESIZING cache that a unit is in, on its member, while it waits to migrate or its held requests are replayed (05 R123). -/
def State.setHold (s : State) (vcid u : Nat) : Option SetHold :=
  s.setHolds.find? fun h => h.vcid == vcid && decide (Geo.place h.geo (s.paOf u) none = (h.core, h.set))
/-- Whether a request may act at its unit as far as a resize goes: its set neither waits to migrate nor has other held requests to
replay first, and no pin keeps the unit at its old home (05 R123, R125). The reads of a tile fetch unit, which a pin may wait for, wait for
none of these (09 R209). -/
def State.setLets (s : State) (w : Writer) (vcid u : Nat) : Bool :=
  match w with
  | .agent 3 _ => true
  | _ => (tget? (s.cdr vcid).stay u).isNone && (match s.setHold vcid u with
    | none => true
    | some h => !h.moving && (s.cameTo w u || (match w, h.queue with
      | .msg id, i :: _ => i == id
      | _, _ => h.queue.isEmpty)))
/-- Whether nothing is being served or granted at a home, and no translation of the unit is being invalidated there (06 R134, 04 R95). -/
def State.calm (s : State) (vcid u : Nat) : Bool :=
  decide ((s.home vcid u).busy = none) && !s.grantInFlight vcid u && (s.home vcid u).tacks.isEmpty && (s.copyOwner vcid u).isNone
/-- Whether an agent may act at a unit's home at once: it is its turn, nothing is being served or granted there, and no translation of the
unit is being invalidated (06 R134, 04 R95); a channel that owns the unit alone acts there (06 R135). -/
def State.homeIdle (s : State) (w : Writer) (vcid u : Nat) (excl : Bool) : Bool :=
  let h := s.home vcid u
  decide (h.busy = none) && !s.grantInFlight vcid u && h.tacks.isEmpty && s.turnAt w vcid u excl &&
    (match s.copyOwner vcid u with
      | some n => decide (w = .chan n)
      | none => true)
/-- The same, where a resize lets the agent act too. -/
def State.homeFree (s : State) (w : Writer) (vcid u : Nat) (excl : Bool) : Bool := s.homeIdle w vcid u excl && s.setLets w vcid u
/-- Asks the T-sharers of a unit to give up their entries, unless they have been asked (04 R95 steps 1 and 2). -/
def State.askSharers (s : State) (vcid u : Nat) : State :=
  let h := s.home vcid u
  if h.tshare.isEmpty || !h.tacks.isEmpty then s else
  let l := tagents h.tshare
  l.foldl (fun s c => s.send (.tinv u vcid c false)) (s.modHome vcid u fun h => { h with tacks := l })

/-! ### Pages that are not OPEN, and sets that migrate (04 R102, 05 R123) -/

/-- Whether a page that is not OPEN holds a PA (04 R102). -/
def PageBlk.has (p : PageBlk) (pa : Nat) : Bool :=
  let sz := match p.size with
    | 0 => 4096
    | 1 => 65536
    | 2 => 2097152
    | 3 => 67108864
    | _ => 1073741824
  decide (p.base ≤ pa) && decide (pa < p.base + sz)
/-- The block state of the page of a PA. Of blocked pages of different sizes that overlap, the one blocked last decides (assumption 59,
DESIGN CHOICE, unsafe). -/
def State.blockOf (s : State) (pa : Nat) : Option PageBlk := s.pages.find? fun p => p.has pa
def State.page? (s : State) (base size : Nat) : Option PageBlk := s.pages.find? fun p => p.base == base && p.size == size
def State.setPage (s : State) (p : PageBlk) : State :=
  { s with pages := p :: s.pages.filter fun q => !(q.base == p.base && q.size == p.size) }
def State.dropPage (s : State) (p : PageBlk) : State :=
  { s with pages := s.pages.filter fun q => !(q.base == p.base && q.size == p.size) }
/-- Changes where messages stand. -/
def State.holdAll (s : State) (ids : List Nat) (h : Hold) : State :=
  { s with net := mapIf (fun f => ids.contains f.id) (fun f => { f with hold := h }) s.net }
/-- A page with replay slots ahead of its own queue (04 R102); with nothing to wait for it is OPEN. -/
def State.startReplay (s : State) (p : PageBlk) (slots : List Nat) : State :=
  let all := slots ++ p.queue
  let s := s.holdAll p.queue .flying
  if all.isEmpty then s.dropPage p else s.setPage { p with st := .replaying, queue := [], slots := all, moved := [] }
/-- A slot is settled: when the last one is, the accesses held behind it follow in arrival order, and the page opens when
none is left (04 R102). -/
def State.settleSlot (s : State) (id : Nat) : State :=
  match s.pages.find? fun p => p.slots.contains id with
  | none => s
  | some p =>
    let p := { p with slots := p.slots.filter fun i => i != id }
    if p.slots.isEmpty then s.startReplay p [] else s.setPage p
/-- A held request of a set that has migrated has acted: the next one follows (05 R123). -/
def State.settleSet (s : State) (id : Nat) : State :=
  if s.setHolds.all fun h => !h.queue.contains id then s else
  { s with setHolds := (s.setHolds.map fun h => { h with queue := h.queue.filter fun i => i != id }).filter fun h => h.moving || !h.queue.isEmpty }
/-- A message has acted: it leaves, and its slot is settled. -/
def State.acted (s : State) (id : Nat) : State := ((s.drop id).settleSlot id).settleSet id
/-- Messages that are given up leave, and so do their places in the queues of blocked pages. -/
def State.withdraw (s : State) (ids : List Nat) : State :=
  let s := ids.foldl (fun s id => s.acted id) s
  if ids.isEmpty then s else
  { s with pages := s.pages.map fun p => { p with queue := p.queue.filter (fun i => !ids.contains i), moved := p.moved.filter (fun i => !ids.contains i) } }
/-- The message that keeps an agent's place at a page that is not OPEN. -/
def State.turnOf (s : State) (w : Writer) : Option Flight :=
  s.net.find? fun f => match f.pkt with
    | .turn x _ => decide (x = w)
    | _ => false
/-- Whether an access may act at a unit as far as the block state of its page goes (04 R102): the page is OPEN, or the access came to its home
before it was blocked, or it holds the page's next replay slot. An agent that acts in one step takes its place in the page's queue by a
message, which returns to it as a replay: it has translated again then, and takes its slot at the new page or settles it. -/
def State.pageGate (s : State) (w : Writer) (u : Nat) : State × Bool :=
  match s.turnOf w, s.blockOf (128 * u) with
  | none, none => (s, true)
  | some f, none => (s.withdraw [f.id], true)
  | none, some p =>
    if s.cameTo w u then (s, true) else (match w with
      | .msg id => (s, decide (p.st = .replaying) && p.slots.head? == some id)
      | .agent _ _ => (s.send (.turn w u), false)
      | _ => (s, false))
  | some f, some p =>
    if f.hold = .replay then
      (if p.slots.contains f.id then s.setFlight { f with hold := .flying, pkt := .turn w u } else s.withdraw [f.id], false)
    else if f.pkt ≠ .turn w u then (s.withdraw [f.id], false)
    else if f.hold = .flying ∧ p.st = .replaying ∧ p.slots.head? = some f.id then (s, true)
    else (s, false)
/-- An agent that has acted has settled its slot. -/
def State.turnOver (s : State) (w : Writer) : State := match s.turnOf w with | some f => s.withdraw [f.id] | none => s

/-! ### Lines of a virtual cache: leaving and arriving (05 R115, R120) -/

/-- Whether two lines are the same line of the same layout. -/
def VLine.same (a b : VLine) : Bool := a.vcid == b.vcid && a.lay == b.lay && a.core == b.core && a.li == b.li
/-- The line of a spot. -/
def State.vline? (s : State) (vcid : Nat) (p : Spot) : Option VLine :=
  s.vlines.find? fun l => l.vcid == vcid && l.lay == p.lay && l.core == p.core && l.li == p.li
/-- Removes a line. -/
def State.delLine (s : State) (l : VLine) : State :=
  { s with vlines := s.vlines.filter fun x => !x.same l }
/-- Updates a line in its place in the order. -/
def State.setLine (s : State) (l : VLine) : State :=
  { s with vlines := mapIf (fun x => x.same l) (fun _ => l) s.vlines }
/-- Moves a line to the most recently used position. -/
def State.touchLine (s : State) (l : VLine) : State := let t := s.delLine l; { t with vlines := l :: t.vlines }

/-- Drops the TRACKED copy of a unit from an instruction cache that has one. -/
def State.dropTrackedCode (s : State) (c u : Nat) : State :=
  if (s.core c).icache.any fun i => i.unit == u && decide (i.cls = .tracked) then
    s.modCore c fun k => { k with icache := k.icache.filter fun i => i.unit != u || decide (i.cls ≠ .tracked) }
  else s
/-- Writes back and drops the TRACKED copy of a unit that a core's L1 holds: its data joins the unit in the line under the copy's key
(06 R134, 05 R120, 04 R84). `put` stores data at the home. -/
def State.recallCopy (s : State) (put : State → Nat → Copy → State) (c vcid u : Nat) : State :=
  match (s.core c).copy? u .tracked with
  | none => s
  | some cp => if cp.vcid ≠ vcid then s else
    let s := if cp.st = .m then put s u cp else s
    s.modCore c fun k => k.dropCopy u .tracked
/-- Data that an L1 returns joins its unit in a line, under the key it was written with; under WT it goes to HBM too (05 R118, 04 R84). -/
def State.putInLine (s : State) (g : Geo) (l : VLine) (u : Nat) (cp : Copy) : State :=
  let n := g.line / 128
  match s.vlines.find? fun x => x.same l with
  | none => s
  | some l =>
    let v : VUnit := { (l.unitAt (u % n)).under cp.key with data := cp.data, poison := cp.poison }
    let s := s.setLine { l with dirty := l.dirty || g.policy != 1, units := tset l.units (u % n) v }
    if g.policy = 1 then s.setHbm u v else s
/-- The L1 copies of a unit of a line are recalled into it: step 1 of 05 R120. -/
def State.recallInto (s : State) (g : Geo) (l : VLine) (u : Nat) : State :=
  let ags := agents (s.home l.vcid u).sharers
  if ags.isEmpty then s else
  let s := (ags.filter fun a => decide (a < 8192)).foldl (fun s c => s.recallCopy (fun s u cp => s.putInLine g l u cp) c l.vcid u) s
  let s := (ags.filter fun a => decide (8192 ≤ a ∧ a < 16384)).foldl (fun s a => s.dropTrackedCode (a - 8192) u) s
  s.modHome l.vcid u fun h =>
    let pins := h.sharers.filter fun a => decide (16384 ≤ a)
    { h with sharers := pins, dir := if pins.isEmpty then .i else .s }
/-- The stamps and poison bits of a clean line go to HBM's metadata: step 4 of 05 R120. Nothing leaves an RO cache for HBM (05 R118). -/
def State.flushMeta (s : State) (g : Geo) (l : VLine) : State :=
  if g.policy = 3 then s else
  l.units.foldl (fun s p =>
    let u := l.li * (g.line / 128) + p.1
    let m := s.umeta? u
    if m.stamp = p.2.stamp ∧ m.poison = p.2.poison then s
    else { s with umeta := tset s.umeta u { m with stamp := p.2.stamp, poison := p.2.poison } }) s
/-- A line leaves (05 R120): L1 copies of its TRACKED units are recalled, then dirty data and the metadata go to HBM. The homes of its
units must be free, without T-sharers and pins. -/
def State.evictLine (s : State) (g : Geo) (l : VLine) : State :=
  let s := (l.unitNums g).foldl (fun s u => s.recallInto g l u) s
  match s.vlines.find? fun x => x.same l with
  | some l => (if l.dirty then s.flushLine g l else s.flushMeta g l).delLine l
  | none => s

/-- Whether a unit's set has just migrated on the line's side: the line stands in the new layout already (05 R124). -/
def State.arrivedLine (s : State) (l : VLine) : Bool := l.lay != (s.cdr l.vcid).epoch.toNat
/-- Whether every unit of a line may leave now: nothing is served or held there, no T-sharer is recorded, no unit is pinned (05 R120). -/
def State.lineFree (s : State) (g : Geo) (l : VLine) : Bool :=
  (l.unitNums g).all fun u => s.homeIdle .other l.vcid u true && (s.setLets .other l.vcid u || s.arrivedLine l) &&
    (s.home l.vcid u).tshare.isEmpty && !s.pinned l.vcid u
/-- A line that is to leave recalls its L1 copies, and asks its T-sharers, as far as nothing is being served there (05 R120 steps 1 and 2). -/
def State.pressLine (s : State) (g : Geo) (l : VLine) : State :=
  (l.unitNums g).foldl (fun s u => if s.homeIdle .other l.vcid u true then (s.recallInto g l u).askSharers l.vcid u else s) s

/-- The line that has to leave before a line comes to a spot (05 R115). -/
def State.victim (s : State) (vcid : Nat) (p : Spot) : Option VLine :=
  let here := s.vlines.filter fun l => l.vcid == vcid && l.lay == p.lay && l.core == p.core && l.set == p.set
  if here.length < p.geo.ways then none else here.getLast?
/-- Makes room in a full set: its least recently used line goes, as soon as it may (05 R115). False when it has to wait. -/
def State.makeRoom (s : State) (vcid : Nat) (p : Spot) : State × Bool :=
  match s.victim vcid p with
  | none => (s, true)
  | some l => if s.lineFree p.geo l then (s.evictLine p.geo l, true) else (s.pressLine p.geo l, false)
/-- Whether a unit's line is absent, and the one that would leave for it holds a pinned unit. -/
def State.pinBars (s : State) (vcid u : Nat) (req : Option Nat) : Bool :=
  let p := s.spot vcid u req
  (s.vline? vcid p).isNone && (s.victim vcid p).any fun l => (l.unitNums p.geo).any fun x => s.pinned vcid x

/-- Allocates a line: most recently used, or at the least recently used position under EF (05 R118). -/
def State.allocLine (s : State) (g : Geo) (l : VLine) : State :=
  if g.policy = 4 then { s with vlines := s.vlines ++ [l] } else { s with vlines := l :: s.vlines }

/-- Brings a unit's line into its cache for an access: a hit makes it most recently used, except under EF; a miss allocates, except
for a write under NA (05 R115, R118). A write never touches an RO cache (05 R119). A record that is FREE or DEFINED has no lines. It waits for the
line that has to leave first. -/
def State.fillFor (s : State) (vcid u : Nat) (req : Option Nat) (write : Bool) : AtHome Unit :=
  let p := s.spot vcid u req
  if (s.cdr vcid).state ≤ 1 || (write && p.geo.policy == 3) then .done s () else
  match s.vline? vcid p with
  | some l => .done (if p.geo.policy = 4 then s else s.touchLine l) ()
  | none =>
    if write && p.geo.policy == 2 then .done s () else
    match s.makeRoom vcid p with
    | (s, false) => .busy s
    | (s, true) => .done (s.allocLine p.geo (s.fillLine vcid p)) ()
/-- The state of a step at a home, whether it waits or not. -/
def AtHome.after {α : Type} (a : AtHome α) : State := match a with | .done s _ => s | .busy s => s

/-- A unit as it stands at its place: in its line, or in HBM. -/
def State.peekVc (s : State) (vcid u : Nat) (req : Option Nat) : VUnit :=
  let p := s.spot vcid u req
  match s.vline? vcid p with
  | some l => l.unitAt (u % (p.geo.line / 128))
  | none => s.hbmUnit u
/-- The unit at its place in a virtual cache, allocating on a read miss (05 R118). `req` is the requester under LOCAL
placement. -/
def State.readVc (s : State) (vcid u : Nat) (req : Option Nat) : State × VUnit :=
  let s := (s.fillFor vcid u req false).after
  (s, s.peekVc vcid u req)

/-- A unit as a write finds it at its home: a replica of an RO cache is never written (05 R119). -/
def State.baseVc (s : State) (vcid u : Nat) : VUnit :=
  if (s.spot vcid u none).geo.policy = 3 then s.hbmUnit u else s.peekVc vcid u none
/-- The unit that an atomic of an UNTRACKED page or of a packet finds at its home. It allocates as a read miss does (assumption 71, DESIGN
CHOICE, unsafe). -/
def State.atomicBase (s : State) (vcid u : Nat) : State × VUnit :=
  if (s.spot vcid u none).geo.policy = 3 then (s, s.hbmUnit u) else s.readVc vcid u none
/-- Writes a unit at its home under the write policy (05 R118): a line that the write finds takes it, and HBM takes every write under WT,
and one that finds no line. A replica of an RO cache is never updated (05 R119). -/
def State.writeVc (s : State) (vcid u : Nat) (v : VUnit) : State :=
  let p := s.spot vcid u none
  if p.geo.policy = 3 then s.setHbm u v else
  match s.vline? vcid p with
  | some l =>
    let s := s.setLine { l with units := tset l.units (u % (p.geo.line / 128)) v, dirty := l.dirty || p.geo.policy != 1 }
    if p.geo.policy = 1 then s.setHbm u v else s
  | none => s.setHbm u v

/-! ### Lanes on a unit -/

/-- The result of a lane on a unit: the bytes read, the unit it leaves when it writes, and whether it consumed poison. -/
structure LaneRes where
  old : Vec
  new : Option Unit128
  poison : Bool

/-- The new value of an atomic (08 R185) or of tcancel (12: 14 R303); `n` bytes. -/
def amoNew (op n old b : Nat) : Nat :=
  let w := 8 * n
  let sl (x y : Nat) : Bool := decide (signedOf w x < signedOf w y)
  match op with
  | 0 => (old + b) % 2 ^ w
  | 1 => old &&& b
  | 2 => old ||| b
  | 3 => old ^^^ b
  | 4 => if sl b old then b else old
  | 5 => if sl old b then b else old
  | 6 => if b < old then b else old
  | 7 => if old < b then b else old
  | 12 => if old.testBit 2 then old ||| 1 else old ||| 8
  | 9 => fp32.encode .ieee .rne ((fp32.decode old).add .rne (fp32.decode b))
  | _ => b

/-- Whether a lane reads its bytes, and so consumes poison (08 R176). -/
def LaneOp.reads (o : LaneOp) : Bool := match o with | .write _ _ => false | .save _ _ => false | .later => false | _ => true
def LaneOp.writes (o : LaneOp) : Bool := match o with | .read => false | .chase _ _ _ => false | _ => true

/-- The poison bit of a unit after a lane has written to it: only tsave, which writes units whole, sets or clears it here (08
R176, 13 R272). -/
def LaneOp.poisonAfter (o : LaneOp) (p : Bool) : Bool := match o with | .save _ q => q | _ => p

/-- What a lane makes of the n bytes it names: the bytes it leaves, when it writes (08 R178, R186, R187). -/
def LaneOp.apply (o : LaneOp) (n old : Nat) : Option Nat :=
  match o with
  | .read => none
  | .write data mask => some (old - (old &&& mask.toNat) + (data.toNat &&& mask.toNat))
  | .amo op m b => some (amoNew op m old (b.toNat % 2 ^ (8 * m)))
  | .cas m e x => if old = e.toNat % 2 ^ (8 * m) then some (x.toNat % 2 ^ (8 * m)) else none
  | .cas2 _ v => if old = bitsOf v.toNat 0 (8 * n) then some (bitsOf v.toNat (8 * n) (8 * n)) else none
  | .save d _ => some (d.toNat % 2 ^ (8 * n))
  | .later => none
  | .enq _ _ => none
  | .chase _ _ _ => none

/-- The n bytes at an offset of a unit. -/
def unitGet (u : Unit128) (off n : Nat) : Nat := bitsOf u.toNat (8 * off) (8 * n)
/-- Replaces the n bytes at an offset of a unit. -/
def unitPut (u : Unit128) (off n v : Nat) : Unit128 := BitVec.ofNat 1024 (setBits u.toNat (8 * off) (8 * n) v)

/-- A lane on a unit. -/
def Lane.on (l : Lane) (off : Nat) (u : Unit128) (poison : Bool) : LaneRes :=
  let old := unitGet u off l.n
  if poison && l.op.reads then { old := 0, new := none, poison := true }
  else { old := BitVec.ofNat 512 old, new := (l.op.apply l.n old).map fun v => unitPut u off l.n v, poison := false }

/-! ### Sending packets (18 R372 to R374) -/

/-- Whether the device may send and accept packets (18 R373). -/
def State.fabricUp (s : State) : Bool := s.dev.fabcfg.getLsbD 62 && s.dev.fabcfg.getLsbD 63

/-- The port towards a device by the formulas of the standard cabling: local ports 0 to 30, global ports 31 to 46 (18 R372, R374). -/
def minimalPort (me dev : Nat) : Nat :=
  let g := me / 32
  let h := dev / 32
  let i := me % 32
  let hop (p : Nat) : Nat := (p + 32 - i - 1) % 32
  if g = h then hop (dev % 32)
  else
    let j := (h + 512 - g - 1) % 512
    if j / 16 = i then 31 + j % 16 else hop (j / 16)
/-- The port of the far end at which a packet that leaves by a port arrives: local port 30 − p, and of global link j link 510 − j, at the
position of its group that has that link (18 R372). -/
def farPort (me p : Nat) : Nat := if p < 31 then 30 - p else 31 + (510 - (16 * (me % 32) + (p - 31))) % 16
/-- The device at the far end of a port (18 R372). -/
def farDevice (me p : Nat) : Nat :=
  let g := me / 32
  let i := me % 32
  if p < 31 then 32 * g + (i + p + 1) % 32
  else let j := 16 * i + (p - 31); 32 * ((g + j + 1) % 512) + (510 - j) / 16
/-- The port that a packet to a device leaves by on the minimal route: what the fabric manager has written, or the standard cabling's (18
R372, R374). -/
def State.portTo (s : State) (dev : Nat) : Nat := (tget? s.routes dev).getD (minimalPort s.devNum dev)
/-- Whether a device is of the partition (18 R373). -/
def State.inPartition (s : State) (dev : Nat) : Bool := decide (fld s.dev.fabcfg 35 9 ≤ dev / 32) && decide (dev / 32 ≤ fld s.dev.fabcfg 44 9)
/-- The devices that a detour may pass: within one group another position, else a device of an intermediate group of the partition (18
R374). -/
def State.detours (s : State) (dev : Nat) : List Nat :=
  let g := s.devNum / 32
  if g = dev / 32 then ((List.range 32).map fun i => 32 * g + i).filter fun m => m != s.devNum && m != dev
  else
    let first := fld s.dev.fabcfg 35 9
    ((List.range (fld s.dev.fabcfg 44 9 + 1 - first)).map fun i => 32 * (first + i)).filter fun m => m / 32 != g && m / 32 != dev / 32
/-- The device that a detour would pass: which of them is free (assumption 34). -/
def State.detourVia (s : State) (dev : Nat) : Option Nat :=
  let l := s.detours dev
  if l.isEmpty then none else l[Config.detour s.nextId % l.length]?
def State.port (s : State) (i : Nat) : Port := tget s.ports i Port.reset
/-- Where a packet goes next and what it has still to pass: its port, and the device of its detour (18 R374, R375). One whose unit has an
unanswered packet of its core takes that packet's route; one that another device has sent on a detour goes on towards it until it stands in its
group, and minimally from then on; any other begins
the detour when the minimal port's queue holds more than twice the flits of the detour's, but not past a port that has left adaptive routing
(18 R380). -/
def State.route (s : State) (dev : Nat) (p : Packet) : Nat × Option Nat :=
  let m := s.portTo dev
  let prior := s.net.findSome? fun f => match f.pkt with
    | .pktOut q _ k => if f.hold = .flying ∧ q.begunAt s.devNum ∧ p.follows q then some (k, q.via) else none
    | _ => none
  if !p.begunAt s.devNum then (match p.via with
    | some v => if v / 32 = s.devNum / 32 then (m, none) else (s.portTo v, some v)
    | none => (m, none))
  else match prior, s.detourVia dev with
    | some r, _ => r
    | none, some v =>
      let d := s.portTo v
      if 2 * (s.port d).flits < (s.port m).flits ∧ !(s.port m).adaptiveOff ∧ !(s.port d).adaptiveOff then (d, some v) else (m, none)
    | none, none => (m, none)
/-- Hands a packet for a device to its port (18 R374); a device that may not send does not, and no route leaves the partition (18 R373,
R374). -/
def State.transmit (s : State) (dev : Nat) (p : Packet) : State :=
  if !s.fabricUp || !s.inPartition dev then s else
  let (k, via) := s.route dev p
  let p := { p with via := via }
  let t : State := { s with ports := tset s.ports k { s.port k with tx := (s.port k).tx ++ [p] } }
  t.send (.pktOut p s.clock k)

/-! ### What an L1 returns and takes (06 R134, R138; 01 R437) -/

/-- The object's waiters that are launch sequencers keep the answer (16 R338): queue q waits as core 8192 + q. -/
def State.answerQueue (s : State) (w : BWaiter) (abort : Bool) : State :=
  let q := w.core - 8192
  match tget? s.queues q with
  | some d => { s with queues := tset s.queues q { d with launch := d.launch.map fun l => { l with answered := some abort } } }
  | none => s
/-- Answers the waiters of an object; `abort` is its ABORT (15 R318). -/
def State.answerBarrier (s : State) (pa : Nat) (abort : Bool) : State :=
  let now := s.bWaiters.filter fun w => w.addr == pa
  now.foldl (fun s w => if 8192 ≤ w.core then s.answerQueue w abort else s.send (.bwaitAns w.core w.ctx))
    { s with bWaiters := s.bWaiters.filter fun w => w.addr != pa }

/-- After a write of a unit, waiters of every object in it whose ABORT is set are answered (15 R318). -/
def State.answerAborted (s : State) (u : Nat) (d : Unit128) : State :=
  (s.bWaiters.filter fun w => w.addr / 128 == u && (unitGet d (w.addr % 128) 32).testBit 96).foldl
    (fun s w => s.answerBarrier w.addr true) s

/-- Data that an L1 wrote back reaches the home: the whole unit, with its poison bit; the unit's stamp
stays (06 R134, R140). -/
def State.writeBackUnit (s : State) (vcid key u : Nat) (d : Unit128) (poison : Bool) : State :=
  let s := (s.fillFor vcid u none true).after
  let v := { (s.baseVc vcid u).under key with data := d, poison := poison }
  (s.writeVc vcid u v).answerAborted u v.data

/-- A TRACKED copy of a core's L1 goes back to its home and leaves, or stays in S (06 R134). -/
def State.giveUp (s : State) (c u : Nat) (drop : Bool) : State :=
  match (s.core c).copy? u .tracked with
  | none => s
  | some cp =>
    let s := if cp.st = .m then s.writeBackUnit cp.vcid cp.key u cp.data cp.poison else s
    if drop then (s.modCore c fun k => k.dropCopy u .tracked).modHome cp.vcid u fun h => h.leave c
    else (s.modCore c fun k => { k with l1 := mapIf (fun x => x.unit == u && decide (x.cls = .tracked)) (fun x => { x with st := .s }) k.l1 }).modHome
      cp.vcid u fun h => { h with dir := .s }

/-- The number under which an L1 tags a unit of another device: its whole physical address, apart from every local unit's (01 R437). -/
def remoteUnit (pa : Nat) : Nat := 2 ^ 49 + pa / 128

/-- Whether a core's L1 holds words that UNTRACKED stores of a context have left there (06 R138, 07 R159). -/
def Core.dirtyFor (k : Core) (x : Nat) : Bool := k.l1.any fun c => decide (c.cls = .untracked) && c.dirty != 0 && c.writers.contains x
/-- Whether words of a context, or of its cache maintenance, are on their way to their homes (06 R138, 08 R190). -/
def State.wordsOut (s : State) (c x : Nat) : Bool :=
  s.net.any fun f => match f.pkt with
    | .writeBack c' l _ _ _ _ _ _ => c' == c && l.contains x
    | _ => false
/-- Drops a copy from an L1 after returning what it holds dirty: TRACKED data to its home at once, dirty UNTRACKED words by a message (06
R134, R138). -/
def State.castOut (s : State) (c : Nat) (cp : Copy) : State :=
  match cp.cls with
  | .tracked => s.giveUp c cp.unit true
  | .untracked =>
    let s := s.modCore c fun k => k.dropCopy cp.unit .untracked
    if cp.dirty = 0 then s else s.send (.writeBack c cp.writers cp.unit cp.vcid cp.key cp.dirty cp.data cp.poison)
  | .stamped => s.modCore c fun k => k.dropCopy cp.unit .stamped
/-- Puts a copy into an L1: another copy of its unit leaves first, and of a set of more than four ways the least recently used one (01
R437). -/
def State.install (s : State) (c : Nat) (cp : Copy) : State :=
  let s := match (s.core c).copyOf cp.unit with
    | some old => if old.cls = cp.cls then s else s.castOut c old
    | none => s
  let s := s.modCore c fun k => k.putCopy cp
  match ((s.core c).l1.filter fun x => x.unit % 64 == cp.unit % 64).drop 4 with
  | [] => s
  | old :: _ => s.castOut c old

/-! ### Stamps and waiters (06 R142 to R151) -/

/-- Age of a stamp for a reader (06 R144). -/
def ageOf (i s : BitVec 16) : Int := (i - s).toInt
/-- Whether a bound accepts a stamp: lag 63 always does (06 R149). -/
def accepts (lag : Nat) (i s : BitVec 16) : Bool := decide (lag = 63) || decide (ageOf i s ≤ lag)
/-- Age word (06 R148). -/
def ageWord (age : BitVec 16) (stale : Bool) : Word :=
  let w : Word := age.signExtend 64
  BitVec.ofNat 64 (bitsOf w.toNat 0 63 + stale.toNat * 2 ^ 63)

/-- Installs a STAMPED copy in an L1 after a reply, unless a store of the core has passed (06 R146); the copy of the unit under another
class stays. -/
def State.installStamped (s : State) (c : Nat) (o : Op) (u vcid key : Nat) (v : VUnit) : State :=
  if o.noInstall || ((s.core c).copyOf u).any (fun x => decide (x.cls ≠ .stamped)) then s else
  s.install c
    { unit := u, vcid := vcid, cls := .stamped, key := key, st := .i, data := v.data,
      stamp := v.stamp, dirty := 0, writers := [], poison := v.poison }

/-- The fault of the lower of two lanes (12 R257). -/
def Op.lower (o : Op) (f g : Option FaultInfo) : Option FaultInfo :=
  match f, g with
  | some a, some b =>
    match o.lanes.find? fun l => l.va == a.addr || l.va == b.addr with
    | some l => if l.va == b.addr then some b else some a
    | none => some a
  | some a, none => some a
  | none, g => g
/-- Completes the STAMPED read lanes of an operation on a unit with a home's DATA reply (06 R149). A reply after the
due cycle is discarded (06 R151). -/
def State.answerRead (s : State) (c id u : Nat) (v : VUnit) (stale : Bool) : State :=
  match (s.core c).op? id with
  | none => s
  | some o =>
    if (match o.due with | some d => decide (d < s.clock) | none => false) then s else
    let mine (l : Lane) : Bool := !l.done && decide (l.op ≠ .later) && (match l.place with
      | .unit _ .stamped _ pa => pa / 128 == u
      | .remote .stamped _ pa => pa / 128 == u
      | _ => false)
    match o.lanes.find? mine with
    | none => s
    | some l0 =>
      let (n, vcid, key) := match l0.place with
        | .unit vc _ key _ => (u, vc, key)
        | .remote _ key pa => (remoteUnit pa, 0, key)
        | _ => (u, 0, 0)
      let v' := v.under key
      let p := v.poisonFor key
      let lanes := mapIf mine (fun l => match l.place with
        | .unit _ _ _ pa => { l with done := true, data := (l.on (pa % 128) v'.data p).old, age := some (o.iter - v'.stamp) }
        | .remote _ _ pa => { l with done := true, data := (l.on (pa % 128) v'.data p).old, age := some (o.iter - v'.stamp) }
        | _ => l) o.lanes
      let f : FaultInfo := { cause := .poison, info := 0, addr := l0.va, undeliv := false }
      let o := { o with lanes := lanes, stale := o.stale || stale, fault := if p && decide (o.fin ≠ .none) then o.lower o.fault (some f) else o.fault }
      (s.setOp c o).installStamped c o n vcid key { v' with poison := p }

/-- A reply of an operation code and status to a request packet: TAG, INC, SRCDEV, SRCCORE and PA are the request's (18 R376). -/
def replyTo (p : Packet) (opc status len : Nat) (stamp : BitVec 16) (stale : Bool) (v : Nat) : Packet :=
  { p with opc := opc, status := status, len := len, stamp := stamp, stale := stale, payload := BitVec.ofNat 2048 v, via := none }
/-- The DATA reply to the LOAD of a STAMPED unit, under the packet's key (18 R377). -/
def replyFor (p : Packet) (v : VUnit) : Packet :=
  if v.poisonFor p.domain then replyTo p 8 1 p.len 0 false 0
  else let w := v.under p.domain; replyTo p 8 0 p.len w.stamp false (unitGet w.data (p.pa.toNat % 128) p.len)

/-- After a write performs at a unit, the home answers each of its waiters, in arrival order, whose bound the new stamp
meets (06 R150). A waiter of another device is answered with a DATA packet. -/
def State.answerWaiters (s : State) (vcid u : Nat) (v : VUnit) : State :=
  let k := homeKey vcid u
  let hit (w : StWaiter) : Bool := w.unit == k && accepts w.lag w.iter v.stamp
  let now := s.stWaiters.filter hit
  let s := { s with stWaiters := s.stWaiters.filter fun w => !hit w }
  now.foldl (fun s w => match w.remote with
    | none => s.answerRead w.core w.op u v false
    | some p => s.transmit p.dev (replyFor p v)) s

/-- A write performs at its home: merging under the writer's key (04 R84), setting the stamp when it carries one (06
R142), clearing poison only when it covers the unit (08 R176), and answering waiters; a write that lowers the stamp answers no
one (06 R150). -/
def State.performAtHome (s : State) (vcid key u : Nat) (f : Unit128 → Unit128) (stamp : Option (BitVec 16)) (full : Bool) : State :=
  let s := (s.fillFor vcid u none true).after
  let old := (s.baseVc vcid u).under key
  let v := { old with data := f old.data, stamp := stamp.getD old.stamp, poison := old.poison && !full }
  let s := s.writeVc vcid u v
  (if ageOf v.stamp old.stamp < 0 then s else s.answerWaiters vcid u v).answerAborted u v.data

/-- Whether a unit's home has to ask the host before an access: its copy must go, or may be newer (06 R137). -/
def HomeUnit.asksHost (h : HomeUnit) (excl : Bool) : Bool := h.host && (excl || h.hostDirty)
/-- Sends the snoop of a unit to the host, unless it is on its way (06 R137). -/
def State.snoopHost (s : State) (vcid u : Nat) (excl : Bool) : State :=
  if (s.home vcid u).snoop then s else (s.modHome vcid u fun h => { h with snoop := true }).send (.bisnp u vcid excl)
/-- Takes a unit at its home in one step: copies held in M return their data; for a write every copy leaves first, and T-sharers
and a pin are waited for (06 R134, R136, 04 R95). When the host may hold it, the snoop leaves and the step waits (06 R137). A write
finds room in the virtual cache before it performs. An agent that has to wait keeps its place in the order of arrival (18 R369, 04 R95). -/
def State.seizeRaw (s : State) (w : Writer) (vcid u : Nat) (excl : Bool) : AtHome Unit :=
  let h := s.home vcid u
  let wait (s : State) : AtHome Unit := .busy (s.waitAt w vcid u excl)
  if !s.turnAt w vcid u excl then wait s
  else if h.asksHost excl then wait (s.snoopHost vcid u excl)
  else if !s.homeFree w vcid u excl then wait s
  else if excl && !h.tshare.isEmpty then wait (s.askSharers vcid u)
  else if excl && s.pinned vcid u then wait s
  else
  let ags := agents h.sharers
  let s := (ags.filter fun a => decide (a < 8192)).foldl (fun s c => match (s.core c).copy? u .tracked with
    | some cp => if excl then s.giveUp c u true else if cp.st = .s then s else s.giveUp c u false
    | none => s) s
  if excl then
    let s := (ags.filter fun a => decide (8192 ≤ a ∧ a < 16384)).foldl (fun s a => s.dropTrackedCode (a - 8192) u) s
    match (s.modHome vcid u fun h => { h with dir := .i, sharers := [] }).fillFor vcid u none true with
    | .busy s => wait s
    | .done s _ => .done (s.unwait w vcid u) ()
  else .done (s.unwait w vcid u) ()

/-- Takes a unit at its home in one step, when its page lets the access act. -/
def State.seize (s : State) (w : Writer) (vcid u : Nat) (excl : Bool) : AtHome Unit :=
  match s.pageGate w u with
  | (s, false) => .busy s
  | (s, true) => match s.seizeRaw w vcid u excl with
    | .busy s => .busy s
    | .done s _ => .done (s.turnOver w) ()

/-- A unit read for a requester, once its home has let the read act: the replica of the requester under LOCAL placement (05 R118). -/
def State.unitFor (s : State) (w : Writer) (vcid key u : Nat) (req : Option Nat) : AtHome VUnit :=
  match s.fillFor vcid u req false with
  | .busy s => .busy (s.waitAt w vcid u false)
  | .done s _ => let v := s.peekVc vcid u req; .done s { v.under key with poison := v.poisonFor key }
/-- A coherent read of a unit in one step; under LOCAL placement it is served by the requester's replica (05 R118). -/
def State.readFor (s : State) (w : Writer) (vcid key u : Nat) (req : Option Nat) : AtHome VUnit :=
  match s.seize w vcid u false with
  | .busy s => .busy s
  | .done s _ => s.unitFor w vcid key u req
/-- A coherent read of a unit at its home in one step. -/
def State.readAtHome (s : State) (w : Writer) (vcid key u : Nat) : AtHome VUnit := s.readFor w vcid key u none
/-- Whether a read of a unit as it stands at its home may act: no L1 copy is recalled, but the host's is, and writes that came before it have
performed (06 R136, R137, 04 R95). -/
def State.plainGate (s : State) (w : Writer) (vcid u : Nat) : AtHome Unit :=
  if !s.turnAt w vcid u false then .busy (s.waitAt w vcid u false)
  else if (s.home vcid u).asksHost false then .busy ((s.snoopHost vcid u false).waitAt w vcid u false)
  else if !s.homeFree w vcid u false then .busy (s.waitAt w vcid u false)
  else .done (s.unwait w vcid u) ()
/-- A read of a unit as it stands at its home, in one step. -/
def State.readPlain (s : State) (w : Writer) (vcid key u : Nat) (req : Option Nat) : AtHome VUnit :=
  match s.pageGate w u with
  | (s, false) => .busy s
  | (s, true) => match s.plainGate w vcid u with
    | .busy s => .busy s
    | .done s _ => (s.turnOver w).unitFor w vcid key u req
/-- A coherent write of a unit at its home in one step; it takes no stamp and changes none (06 R142). -/
def State.writeAtHome (s : State) (w : Writer) (vcid key u : Nat) (f : Unit128 → Unit128) (full : Bool) : AtHome Unit :=
  match s.seize w vcid u true with
  | .busy s => .busy s
  | .done s _ => .done (s.performAtHome vcid key u f none full) ()

end Sys2Proof.Machine
end

