-- ==== Sys2Proof/Machine/Csr.lean ====
section
/-! DEFINITION. Control and status registers: field maps, who may access them, reads and writes (03 R79 to R81, and the
map of each register in its own chapter). -/

namespace Sys2Proof.Machine

/-- Low n bits of a register image. -/
def lowBits (v : Word) (n : Nat) : Nat := bitsOf v.toNat 0 n

/-- Whether a user or supervisor write is permitted (03 R79): the table's RO entries deny it. -/
def csrWritable (n : Nat) (sup : Bool) : Bool :=
  if n = 0x013 ∨ n = 0x100 ∨ n = 0x103 ∨ n = 0x104 then false
  else if n = 0x003 ∨ n = 0x101 ∨ n = 0x102 ∨ (0x110 ≤ n ∧ n ≤ 0x113) ∨ (0x120 ≤ n ∧ n ≤ 0x127) ∨ n = 0x205 then sup
  else true

/-- CTXST (14 R289). -/
def Ctx.ctxst (y : Ctx) : Nat :=
  let st := match y.st with
    | .dormant => 0
    | .ready => 1
    | .parked => 2
    | .held => 3
    | .halted => 4
  let (p, code) := match y.ptrap with
    | some (t, _) => (1, t.code.toNat)
    | none => (0, 0)
  st + y.msgStarted.toNat * 2 ^ 10 + p * 2 ^ 11 + (code % 16) * 2 ^ 12 + y.mpend.toNat * 2 ^ 30 + y.mseen.toNat * 2 ^ 31
    + y.mslot.toNat * 2 ^ 32 + y.msrc.toNat * 2 ^ 36

/-- CTXST of a core's context: while a change of DOMAIN is being scrubbed a context that could issue is HELD (05 R108). -/
def Core.ctxst (k : Core) (x : Nat) : Nat :=
  let y := k.ctx x
  Ctx.ctxst (if k.scrubbing.isSome ∧ y.st = .ready then { y with st := .held } else y)

/-- A tile, and whether a queued or running matrix operation holds it (13 R268, R283). -/
def Core.tile (k : Core) (t : Nat) : Tile := tget k.tiles t Tile.reset
def Core.setTile (k : Core) (t : Nat) (v : Tile) : Core := { k with tiles := tset k.tiles t v }
/-- Rows and columns of tiles of a group shape (13 R279). -/
def grpShape (g : Nat) : Nat × Nat :=
  match g with
  | 0 => (1, 1)
  | 1 => (1, 2)
  | 2 => (2, 1)
  | 3 => (2, 2)
  | 4 => (2, 4)
  | _ => (4, 2)
/-- The tiles a matrix operation holds. -/
def MxOp.tiles (o : MxOp) : List Nat := let (r, c) := grpShape o.grp; (List.range (r * c)).map fun i => o.tile + i
def Core.tileBusy (k : Core) (t : Nat) : Bool := k.mxq.any fun o => o.tiles.contains t

/-- TSHAPE (13 R268). -/
def Core.tshape (k : Core) (t : Nat) : Nat :=
  let v := k.tile t
  v.rows + v.rowb * 2 ^ 8 + v.fmt * 2 ^ 16 + v.st * 2 ^ 24 + v.psn.toNat * 2 ^ 26 + (k.tileBusy t).toNat * 2 ^ 27

/-- Element bytes of a tile format. -/
def fmtBytes (f : Nat) : Nat := codeWidth f / 8
/-- Whether a shape is valid (13 R268). -/
def shapeOk (rows rowb fmt : Nat) : Bool :=
  let e := fmtBytes fmt
  decide (1 ≤ rows) && decide (rows ≤ 16) && decide (1 ≤ fmt) && decide (fmt ≤ 10) && decide (4 ≤ rowb) && decide (rowb ≤ 64)
    && decide (rowb % 4 = 0) && decide (rowb % e = 0) && decide (rows ≤ 64 / e)

/-- What a read of BSPLIT gives: while a change is being carried out, the value before it, so that a program can poll for its end (05
R109; assumption 48, DESIGN CHOICE, unsafe). -/
def State.bsplitRead (s : State) (c : Nat) : Nat :=
  (s.scrubs.findSome? fun p => match p.2 with
    | .bsplit c' old _ _ => if c' = c then some old else none
    | _ => none).getD (s.core c).bsplit

/-- Reads a CSR of context x of core c; reserved fields read zero (00 R8). -/
def State.csrRead (s : State) (c x n : Nat) : Word :=
  let k := s.core c
  let y := k.ctx x
  match n with
  | 0x001 => y.iter.setWidth 64
  | 0x002 => y.age
  | 0x003 => BitVec.ofNat 64 (y.base.toNat + y.low.toNat * 2 ^ 16 + y.wpend.toNat * 2 ^ 62)
  | 0x004 => y.rslo.setWidth 64
  | 0x005 => y.rshi.setWidth 64
  | 0x006 => y.spillp
  | 0x008 => BitVec.ofNat 64 (y.tvec.toNat / 4 * 4 + y.inh.toNat)
  | 0x009 => y.epc.setWidth 64
  | 0x00A => y.ecause
  | 0x00B => y.einfo
  | 0x00C => y.repst
  | 0x010 => y.rmode.setWidth 64
  | 0x011 => y.lfsr.setWidth 64
  | 0x012 => y.depen.setWidth 64
  | 0x013 => BitVec.ofNat 64 (k.ctxst x)
  | 0x100 => BitVec.ofNat 64 c
  | 0x101 => BitVec.ofNat 64 k.domain
  | 0x102 => BitVec.ofNat 64 (s.bsplitRead c)
  | 0x103 => BitVec.ofNat 64 (s.dev.hot.getLsbD (dieOf c)).toNat
  | 0x104 => BitVec.ofNat 64 s.clock
  | 0x105 => k.staletmo.setWidth 64
  | 0x106 => k.ctmo.setWidth 64
  | 0x107 => k.hmsg.setWidth 64
  | 0x128 => k.tsavep
  | 0x200 => k.mxk.setWidth 64
  | 0x201 => k.mxsa.setWidth 64
  | 0x202 => k.mxsb.setWidth 64
  | 0x203 => k.mxcfg
  | 0x204 => k.mxbar
  | 0x205 => BitVec.ofNat 64 (k.mxstep.toNat + k.mxpend.toNat * 2 ^ 32)
  | n =>
    if 0x110 ≤ n ∧ n ≤ 0x113 then (tget k.grp (n - 0x110) 0).setWidth 64
    else if 0x118 ≤ n ∧ n ≤ 0x11B then (tget k.capt (n - 0x118) 0).setWidth 64
    else if 0x120 ≤ n ∧ n ≤ 0x127 then BitVec.ofNat 64 (k.tshape (n - 0x120))
    else 0

/-- Sets ITER and drops the era that it makes unreachable (06 R141, R145). -/
def State.setIter (s : State) (c x : Nat) (i : BitVec 16) : State :=
  (s.modCtx c x fun y => { y with iter := i }).modCore c fun k => if i = (s.ctx c x).iter then k else k.eraDrop i

/-- A supervisor write to TSHAPE (13 R269). A LAZY tile has been loaded before; one that has not, since the write is none of a context, stays
LAZY and so keeps its content (assumption 79, DESIGN CHOICE, unsafe). -/
def State.writeTshape (s : State) (c t : Nat) (v : Word) : State :=
  let rows := fld v 0 5
  let rowb := fld v 8 7
  let fmt := fld v 16 5
  s.modCore c fun k =>
    if rows = 0 then k.setTile t { k.tile t with rows := 0, rowb := rowb, fmt := fmt }
    else if shapeOk rows rowb fmt then
      k.setTile t { k.tile t with rows := rows, rowb := rowb, fmt := fmt, st := if (k.tile t).st = 3 then 3 else 2 }
    else k

/-- The TSAVEP update of 13 R271 once no tile is LAZY: every SAVED tile becomes DIRTY. -/
def State.setTsavep (s : State) (c : Nat) (v : Word) : State :=
  s.modCore c fun k => { k with
    tsavep := BitVec.ofNat 64 (v.toNat / 8192 * 8192)
    tiles := mapIf (fun p => p.2.st == 1) (fun p => (p.1, { p.2 with st := 2 })) k.tiles }

/-- A supervisor write to MXSTEP: PEND and STEP; PEND = 0 abandons an interrupted operation, whose status gives the steps that it had
completed (09 R211, R212). -/
def State.writeMxstep (s : State) (c : Nat) (v : Word) : State :=
  s.modCore c fun k => { k with
    mxpend := v.getLsbD 32
    mxstep := v.setWidth 32
    mxq := match k.mxq with
      | o :: l => if k.mxpend ∧ !v.getLsbD 32 then { o with abandoned := true, step := k.mxstep.toNat } :: l else o :: l
      | [] => [] }

/-- The context of a CSR form that a write has to hold, with its marker, destination and old value. -/
abbrev CsrWriter := Nat × Bool × RegDst × Word

/-- Whether a DOMAIN write calls for a scrub: its value changes (05 R108, 10 R230). -/
def State.writeDomain (s : State) (c : Nat) (v : Word) (writer : Option CsrWriter) : State :=
  let d := lowBits v 10
  if (s.core c).domain = d then s else
  let id := s.nextId
  let s := { s with nextId := id + 1, scrubs := tset s.scrubs id (.domain c d (writer.map Prod.fst)) }
  let s := s.modCore c fun k => { k with scrubbing := some id }
  match writer with
  | some (x, m, d, w) => s.modCtx c x fun y => { y with st := .parked, wait := .scrub id m d w }
  | none => s

/-- The change of DOMAIN when its scrubs have finished (05 R108, 10 R230): scratch shares of another owner and every
scalar, vector and mask register are zero, and DOMAIN changes at once. -/
def State.domainDone (s : State) (c d : Nat) : State :=
  s.modCore c fun k =>
    let foreign (i : Nat) : Bool := decide (i < k.bsplit) && tget k.owners i 0 != d
    { k with
      domain := d
      scratch := k.scratch.filter fun p => !foreign (p.1 / 65536)
      scratchBad := k.scratchBad.filter fun u => !foreign (u / 512)
      owners := (List.range 16).foldl (fun o i => if i < k.bsplit then tset o i d else o) k.owners
      ram := []
      ctxs := k.ctxs.map fun p => (p.1, { p.2 with globs := [], vecs := [], masks := [] }) }

/-- Caches that are not FREE and hold a share of a core below a split (05 R109). -/
def State.cachesBelow (s : State) (c split : Nat) : List Nat :=
  (s.cdrs.filter fun p => decide (p.2.state ≠ 0) &&
    ((p.2.geo.has c && decide (p.2.geo.fsh < split)) || (match p.2.shadow with
      | some g => Geo.has g c && decide (Geo.fsh g < split)
      | none => false))).map (·.1)

/-- Starts the reclaim of a cache that has lost a share, unless it has been reclaimed (05 R109, R110). An operation that was running keeps
its progress and PSN until the reclaim has ended: a flush or an invalidation with itself, a retirement with the reclaim (05 R131); that of a
resize goes on. -/
def Cdr.reclaim (r : Cdr) (c : Nat) : Cdr :=
  if r.rclm then r else
  let retiring : Bool := r.state == 4
  let op : VcOp := { kind := 5, bar := 0, domain := r.domain, sup := true, core := c, done := if retiring then r.progress else 0, psn := r.psn && retiring }
  let r := r.setRclm true
  if r.shadow.isSome then { r with ops := op :: r.ops }
  else { r with
    ops := op :: (match r.ops with
      | o :: l => { o with done := r.progress, psn := r.psn } :: l
      | [] => [])
    progress := 0
    psn := false }
/-- A write of BSPLIT that changes its value (05 R109): later accesses are checked against the new value, and caches over newly
scratch shares are reclaimed; the shares that change sides are scrubbed when the reclaims are over. -/
def State.writeBsplit (s : State) (c : Nat) (v : Word) (writer : Option CsrWriter) : State :=
  let n := lowBits v 5
  let old := (s.core c).bsplit
  if 16 < n ∨ n = old then s else
  let s := if n < old then s else (s.cachesBelow c n).foldl (fun s id => s.modCdr id fun r => r.reclaim c) s
  let id := s.nextId
  let s := { s with nextId := id + 1, scrubs := tset s.scrubs id (.bsplit c old n (writer.map Prod.fst)) }
  let s := s.modCore c fun k => { k with bsplit := n }
  match writer with
  | some (x, m, d, w) => s.modCtx c x fun y => { y with st := .parked, wait := .scrub id m d w }
  | none => s
/-- The end of a change of BSPLIT: the shares that changed sides read zero, and those that are scratch take the core's DOMAIN (05 R108,
R109). -/
def State.bsplitDone (s : State) (c old new : Nat) : State :=
  s.modCore c fun k =>
    let moved (i : Nat) : Bool := decide (min old new ≤ i) && decide (i < max old new)
    { k with
      scratch := k.scratch.filter fun p => !moved (p.1 / 65536)
      scratchBad := k.scratchBad.filter fun u => !moved (u / 512)
      owners := (List.range 16).foldl (fun o i => if moved i ∧ i < k.bsplit then tset o i k.domain else o) k.owners }

/-- Whether a share of a core is being scrubbed, or its DOMAIN changed (05 R108, R109). -/
def State.scrubs? (s : State) (c : Nat) : Bool :=
  s.scrubs.any fun p => match p.2 with
    | .domain c' _ _ => c' == c
    | .bsplit c' _ _ _ => c' == c
    | .activate _ _ _ => false

/-- Writes the RW fields of a CSR; `writer` is the context of a CSR-form write, with its marker. Permission has been
judged. -/
def State.csrWrite (s : State) (c x n : Nat) (v : Word) (writer : Option CsrWriter) : State :=
  let ctx (f : Ctx → Ctx) := s.modCtx c x f
  let core (f : Core → Core) := s.modCore c f
  match n with
  | 0x001 => s.setIter c x (v.setWidth 16)
  | 0x002 => ctx fun y => { y with age := v }
  | 0x003 => ctx fun y => { y with base := v.setWidth 12, low := v.extractLsb' 16 12, wpend := v.extractLsb' 62 2 }
  | 0x004 => ctx fun y => { y with rslo := v.setWidth 12 }
  | 0x005 => ctx fun y => { y with rshi := v.setWidth 13 }
  | 0x006 => ctx fun y => { y with spillp := v }
  | 0x008 => ctx fun y => { y with tvec := BitVec.ofNat 64 (v.toNat / 4 * 4) }
  | 0x009 => ctx fun y => { y with epc := BitVec.ofNat 56 (v.toNat / 4 * 4) }
  | 0x00A => ctx fun y => { y with ecause := v &&& 0xFFFFFFFF000000FF }
  | 0x00B => ctx fun y => { y with einfo := v }
  | 0x00C => ctx fun y => { y with repst := v &&& 0x80000007FFFFFFFF }
  | 0x010 => ctx fun y => if lowBits v 3 ≤ 4 then { y with rmode := v.setWidth 3 } else y
  | 0x011 => ctx fun y => { y with lfsr := lfsrStore (v.setWidth 32), lfsrSet := y.seq }
  | 0x012 => ctx fun y => { y with depen := v.setWidth 8 &&& 0xFE }
  | 0x101 => s.writeDomain c v writer
  | 0x102 => s.writeBsplit c v writer
  | 0x105 => core fun k => { k with staletmo := v.setWidth 32 }
  | 0x106 => core fun k => { k with ctmo := v.setWidth 32 }
  | 0x107 => core fun k => { k with hmsg := v.setWidth 11 &&& 0x7FE }
  | 0x128 => s.setTsavep c v
  | 0x200 => core fun k => { k with mxk := v.setWidth 17 }
  | 0x201 => core fun k => { k with mxsa := v.setWidth 32 }
  | 0x202 => core fun k => { k with mxsb := v.setWidth 32 }
  | 0x203 => core fun k => { k with mxcfg := v &&& 0x0000FFFF1FFF000F }
  | 0x204 => core fun k => { k with mxbar := v &&& 0xFFFFFFFFFFFFFFE1 }
  | 0x205 => s.writeMxstep c v
  | n =>
    if 0x110 ≤ n ∧ n ≤ 0x113 then core fun k => { k with grp := tset k.grp (n - 0x110) (v.setWidth 9) }
    else if 0x118 ≤ n ∧ n ≤ 0x11B then core fun k => { k with capt := tset k.capt (n - 0x118) (v.setWidth 25) }
    else if 0x120 ≤ n ∧ n ≤ 0x127 then s.writeTshape c (n - 0x120) v
    else s

/-- The CSR of a window offset, with its context (03 R81). -/
def windowCsr (off : Nat) : Option (Nat × Nat) :=
  let (x, n) : Nat × Nat :=
    if off < 0xB00 then (off / 0x100, off % 0x100 / 8)
    else if 0xC00 ≤ off ∧ off < 0xE00 then (0, 0x100 + (off - 0xC00) / 8)
    else if 0xE00 ≤ off then (0, 0x200 + (off - 0xE00) / 8)
    else (0, 0)
  if off % 8 = 0 ∧ csrAssigned n then some (x, n) else none

/-- The offset in device control space of a CSR of a core's context (01 R31, 03 R81). -/
def csrOffset (c x n : Nat) : Nat :=
  0x10000000 + 4096 * c + (if n < 0x100 then 0x100 * x + 8 * n else if n < 0x200 then 0xC00 + 8 * (n - 0x100) else 0xE00 + 8 * (n - 0x200))
/-- A write of a register from outside that cannot act yet comes again after what the agenda holds. -/
def State.retryWrite (s : State) (off : Nat) (v : Word) : State := { s with agenda := s.agenda ++ [.hostWrite off v 1] }
/-- A write from outside of a CSR: while its core is being migrated it is held (17 R363). -/
def State.whenStill (s : State) (c x n : Nat) (v : Word) (f : State → State) : Out :=
  .next (if (s.core c).moving then s.retryWrite (csrOffset c x n) v else f s)

end Sys2Proof.Machine
end

