-- ==== Sys2Proof/Machine/Xlate.lean ====
section
/-! DEFINITION. Translation: the two TLBs (04 R85 to R87), what an entry permits, the checks of the cache definition
record (05 R121) and of the device number (01 R26 to R29), and translation requests (04 R88 to R90). -/

namespace Sys2Proof.Machine

/-- log2 of a page size code (04 R91). -/
def pageBits (size : Nat) : Nat :=
  match size with
  | 0 => 12
  | 1 => 16
  | 2 => 21
  | 3 => 26
  | _ => 30

/-- Whether an entry covers a VA. -/
def TlbEnt.covers (e : TlbEnt) (va : Nat) : Bool := va >>> pageBits e.size == (e.vpn * 4096) >>> pageBits e.size
/-- Whether an entry matches an access (04 R85). -/
def TlbEnt.hits (e : TlbEnt) (domain : Nat) (sup : Bool) (va : Nat) : Bool :=
  e.covers va && (e.domain == domain || (e.sup && sup))
/-- The PA of a VA. -/
def TlbEnt.pa (e : TlbEnt) (va : Nat) : Nat := e.pfn * 4096 + va % 2 ^ pageBits e.size
/-- The L2 TLB set of an entry (04 R85). -/
def TlbEnt.set (e : TlbEnt) : Nat := (e.vpn * 4096) >>> pageBits e.size % 128
/-- Whether two entries are the same page of the same domain. -/
def TlbEnt.same (e f : TlbEnt) : Bool := e.vpn == f.vpn && e.size == f.size && e.domain == f.domain

/-- Moves an entry to the most recently used position. -/
def tlbFront (l : List TlbEnt) (e : TlbEnt) : List TlbEnt := e :: l.filter fun f => !e.same f

/-- A lookup: the L1 TLB, then the L2 TLB, whose hit copies the entry into the L1 TLB (04 R85). When two entries match, one of the
access's domain and a SUP entry of another, the most recently used one of the first TLB that holds one serves (assumption 49, DESIGN
CHOICE, unsafe). -/
def State.tlb (s : State) (c domain : Nat) (sup : Bool) (va : Nat) : Option TlbEnt × State :=
  let k := s.core c
  match k.l1tlb.find? fun e => e.hits domain sup va with
  | some e => (some e, s.modCore c fun k => { k with l1tlb := tlbFront k.l1tlb e })
  | none => match k.l2tlb.find? fun e => e.hits domain sup va with
    | some e => (some e, s.modCore c fun k => { k with l1tlb := (tlbFront k.l1tlb e).take 64, l2tlb := tlbFront k.l2tlb e })
    | none => (none, s)

/-- Installs an entry in the L2 TLB, replacing the least recently used of its set when the set is full (04 R85, R93).
Entries of the same domain whose pages overlap leave both TLBs first. -/
def Core.installTlb (k : Core) (e : TlbEnt) : Core :=
  let apart (f : TlbEnt) : Bool := !(f.domain == e.domain && (f.covers (e.vpn * 4096) || e.covers (f.vpn * 4096)))
  let l2 := k.l2tlb.filter apart
  let here := l2.filter fun f => f.set == e.set
  let l2 := if here.length < 8 then l2 else match here.getLast? with
    | some v => l2.filter fun f => !v.same f
    | none => l2
  { k with l1tlb := k.l1tlb.filter apart, l2tlb := e :: l2 }

/-- The subcode of the first check of 05 R121 that fails, if any. `write` covers atomics, cas and cas2. -/
def State.cdrCheck (s : State) (domain : Nat) (skipDomain : Bool) (vcid : Nat) (cls : Cls) (write : Bool) : Option Nat :=
  let r := s.cdr vcid
  let bit := match cls with
    | .tracked => 37
    | .stamped => 38
    | .untracked => 39
  if !r.w0.getLsbD 63 then some 1
  else if !skipDomain ∧ r.domain ≠ domain then some 2
  else if r.state = 1 then some 3
  else if r.state = 4 then some 4
  else if !r.w0.getLsbD bit then some 5
  else if r.rclm then some 6
  else if write ∧ r.geo.policy = 3 then some 7
  else none

/-- Where a translated access goes. -/
inductive Target where
  | unit (e : TlbEnt) (pa : Nat)
  | host (e : TlbEnt) (pa : Nat)
  | remote (e : TlbEnt) (pa : Nat)
  | ctrl (e : TlbEnt) (off : Nat)
  deriving DecidableEq, Repr

/-- The checks of an access through an entry, in the order of 08 R174: PRIV and XLATE (04 R86), device control space (01
R29), the cache definition record (05 R121), the device number and the local map (01 R27, R28). -/
def State.checkEnt (s : State) (domain : Nat) (sup : Bool) (acc : Acc) (e : TlbEnt) (va : Addr) : Except FaultInfo Target :=
  let bad (c : Cause) (info : Nat) : Except FaultInfo Target :=
    .error { cause := c, info := BitVec.ofNat 32 info, addr := va, undeliv := false }
  let ok : Bool := match acc with
    | .read => e.xwr.getLsbD 0
    | .write => e.xwr.getLsbD 1
    | .fetch => e.xwr.getLsbD 2
    | .atomic => e.xwr.getLsbD 0 && e.xwr.getLsbD 1
  let pa := e.pa va.toNat
  let loc := pa % 2 ^ 42
  let own : Bool := pa / 2 ^ 42 == s.devNum
  let ctrl : Bool := own && decide (0x30000000000 ≤ loc)
  if (e.sup || ctrl) && !sup then bad .priv 0
  else if !ok then bad .xlate 0
  else if ctrl then (if e.sup then .ok (.ctrl e (loc - 0x30000000000)) else bad .xlate 0)
  else
    let write : Bool := match acc with | .read => false | .fetch => false | _ => true
    match s.cdrCheck domain (e.sup && sup) e.vcid e.cls write with
    | some n => bad .vcFault (n + 256 * e.vcid)
    | none =>
      if own then
        if loc < 2 ^ 40 then .ok (.unit e loc)
        else if 2 ^ 41 ≤ loc ∧ loc < 3 * 2 ^ 40 then .ok (.host e (loc - 2 ^ 41))
        else bad .xlate 0
      else if loc < 2 ^ 40 then .ok (.remote e pa) else bad .xlate 0

/-- A new request tag of a core. -/
def Core.freshTag (k : Core) : Nat :=
  ((List.range 65536).find? fun t => k.xreqs.all fun r => r.tag != t).getD 0

/-- The translation request as the payload of a message (04 R89). -/
def xreqPayload (c : Nat) (r : XReq) (domain : Nat) (pc : Addr) : Vec :=
  let kind := match r.acc with
    | .read => 0
    | .write => 1
    | .fetch => 2
    | .atomic => 3
  let agent := if 3 ≤ r.agent then 0 else r.agent
  let x := if r.agent = 0 then r.slot else if r.agent = 4 then r.slot % 16 else 0
  let w1 := c + x * 2 ^ 13 + domain * 2 ^ 17 + r.sup.toNat * 2 ^ 27 + kind * 2 ^ 28 + agent * 2 ^ 30 + r.tag * 2 ^ 32
  BitVec.ofNat 512 (r.va.toNat + w1 * 2 ^ 64 + pc.toNat * 2 ^ 128)

/-- Sends a translation request: an active message to the translation service core, whose handler is in the first 8 bytes of its TCM
(04 R88). They are read as the request leaves (assumption 50, DESIGN CHOICE, unsafe). -/
def State.sendXreq (s : State) (c : Nat) (r : XReq) (domain : Nat) (pc : Addr) : State :=
  let t := s.xlateTarget c
  let s := s.modCore c fun k => { k with xreqs := k.xreqs ++ [r] }
  s.sendMsg c (.msg t none (s.handlerPc t 0) (xreqPayload c r domain pc)
    (descriptor c (if r.agent = 0 then r.slot else 0)) (s.core c).domain r.sup)

/-- An agent that is not a context (a copy channel, a tile fetch unit, the launch sequencer) translates: the entry, or a
refusal or fault, or a request that it waits for. -/
inductive Xl where
  | hit (t : Target)
  | bad (f : FaultInfo)
  | wait

/-- Whether a launch's record names a cache for activation: one of its four VCID fields with VACT (16 R336). -/
def Launch.names (l : Launch) (v : Nat) : Bool :=
  (List.range 4).any fun j => fld (l.words.getD 13 0) (8 * j) 8 == v && (l.words.getD 13 0).getLsbD (32 + j)
/-- What the checks of an access find: to the launch sequencer's own accesses a cache that its record is to activate is as if ACTIVE, since
the programs of chapters 19 to 22 keep the record's tables in such caches (16 R341, 19 R387; assumption 80, DEDUCED). -/
def State.forLaunch (s : State) (agent slot : Nat) : State :=
  match if agent = 3 then (tget s.queues slot Queue.reset).launch else none with
  | none => s
  | some l => { s with cdrs := mapIf (fun p => l.names p.1 && p.2.state == 1) (fun p => (p.1, p.2.setState 2)) s.cdrs }

/-- Translates for such an agent: a miss sends one request, which carries the address of the instruction behind it when there is one
(04 R88, R89). -/
def State.engineXlateAt (s : State) (pc : Addr) (c domain agent slot : Nat) (sup : Bool) (acc : Acc) (va : Addr) : Xl × State :=
  let k := s.core c
  match k.xreqs.find? fun r => r.agent == agent && r.slot == slot && r.va == va && r.refusal.isSome with
  | some r => (.bad (r.refusal.getD { cause := .xlate, info := 0, addr := va, undeliv := false }),
      s.modCore c fun k => { k with xreqs := k.xreqs.filter fun q => q.tag != r.tag })
  | none =>
    match s.tlb c domain sup va.toNat with
    | (some e, s) => match (s.forLaunch agent slot).checkEnt domain sup acc e va with
      | .ok t => (.hit t, s)
      | .error f => (.bad f, s)
    | (none, s) =>
      if k.xreqs.any fun r => r.agent == agent && r.slot == slot && r.va == va then (.wait, s)
      else (.wait, s.sendXreq c { tag := k.freshTag, agent := agent, slot := slot, acc := acc, va := va, sup := sup,
                                  refusal := none } domain pc)

/-- Translates for an agent whose access no instruction is behind. -/
def State.engineXlate (s : State) (c domain agent slot : Nat) (sup : Bool) (acc : Acc) (va : Addr) : Xl × State :=
  s.engineXlateAt 0 c domain agent slot sup acc va

/-- A TRACKED page of the module's own device memory, as barrier objects, records and areas need (08 R192, 15 R314). -/
def Target.tracked? (t : Target) : Option (Nat × Nat × Nat) :=
  match t with
  | .unit e pa => if e.cls = .tracked then some (e.vcid, e.key, pa) else none
  | _ => none

end Sys2Proof.Machine
end

