-- ==== Sys2Proof/Machine/Barrier.lean ====
section
/-! DEFINITION. Barrier objects at their homes (15 R314 to R319): the phase rule, arrivals, beats, waiters, and how an
engine completes at an object. -/

namespace Sys2Proof.Machine

/-- A barrier object as a 256-bit number (15 R314). -/
abbrev Obj := Nat
def Obj.gen (o : Obj) : Nat := bitsOf o 0 32
def Obj.exp (o : Obj) : Nat := bitsOf o 32 16
def Obj.arr (o : Obj) : Nat := bitsOf o 48 16
def Obj.beats (o : Obj) : Nat := bitsOf o 64 32
def Obj.abort (o : Obj) : Bool := o.testBit 96
def Obj.timeout (o : Obj) : Bool := o.testBit 97

/-- The phase rule (15 R316): the object after the flip that is due, and whether it flipped. -/
def Obj.flipIfDue (o : Obj) : Obj × Bool :=
  if Obj.arr o = Obj.exp o ∧ Obj.beats o = 0 then (setBits (setBits o 48 16 0) 0 32 (Obj.gen o + 1), true) else (o, false)
/-- An arrival; one that finds ARR ≥ EXP sets ABORT (15 R316, R318). -/
def Obj.arrive (o : Obj) : Obj × Bool :=
  Obj.flipIfDue (if Obj.exp o ≤ Obj.arr o then setBits o 96 1 1 else setBits o 48 16 (Obj.arr o + 1))
/-- A beat (15 R318). -/
def Obj.beat (o : Obj) (inc : Nat) : Obj × Bool := Obj.flipIfDue (setBits o 64 32 (Obj.beats o + inc))
/-- binit (15 R318): GEN is kept and no flip is evaluated. -/
def Obj.init (o : Obj) (exp beats : Nat) : Obj := Obj.gen o + exp % 2 ^ 16 * 2 ^ 32 + beats % 2 ^ 32 * 2 ^ 64
/-- Sets ABORT. -/
def Obj.setAbort (o : Obj) : Obj := setBits o 96 1 1
/-- The word bstat reads (15 R318). -/
def Obj.stat (o : Obj) : Word :=
  BitVec.ofNat 64 (Obj.gen o + Obj.arr o * 2 ^ 32 + (Obj.abort o).toNat * 2 ^ 48 + (Obj.timeout o).toNat * 2 ^ 49
    + (decide (Obj.beats o ≠ 0)).toNat * 2 ^ 50)

/-- An indivisible operation on an object at the home of its unit (15 R315): the object before it and whether its unit is
poisoned, in which case nothing is written (08 R176). `f` gives the new object and whether the waiters are answered. -/
def State.onObject (s : State) (w : Writer) (vcid key pa : Nat) (f : Obj → Obj × Bool) : AtHome (Obj × Bool) :=
  match s.seize w vcid (pa / 128) true with
  | .busy s => .busy s
  | .done s _ =>
    let (s, v) := s.readVc vcid (pa / 128) none
    let p := v.poisonFor key
    let o := unitGet (v.under key).data (pa % 128) 32
    let (n, ans) := f o
    if p then .done s (o, true) else
    let s := if n = o then s
      else s.performAtHome vcid key (pa / 128) (fun d => unitPut d (pa % 128) 32 n) none false
    let s := if ans || (Obj.abort n && !Obj.abort o) then s.answerBarrier pa (Obj.abort n) else s
    .done s (o, false)

/-- How a command completes at an object: an arrival, a beat of −1, or nothing but ABORT. -/
inductive Done where
  | arrive
  | beat
  | abort
  deriving DecidableEq, Repr

/-- An engine's completion: the status word beside the object, then the arrival or beat, in one step at the home (15
R314, R327; 09 R200; 13 R285). `timeout` sets TIMEOUT. In a poisoned unit the status word is stored and the poison stays, and the
object, which an arrival reads, is left as it is (08 R176). -/
def State.completeAt (s : State) (w : Writer) (vcid key pa : Nat) (status : Option Word) (timeout : Bool) (d : Done) : AtHome Unit :=
  match s.onObject w vcid key pa (fun o =>
      let o := match status with
        | some w => setBits o 128 64 w.toNat
        | none => o
      let o := if timeout then setBits o 97 1 1 else o
      match d with
      | .arrive => Obj.arrive o
      | .beat => Obj.beat o (2 ^ 32 - 1)
      | .abort => (Obj.setAbort o, true)) with
  | .busy s => .busy s
  | .done s (_, false) => .done s ()
  | .done s (_, true) => .done (match status with
      | some w => s.performAtHome vcid key (pa / 128) (fun u => unitPut u (pa % 128 + 16) 8 w.toNat) none false
      | none => s) ()

/-- An agent completes at the object that a VA names: translated, checked to be a TRACKED page of the module, 32-byte
aligned (15 R318). `none` says that the object fails a check. -/
def State.completeVa (s : State) (w : Writer) (c domain agent slot : Nat) (sup : Bool) (va : Addr) (status : Option Word)
    (timeout : Bool) (d : Done) : AtHome (Option Unit) :=
  if va.toNat % 32 ≠ 0 then .done s none else
  match s.engineXlate c domain agent slot sup .atomic va with
  | (.wait, s) => .busy s
  | (.bad _, s) => .done s none
  | (.hit t, s) => match t.tracked? with
    | none => .done s none
    | some (vcid, key, pa) => match s.completeAt w vcid key pa status timeout d with
      | .busy s => .busy s
      | .done s _ => .done s (some ())

end Sys2Proof.Machine
end

