-- ==== Sys2Proof/Machine/Launch.lean ====
section
/-! DEFINITION. Work queues and the launch sequencers (16). -/

namespace Sys2Proof.Machine

def State.queue (s : State) (q : Nat) : Queue := tget s.queues q Queue.reset
def State.modQueue (s : State) (q : Nat) (f : Queue → Queue) : State := { s with queues := tset s.queues q (f (s.queue q)) }
/-- STATE: 0 DISABLED, 1 RUNNING, 2 DRAINING, 3 KILLING (16 R333). -/
def Queue.state (q : Queue) : Nat := fld q.w1 62 2
def Queue.setState (q : Queue) (n : Nat) : Queue := { q with w1 := setFld q.w1 62 2 n }
def Queue.setErr (q : Queue) (n : Nat) : Queue := { q with w1 := setFld q.w1 60 2 n }
def Queue.stop (q : Queue) : Bool := q.w1.getLsbD 57
def Queue.setStop (q : Queue) (b : Bool) : Queue := { q with w1 := setFld q.w1 57 1 b.toNat }
def Queue.prio (q : Queue) : Nat := fld q.w1 52 5
def Queue.domain (q : Queue) : Nat := fld q.w1 42 10
def Queue.size (q : Queue) : Nat := fld q.w1 0 12 + 1
/-- HEAD (16 R333). -/
def Queue.headReg (q : Queue) : BitVec 32 := BitVec.ofNat 32 q.head
/-- Entries written and not read. -/
def Queue.pending (q : Queue) : Nat := (q.tail - q.headReg).toNat
/-- Whether a core is in a mask rectangle that is valid. -/
def rectIn (w : Word) (c : Nat) : Bool := w.getLsbD 0 && rectHas w c
/-- A queue's mask: its valid rectangles without service cores (16 R333, 01 R16). -/
def State.inMask (s : State) (q : Queue) (c : Nat) : Bool := (rectIn q.mask0 c || rectIn q.mask1 c) && s.isCompute c
/-- The mask's compute cores in ascending flat number. -/
def State.maskCores (s : State) (q : Queue) : List Nat := allCores.filter (s.inMask q)
def State.masksMeet (s : State) (a b : Queue) : Bool := allCores.any fun c => s.inMask a c && s.inMask b c

/-! ### Fields of a launch record (16 R336) -/

def Launch.word (l : Launch) (i : Nat) : Word := l.words.getD i 0
/-- A field of bits [55:0]. -/
def Launch.va (l : Launch) (i : Nat) : Addr := (l.word i).setWidth 56
def Launch.entry (l : Launch) : Addr := l.va 0
def Launch.countField (l : Launch) : Nat := fld (l.word 1) 0 32
def Launch.cntp (l : Launch) : Addr := l.va 2
def Launch.recb (l : Launch) : Addr := l.va 6
def Launch.gtab (l : Launch) : Addr := l.va 7
def Launch.rngp (l : Launch) : Addr := l.va 8
def Launch.spill (l : Launch) : Addr := l.va 9
def Launch.depb (l : Launch) : Addr := l.va 10
def Launch.depgen (l : Launch) : Nat := fld (l.word 11) 0 32
def Launch.compb (l : Launch) : Addr := l.va 12
def Launch.vcid (l : Launch) (j : Nat) : Nat := fld (l.word 13) (8 * j) 8
def Launch.vact (l : Launch) (j : Nat) : Bool := (l.word 13).getLsbD (32 + j)
def Launch.vret (l : Launch) (j : Nat) : Bool := (l.word 13).getLsbD (36 + j)
def Launch.bsplit (l : Launch) : Nat := fld (l.word 13) 40 5
def Launch.bspw (l : Launch) : Bool := (l.word 13).getLsbD 45
def Launch.nrng (l : Launch) : Nat := fld (l.word 13) 48 5
def Launch.ngrp (l : Launch) : Nat := fld (l.word 14) 0 9
def Launch.gslot (l : Launch) : Nat := fld (l.word 14) 32 32
def Launch.ind (l : Launch) : Bool := (l.word 15).getLsbD 0

/-- A launch as it is read from its ring, with its number. -/
def Launch.ofWords (serial : Nat) (ws : List Word) : Launch :=
  { serial := serial, words := ws, st := .queued, answered := none, eligibleAt := 0, abort := false, n := 0, count := 0, fail := false,
    cause := 0, activated := [], ranges := [], pinned := false, groups := [], step := 0, stage := 0, written := 0, pushed := 0,
    drained := false, killed := false, retiring := [] }

def State.modLaunch (s : State) (q : Nat) (f : Launch → Launch) : State :=
  s.modQueue q fun d => { d with launch := d.launch.map f }
/-- Fails a launch's preparation: it completes with FAIL and a cause (16 R341). -/
def State.failLaunch (s : State) (q cause : Nat) : State :=
  s.modLaunch q fun l => { l with st := .completing, fail := true, cause := cause }

/-! ### Doorbells and queue states -/

/-- The doorbell overrun check of 16 R334. -/
def Queue.overrun (q : Queue) : Queue :=
  if q.state ≠ 0 ∧ q.size < q.pending then (q.setErr 2).setState 0 else q
/-- When a domain's last queue is DISABLED with no launch, it is torn down (16 R335): its key slot is released, and the messages that
wait for its compute cores are discarded, those that its contexts sent (14 R308) and a supervisor's to a core that is still its own. -/
def State.tearDown (s : State) (domain : Nat) : State :=
  if s.queues.any fun p => p.2.domain == domain && (decide (p.2.state ≠ 0) || p.2.launch.isSome) then s
  else { s with
    dev := { s.dev with keys := tdel s.dev.keys domain }
    net := s.net.filter fun f => match f.pkt with
      | .msg dst _ _ _ _ from' sup => !(s.isCompute dst && (if sup then (s.core dst).domain == domain else from' == domain))
      | _ => true }

/-- What an overrun leaves: a queue that it has disabled with no launch tears its domain down when it was the last (16 R334, R335). -/
def State.overran (s : State) (q : Nat) : State :=
  if (s.queue q).state = 0 ∧ (s.queue q).launch = none then s.tearDown (s.queue q).domain else s

/-- A doorbell write (16 R334). -/
def State.ringDoorbell (s : State) (q : Nat) (v : Word) : State :=
  let t := s.modQueue q fun d => ({ d with tail := v.setWidth 32 } : Queue).overrun
  if (s.queue q).state = 0 then t else t.overran q

/-- Disables a queue. -/
def State.disable (s : State) (q : Nat) : State :=
  (s.modQueue q fun d => (d.setState 0).setStop false).tearDown (s.queue q).domain

/-- A write of RUNNING to a DISABLED queue (16 R335). -/
def State.enableQueue (s : State) (q : Nat) : State :=
  let d := s.queue q
  if d.state ≠ 0 then s
  else if s.queues.any fun p => p.1 != q && decide (p.2.state ≠ 0) && p.2.domain != d.domain && s.masksMeet d p.2 then
    s.modQueue q fun d => d.setErr 1
  else
    let s := s.modQueue q fun d => ((d.setErr 0).setState 1).overrun
    let s := match tget? s.dev.keys d.domain with
      | some _ => s
      | none => { s with dev := { s.dev with
          keys := tset s.dev.keys d.domain (Config.domainKey s.dev.keyDraws), keyDraws := s.dev.keyDraws + 1 } }
    s.overran q

/-- Whether a migration is moving a core to a position (17 R361). -/
def State.reserved (s : State) (c : Nat) : Bool :=
  s.cores.any fun p => match p.2.mover with
    | some (_, _, n) => n == c
    | none => false
/-- The context number of the operations by which queue q's sequencer reads memory (16 R336). -/
def seqCtx (q : Nat) : Nat := 1000 + q
/-- What queue q's sequencer waits for is withdrawn: its place at a dependence object, its reads and its translation requests. -/
def State.withdrawQueue (s : State) (q : Nat) : State :=
  { s with
    bWaiters := s.bWaiters.filter fun w => w.core != 8192 + q
    cores := mapIf (fun (p : Nat × Core) => (p.2.ops.any fun o => o.ctx == seqCtx q) || p.2.xreqs.any fun r => r.agent == 3 && r.slot == q)
      (fun p => (p.1, { p.2 with
        ops := p.2.ops.filter fun o => o.ctx != seqCtx q
        xreqs := p.2.xreqs.filter fun r => !(r.agent == 3 && r.slot == q) })) s.cores }
/-- A launch that has been read and not started counts as unread (16 R345, R439). -/
def State.unread (s : State) (q : Nat) : State :=
  match (s.queue q).launch with
  | some l =>
    if l.st = .queued ∨ l.st = .eligible then (s.withdrawQueue q).modQueue q fun d => { d with head := d.head - 1, launch := none }
    else s
  | none => s

/-- A write of DRAINING (16 R345). -/
def State.drainQueue (s : State) (q : Nat) : State :=
  if (s.queue q).state ≠ 1 then s else
  let s := (s.unread q).modQueue q fun d => { d.setState 2 with launch := d.launch.map fun l => { l with drained := true } }
  if (s.queue q).launch.isNone then s.disable q else s

/-- A write of DISABLED to a RUNNING queue (16 R439). -/
def State.stopQueue (s : State) (q : Nat) : State :=
  if (s.queue q).state ≠ 1 then s else
  let s := (s.unread q).modQueue q fun d => d.setStop true
  if (s.queue q).launch.isNone then s.disable q else s

/-- Discards what an ended context holds: it becomes DORMANT, its waits, pending traps and results are gone (16 R346, 17
R360). -/
def Ctx.discard (y : Ctx) : Ctx :=
  { y with st := .dormant, wait := .none, ptrap := none, rep := none, fetched := [], fenceErr := none, engWait := [], engWords := false, gonged := none, ranged := false }
/-- Whether an operation of an ended context goes on: a write already issued still performs (17 R360), and a division runs to its end
in the divider (11 R239). -/
def Core.outlives (k : Core) (o : Op) : Bool := (o.isStore && !o.allDone) || k.divider == some o.id
/-- The context number of the operations by which a tile fetch unit reads units of other devices. -/
def mxCtx : Nat := 800
/-- The context number of an operation that has no context any more. -/
def noCtx : Nat := 900
/-- What is left to do of an operation whose context is killed: a ste still writes its element (17 R360, 08 R183). -/
def Fin.afterKill (f : Fin) : Fin := match f with
  | .mxStore f b x m l => .mxStore f b x m l
  | _ => .none
/-- Cuts a context's operations from their registers: reads are dropped, writes already issued still perform, and a division only frees
the divider when it ends (17 R360, 11 R239). -/
def Core.cutOps (k : Core) (x : Nat) : Core :=
  { k with
    ops := (k.ops.filter fun o => o.ctx != x || k.outlives o).map fun o =>
      if o.ctx == x then { o with dead := true, fin := o.fin.afterKill, lagTrap := false, fault := none, ctx := if k.divider == some o.id then noCtx else o.ctx } else o
    xreqs := k.xreqs.filter fun r => !(r.agent == 0 && r.slot == x) }
/-- Ends a context and everything registered for it. A migration that it has begun goes on (17 R361). -/
def State.endCtx (s : State) (c x : Nat) : State :=
  let k := s.core c
  let gone := (k.ops.filter fun o => o.ctx == x && !k.outlives o).map fun o => o.id
  let s := s.modCore c fun k => (k.cutOps x).setCtx x (k.ctx x).discard
  { s with
    bWaiters := s.bWaiters.filter fun w => !(w.core == c && w.ctx == x)
    net := s.net.filter fun f => match f.pkt with
      | .bwaitAns d y => !(s.forwarded d == c && y == x)
      | .depAnswer d y _ => !(s.forwarded d == c && y == x)
      | _ => true
    stWaiters := s.stWaiters.filter fun w => !(w.remote.isNone && w.core == c && gone.contains w.op) }

/-- Whether a launch's tasks may have been dispatched: all its records were written (16 R337). -/
def Launch.dispatched (l : Launch) : Bool :=
  match l.st with
  | .preparing => decide (8 ≤ l.step)
  | .running => true
  | .completing => !l.fail
  | _ => false
/-- The KILLED reports of a launch kill: one to supervisor 0 of each cluster of the mask, with the number of its cores that were stopped
with a context that was not DORMANT (17 R360). -/
def State.killReports (s : State) (q : Nat) (l : Launch) : State :=
  let cores := s.maskCores (s.queue q)
  (List.range 32).foldl (fun s cl => match cores.filter fun c => clusterOf c == cl with
    | [] => s
    | c :: cs =>
      let n := if l.dispatched then ((c :: cs).filter fun c => (s.core c).queue == some q &&
        allCtx.any fun x => decide ((s.ctx c x).st ≠ .dormant)).length else 0
      s.sendFault (s.superCore cl 0) c 15
        (faultPayload c 15 Cause.killed.code (BitVec.ofNat 32 n) 0 0 l.lid 0 false false false false false)) s

/-- What a router holds of other launches (15 R332). -/
def Router.without (r : Router) (n : Nat) : Router := { r with
  slots := r.slots.filter fun x => x.launch != n
  early := r.early.filter fun e => e.2.launch != n
  areas := r.areas.filter fun a => a.launch != n
  flushed := r.flushed.filter fun f => f.1 != n
  kept := r.kept.filter fun f => f.1 != n
  done := r.done.filter fun f => f.launch != n
  late := r.late.filter fun f => f.1 != n }
/-- Discards the collectives of a launch, by its number (15 R332). -/
def State.dropCollectives (s : State) (n : Nat) : State := { s with
  tables := tdel s.tables n
  routers := s.routers.map fun (p : Nat × Router) => (p.1, p.2.without n)
  net := s.net.filter fun f => match f.pkt with
    | .contrib _ _ a => a.launch != n
    | .late _ n' _ _ => n' != n
    | .cmaxRelease _ n' _ _ _ => n' != n
    | _ => true }
/-- Cancels the copies of a queue's launch that have not ended in another way (16 R346 step 3, 09 R200). -/
def State.cancelCopies (s : State) (q : Nat) : State := { s with
  channels := mapIf (fun (p : Nat × Channel) => p.2.busy && p.2.queue == some q && !p.2.malf && p.2.fail.isNone)
    (fun p => (p.1, { p.2 with cancel := true })) s.channels }
/-- Drops the steal requests and answers, and the remote matrix commands in flight, of the contexts of a queue's cores, whose launch
has a number (16 R346). -/
def State.dropRequests (s : State) (q n : Nat) : State :=
  let ours (c : Nat) : Bool := (s.core (s.forwarded c)).queue == some q
  { s with net := s.net.filter fun f => match f.pkt with
      | .steal _ t => !ours t
      | .stealReply t _ => !ours t
      | .mmar _ o _ _ => o.launch != some n
      | _ => true }

/-- The halt record of a core: its CYCLE and its counts of messages received and sent (17 R359). -/
def Core.latch (k : Core) (now : Nat) : Core :=
  { k with hcyc := now, hmcnt := BitVec.ofNat 64 (k.received % 2 ^ 32 + k.sent % 2 ^ 32 * 2 ^ 32) }
/-- STEP as an interrupt of the running matrix operation writes it (09 R211, R212). -/
def Core.stepsDone (k : Core) : BitVec 32 := match k.mxq with | o :: _ => if o.begun then BitVec.ofNat 32 o.step else k.mxstep | [] => k.mxstep
/-- A core of a killed launch: the halt tree stops it, its contexts are DORMANT with their state discarded, its message slots free, its
deque and ring empty and its matrix operations abandoned (16 R346). -/
def State.killOn (s : State) (c : Nat) : State :=
  let s := allCtx.foldl (fun s x => s.endCtx c x) s
  s.modCore c fun k => { k.latch s.clock with
    ctxs := k.ctxs.map fun p => (p.1, { p.2 with msgSlot := none, creator := none, mpend := false, mseen := false })
    slotOwner := [], moving := false, mover := none, deque := [], ringLo := 0, ringHi := 0, task := none, exitSucc := none, steal := none, idleSince := none,
    treeHalted := false, mxpend := false, mxstop := 0, mxstep := k.stepsDone
    mxq := k.mxq.map fun o => { o with abandoned := true } }
/-- A write of KILLING (16 R346): the reports leave, the cores stop with their state discarded, copies, matrix operations and
collectives of the launch end, and the launch goes on to its completion as killed, whatever state it was in (16 R342). -/
def State.killLaunch (s : State) (q : Nat) : State :=
  match (s.queue q).launch with
  | none => if (s.queue q).state = 0 then s else s.disable q
  | some l =>
    if l.killed then s else
    let s := (s.withdrawQueue q).killReports q l
    let s := (allCores.filter fun c => (s.core c).queue == some q).foldl State.killOn (s.dropRequests q l.serial)
    let s := (s.cancelCopies q).dropCollectives l.serial
    (s.modQueue q fun d => (d.setState 3).setStop false).modLaunch q fun l =>
      { l with st := .completing, killed := true, pinned := false, retiring := [] }

/-- A write of a queue's STATE field (16 R333 to R346, R439). -/
def State.writeQueueState (s : State) (q n : Nat) : State :=
  match n with
  | 0 => s.stopQueue q
  | 1 => s.enableQueue q
  | 2 => s.drainQueue q
  | _ => s.killLaunch q

/-- Reads a doubleword of a descriptor (16 R333). -/
def State.queueRead (s : State) (q i : Nat) : Word :=
  let d := s.queue q
  match i with
  | 0 => d.w0
  | 1 => d.w1
  | 2 => BitVec.ofNat 64 (d.headReg.toNat + d.tail.toNat * 2 ^ 32)
  | 3 => d.mask0
  | 4 => d.mask1
  | _ => 0

/-- Writes a doubleword of a descriptor: fields other than STATE are discarded while the queue is enabled,
and bits [35:1] of a mask are Z (16 R333, 14 R311). -/
def State.queueWrite (s : State) (q i : Nat) (v : Word) : State :=
  let off : Bool := (s.queue q).state == 0
  match i with
  | 0 => if off then s.modQueue q fun d => { d with w0 := BitVec.ofNat 64 (v.toNat % 2 ^ 56 / 128 * 128) } else s
  | 1 =>
    let s := if off then s.modQueue q fun d =>
      let w := setFld (setFld (setFld d.w1 0 12 (fld v 0 12)) 42 10 (fld v 42 10)) 52 5 (fld v 52 5)
      { d with w1 := w } else s
    s.writeQueueState q (fld v 62 2)
  | 3 => if off then s.modQueue q fun d => { d with mask0 := v &&& 0xFFFFFFF000000001 } else s
  | 4 => if off then s.modQueue q fun d => { d with mask1 := v &&& 0xFFFFFFF000000001 } else s
  | _ => s

/-! ### Reading a ring entry (16 R334) -/

/-- Whether an export entry serves an outside access of a domain at a local address (18 R368): it covers the address, meets the
test of the access's kind and source, and the record of its cache is ACTIVE or RESIZING, of the domain, and not reclaimed. -/
def State.exportServes (s : State) (domain pa : Nat) (ok : Word → Bool) (e : Word × Word) : Bool :=
  let base := fld e.1 12 30 * 4096
  let r := s.cdr (fld e.2 42 8)
  e.2.getLsbD 63 && ok e.2 && fld e.2 50 10 == domain && decide (base ≤ pa) && decide (pa < base + fld e.2 0 32 * 4096) &&
    (decide (r.state = 2) || decide (r.state = 3)) && r.domain == domain && !r.rclm

/-- The virtual cache of the lowest-numbered export entry that serves an outside access (18 R368). -/
def State.exportVc (s : State) (domain pa : Nat) (ok : Word → Bool) : Option Nat :=
  ((List.range 16).find? fun i => s.exportServes domain pa ok (tget s.dev.exports i (0, 0))).map
    fun i => fld (tget s.dev.exports i (0, 0)).2 42 8

/-- A saturating 32-bit count. -/
def satInc (n : BitVec 32) : BitVec 32 := if n = BitVec.allOnes 32 then n else n + 1

/-- The 128 bytes of a ring entry: at its home under the export table, or in the host memory window; `none` says that
the unit is poisoned. A read that no entry permits reads zeros and is counted in REJH. -/
def State.ringUnit (s : State) (q domain pa : Nat) : AtHome (Option Unit128) :=
  let loc := pa % 2 ^ 42
  if 2 ^ 41 ≤ loc ∧ loc < 3 * 2 ^ 40 then .done s (some (BitVec.ofNat 1024 (s.hostMem.read (loc - 2 ^ 41) 128)))
  else match (if loc < 2 ^ 40 then s.exportVc domain loc (fun _ => true) else none) with
    | none => .done { s with dev := { s.dev with rejh := satInc s.dev.rejh } } (some 0)
    | some v => match s.readAtHome (.agent 2 q) v domain (loc / 128) with
      | .busy s => .busy s
      | .done s u => .done s (if u.poison then none else some u.data)

/-- The sixteen doublewords of a unit. -/
def unitWords (u : Unit128) : List Word := (List.range 16).map fun i => u.extractLsb' (64 * i) 64

/-! ### Groups and caches of a launch -/

/-- A group's rectangle is well formed (14 R311). -/
def rectOk (w : Word) : Bool :=
  fld w 1 35 == 0 && decide (fld w 48 4 + fld w 40 4 ≤ 15) && decide (fld w 44 4 + fld w 36 4 ≤ 15)
/-- The groups a core belongs to, in ascending group id. -/
def groupsOf (gs : List (List Word)) (c : Nat) : List Nat :=
  (List.range gs.length).filter fun g => (gs.getD g []).any fun w => rectIn w c

/-- Activates a cache (05 R122): foreign shares are scrubbed and retagged, then STATE is ACTIVE. -/
def State.activateCache (s : State) (v : Nat) : State :=
  let r := s.cdr v
  let g := r.geo
  let s := (allCores.filter fun c => Geo.has g c).foldl (fun s c => s.modCore c fun k =>
    { k with owners := (List.range 16).foldl (fun o i => if Geo.fsh g ≤ i ∧ i ≤ Geo.fsh g + Geo.nsh g then tset o i r.domain else o) k.owners }) s
  s.modCdr v fun r => r.setState 2

/-- Starts a retirement (05 R122): a DEFINED record is zeroed, an ACTIVE one begins RETIRING. -/
def State.retireCache (s : State) (v : Nat) (bar : Word) (op : VcOp) : State :=
  let r := s.cdr v
  if r.state = 1 then { s with cdrs := tdel s.cdrs v }
  else if r.state = 2 then s.setCdr v { (if r.ops.isEmpty then { r.setState 4 with progress := 0, psn := false } else r.setState 4) with bar := some (bar, op) }
  else s

end Sys2Proof.Machine
end

