-- ==== Sys2Proof/Machine/Control.lean ====
section
/-! DEFINITION. Halting and resuming contexts (17 R359), the cluster debug module and the state log (24 R419 to R424), and
device control space (01 R31): what each register reads and what a write of it does. -/

namespace Sys2Proof.Machine

/-! ### Halt and resume (17 R359) -/

/-- What stops a core's matrix operation: a halt of its issuing context, a halt of the core, a migration (09 R212). -/
def mxHaltIssuer : Nat := 1
def mxHaltCore : Nat := 2
def mxMigration : Nat := 4
/-- An interrupted matrix operation stops at an interrupt point: STEP and PEND are written (09 R212). -/
def Core.stopMx (k : Core) : Core :=
  match k.mxq with
  | o :: _ => if o.begun && !o.abandoned && k.mxstop != 0 then { k with mxpend := true, mxstep := BitVec.ofNat 32 o.step } else k
  | [] => k
/-- Interrupts a core's running matrix operation, at once when no step is in progress, else when that step is finished (09 R212). -/
def Core.interruptMx (k : Core) (why : Nat) : Core :=
  if k.mxq.isEmpty then k else
  let k := { k with mxstop := k.mxstop ||| why }
  if k.mxbuf.isEmpty then k.stopMx else k
/-- What still stops the operation after a context of its core has resumed: a halt of the core ends then, one of the issuing context with
that context's resume (09 R212). -/
def Core.mxstopAfter (k : Core) (x : Nat) : Nat :=
  match k.mxq with
  | o :: _ => k.mxstop / 4 * 4 + (if o.issuer = some x then 0 else k.mxstop % 2)
  | [] => 0

/-- A context stops issuing and keeps what it waits for (17 R359). -/
def State.stopCtx (s : State) (c x : Nat) : State :=
  let y := s.ctx c x
  if y.st = .dormant ∨ y.st = .halted then s else s.modCtx c x fun y => { y with st := .halted }
/-- Halts one context, and interrupts the matrix operation that it has issued (17 R359, 09 R212). -/
def State.haltCtx (s : State) (c x : Nat) : State :=
  let y := s.ctx c x
  if y.st = .dormant ∨ y.st = .halted then s else
  (s.stopCtx c x).modCore c fun k => match k.mxq with
    | o :: _ => if o.issuer = some x then k.interruptMx mxHaltIssuer else k
    | [] => k

/-- A context that goes on at its bwait gives up its place at the object and registers again (15 R319). -/
def State.unregister (s : State) (c x : Nat) : State :=
  match (s.ctx c x).wait with
  | .bwait _ _ =>
    { s.modCtx c x fun y => { y with wait := .none } with
      bWaiters := s.bWaiters.filter fun w => !(w.core == c && w.ctx == x)
      net := s.net.filter fun f => match f.pkt with
        | .bwaitAns d y => !(s.forwarded d == c && y == x)
        | _ => true }
  | _ => s
/-- Resumes a HALTED context at its resume point, or at EPC (17 R359, R358); what it had fetched ahead is discarded (01 R438), and its first
instruction steps over breakpoints (24 R420). REPST.ACT says that a body is in progress at EPC, and rotation restarts when the context goes
on there (10 R229; assumption 51, DEDUCED). -/
def State.resumeCtx (s : State) (c x : Nat) (useEpc : Bool) : State :=
  let s := s.unregister c x
  let s := s.modCtx c x fun y =>
    let at_ := if useEpc then y.epc else y.pc
    -- a trap whose handler's entry was being waited for stays pending (17 R358)
    let y := match y.wait with
      | .trapEntry t => if useEpc && y.ptrap.isNone then { y with ptrap := some (t, y.seq) } else y
      | _ => y
    let y := if useEpc || (y.rep.isNone && y.pc == y.epc) then ({ y with rep := none } : Ctx).restartRep y.epc else y
    { y with
      st := match y.wait with
        | .none => .ready
        | _ => .parked
      wait := if useEpc then .none else y.wait
      pc := at_
      fetched := []
      kept := if useEpc then none else y.kept
      gonged := none
      ranged := false
      stepOver := true }
  let s := s.modCtx c x fun y => if useEpc then { y with st := .ready } else y
  -- the interrupted operation of a resumed issuer, or of a resumed core, goes on (09 R212)
  let s := s.modCore c fun k => { k with treeHalted := false, mxstop := k.mxstopAfter x, exitSucc := if x = 0 then none else k.exitSucc }
  let s := s.settle c x
  if (s.ctx c x).wait = .none then s.takePending c x else s

/-! ### The state log (24 R423, R424) -/

def State.dbgOf (s : State) (cl : Nat) : Dbg := tget s.dbg cl Dbg.reset
def State.modDbg (s : State) (cl : Nat) (f : Dbg → Dbg) : State := { s with dbg := tset s.dbg cl (f (s.dbgOf cl)) }
/-- One entry of the ring; overwriting one sets WRAP. -/
def Core.tracePut (k : Core) (e : Nat) : Core :=
  { k with
    traceWrap := k.traceWrap || (tget? k.trace k.traceAt).isSome
    trace := tset k.trace k.traceAt (BitVec.ofNat 64 e)
    traceAt := (k.traceAt + 1) % 512 }
/-- The largest DELTA. -/
def traceMax : Nat := 2 ^ 28 - 1
/-- Gap entries that a long DELTA needs first. -/
def Core.traceGaps (k : Core) (now : Nat) : Nat → Core
  | 0 => k
  | n + 1 => if now - k.traceLast ≤ traceMax then k
    else ({ k.tracePut (2 * 2 ^ 62 + k.traceState.toNat * 2 ^ 60 + traceMax * 2 ^ 32) with traceLast := k.traceLast + traceMax }).traceGaps now n
/-- Writes an entry of a kind, with its DELTA. -/
def Core.traceEntry (k : Core) (now kind st data : Nat) : Core :=
  let k := k.traceGaps now ((now - k.traceLast) / traceMax)
  { k.tracePut (kind * 2 ^ 62 + st * 2 ^ 60 + (now - k.traceLast) * 2 ^ 32 + data) with traceLast := now }
/-- Whether a core's state log runs. -/
def State.tracing (s : State) (c : Nat) : Bool := (s.dbgOf (clusterOf c)).tren && s.dev.dbgen.getLsbD 1
/-- Whether a context waits for memory: an access of it has not performed, words of its stores are on their way home, or a translation is
awaited (24 R423). -/
def State.memoryOut (s : State) (c x : Nat) : Bool :=
  ((s.core c).opsOf x).any (fun o => !o.allDone || (!o.lanes.isEmpty && o.hasResult)) || s.wordsOut c x ||
    (match (s.ctx c x).wait with
    | .xlate _ => true
    | _ => false)
/-- The state a core is in: `issued` says that a context issued (24 R423). -/
def State.traceStateOf (s : State) (c : Nat) (issued : Bool) : BitVec 2 :=
  let waits (p : Nat → Bool) : Bool := allCtx.any fun x => ((s.ctx c x).st = .parked ∨ (s.ctx c x).st = .held) && p x
  if issued then 0
  else if waits (s.memoryOut c) then 2
  else if waits fun x => match (s.ctx c x).wait with
    | .bwait _ _ => true
    | .message => true
    | .join => true
    | _ => false then 1
  else 3
/-- A change of a core's state in a cycle writes an entry. -/
def State.traceNote (s : State) (c now : Nat) (issued : Bool) : State :=
  if !s.tracing c then s else
  let st := s.traceStateOf c issued
  if st = (s.core c).traceState then s
  else s.modCore c fun k => { k.traceEntry now 0 st.toNat 0 with traceState := st }
/-- A context of a core issues in this cycle. -/
def State.traceIssue (s : State) (c : Nat) : State :=
  if !s.tracing c then s else (s.traceNote c s.clock true).modCore c fun k => { k with issuedAt := s.clock }
/-- The cores of the clusters whose state log runs. -/
def State.tracedCores (s : State) : List Nat := (s.dbg.filter fun p => p.2.tren).flatMap fun p => coresOf p.1
/-- What the logs note as time goes on by some cycles: the state of a core that did not issue in the cycle that ends, and of every core in
the cycles in which nothing moves (24 R423). -/
def State.traceTime (s : State) (elapsed : Nat) : State :=
  if elapsed = 0 then s else
  s.tracedCores.foldl (fun s c =>
    let s := if (s.core c).issuedAt = s.clock then s else s.traceNote c s.clock false
    if elapsed = 1 then s else s.traceNote c (s.clock + 1) false) s

/-! ### Breakpoints and the cross-trigger (24 R420, R421) -/

/-- Records a hit when none is recorded. -/
def Dbg.record (d : Dbg) (cause core : Nat) : Dbg := if d.recorded then d else { d with recorded := true, cause := cause, core := core }
/-- The cross-trigger fires: the cluster's compute contexts halt and its copy engine freezes (24 R421). -/
def State.gong (s : State) (cl : Nat) : State :=
  if (s.dbgOf cl).frozen then s else
  let cores := ((List.range 256).map fun n => 256 * cl + n).filter fun c => s.isCompute c && !(s.core c).moving
  let s := cores.foldl (fun s c =>
    let s := allCtx.foldl (fun s x =>
      let y := s.ctx c x
      if y.st = .dormant ∨ y.st = .halted then s else s.modCtx c x fun y => { y with st := .halted, gonged := some cl }) s
    if (s.core c).mxq.isEmpty then s else s.modCore c fun k => k.interruptMx mxHaltCore) s
  s.modDbg cl fun d => { d.record 0 (256 * cl) with frozen := true }
/-- Resumes a core's contexts that a cluster's cross-trigger halted. -/
def State.ungongCore (s : State) (cl c : Nat) : State :=
  let s := allCtx.foldl (fun s x => if (s.ctx c x).gonged = some cl ∧ (s.ctx c x).st = .halted then s.resumeCtx c x false else s) s
  s.modCore c fun k => { k with mxstop := k.mxstop / 4 * 4 + k.mxstop % 2 }
/-- A write of RELEASE: exactly the contexts that the cross-trigger halted resume, wherever a migration has taken them (24 R421). -/
def State.ungong (s : State) (cl : Nat) : State :=
  let cores := (s.cores.map fun p => p.1).filter fun c => s.isCompute c && (clusterOf c == cl || allCtx.any fun x => (s.ctx c x).gonged == some cl)
  (cores.foldl (fun s c => s.ungongCore cl c) s).modDbg cl fun d => { d with frozen := false, recorded := false, cause := 0, core := 0 }
/-- A hit of a breakpoint or watchpoint, or bkpt: the context becomes HALTED at the instruction (24 R420, 17 R358). -/
def State.debugHit (s : State) (c x cause : Nat) (xt : Bool) : State :=
  let s := s.haltCtx c x
  let cl := clusterOf c
  let s := s.modDbg cl fun d => d.record cause c
  if xt ∧ (s.dbgOf cl).xten then s.gong cl else s

/-! ### Device registers -/

/-- DEVSTAT (24 R413). -/
def State.devstat (s : State) : Word :=
  let d := s.dev
  BitVec.ofNat 64 (s.devNum + d.svc % 16 * 2 ^ 32 + d.attDone.toNat * 2 ^ 46 + d.pwrthr.toNat * 2 ^ 47 + d.hot.toNat * 2 ^ 48
    + d.bootErr % 16 * 2 ^ 56 + d.stage % 8 * 2 ^ 60 + d.ready.toNat * 2 ^ 63)

/-- A KEYLOAD write (18 R381). -/
def State.keyload (s : State) : State :=
  if s.dev.fabcfg.getLsbD 63 then s else
  let bytes := (List.range 1608).map fun i => s.dev.keyBlock.byte i
  match Config.jobKey bytes with
  | none => s
  | some k => { s with
      dev := { s.dev with keyBlock := [], jobKey := some k, fabcfg := setFld s.dev.fabcfg 63 1 1 }
      ports := s.ports.map fun (p : Nat × Port) => (p.1, { p.2 with counter := 0 }) }

/-- A write of PEN = 0: the job key is zeroised and every port drops what it holds (18 R382). -/
def State.dissolve (s : State) : State :=
  { s with
    dev := { s.dev with jobKey := none, fabcfg := setFld (setFld s.dev.fabcfg 63 1 0) 62 1 0 }
    net := s.net.filter fun f => match f.pkt with
      | .pktOut _ _ _ => false
      | _ => true
    ports := s.ports.map fun (p : Nat × Port) => (p.1, { p.2 with tx := [], part := 0, replay := [], fails := [] }) }

/-- A write of FABCFG (18 R373). -/
def State.writeFabcfg (s : State) (v : Word) : State :=
  if s.dev.fabcfg.getLsbD 62 then (if v.getLsbD 62 then s else s.dissolve)
  else
    let w := BitVec.ofNat 64 (fld v 0 14 + fld v 35 18 * 2 ^ 35 + fld v 62 1 * 2 ^ 62 + fld s.dev.fabcfg 63 1 * 2 ^ 63)
    { s with dev := { s.dev with fabcfg := w } }

/-- A write of BOOTGO: the boot ROM begins to read and verify the image, in STAGE 2 only (24 R414, R415). -/
def State.bootgo (s : State) : State := if s.dev.stage = 2 then { s with dev := { s.dev with stage := 3 } } else s

/-- The bytes of a little-endian doubleword. -/
def wordBytes (w : Word) : List Byte := (List.range 8).map fun i => w.extractLsb' (8 * i) 8

/-- A write of ATTGO: the report over the nonce present at that moment (24 R418). -/
def State.attest (s : State) : State :=
  let nonce := (List.range 32).map fun i => s.dev.attNonce.byte i
  let stat := { s with dev := { s.dev with attDone := false } }.devstat
  let head := (Config.imageDigest s.dev.image).take 64
  let head := head ++ List.replicate (64 - head.length) 0
  let body := head ++ nonce ++ wordBytes stat
  let sig := Config.identitySignature body
  let all := body ++ wordBytes (BitVec.ofNat 64 sig.length) ++ sig
  { s with dev := { s.dev with report := Memory.ofBytes all, attDone := true } }

/-- A read of a debug register of cluster cl (24 R419); TRCDATA advances RD. -/
def State.debugRead (s : State) (cl off : Nat) : State × Word :=
  let d := s.dbgOf cl
  let c := 256 * cl + d.sel
  let k := s.core c
  let w (n : Nat) : State × Word := (s, BitVec.ofNat 64 n)
  match off with
  | 0x00 => w (d.bken.toNat + d.tren.toNat * 2 + d.xten.toNat * 4)
  | 0x08 => w (d.core + d.cause * 2 ^ 13 + d.frozen.toNat * 2 ^ 63)
  | 0x10 => w d.sel
  | 0x18 => w d.cecnt
  | 0x60 => w k.hcyc
  | 0x68 => (s, k.hmcnt)
  | 0x70 => w k.lateReplies
  | 0x78 => w (k.traceAt + k.traceWrap.toNat * 2 ^ 15 + k.traceRd * 2 ^ 16)
  | 0x80 => (s.modCore c fun k => { k with traceRd := (k.traceRd + 1) % 512 }, tget k.trace k.traceRd 0)
  | off => if 0x20 ≤ off ∧ off ≤ 0x58 then (s, tget k.bp ((off - 0x20) / 8) 0) else (s, 0)

/-- A write of a debug register (24 R419, R420); DBGEN bits that are 0 discard the matching control. -/
def State.debugWrite (s : State) (cl off : Nat) (v : Word) : State :=
  let c := 256 * cl + (s.dbgOf cl).sel
  match off with
  | 0x00 =>
    let en := s.dev.dbgen
    let s := s.modDbg cl fun d => { d with
      bken := v.getLsbD 0 && en.getLsbD 0, tren := v.getLsbD 1 && en.getLsbD 1, xten := v.getLsbD 2 && en.getLsbD 2 }
    let s := if v.getLsbD 3 then s.ungong cl else s
    if v.getLsbD 4 ∧ en.getLsbD 2 then s.gong cl else s
  | 0x10 => s.modDbg cl fun d => { d with sel := fld v 0 8 }
  | 0x18 => s.modDbg cl fun d => { d with cecnt := 0 }
  | 0x70 => s.modCore c fun k => { k with lateReplies := 0 }
  | 0x78 => s.modCore c fun k => { k with traceRd := fld v 16 9 }
  | off =>
    if 0x20 ≤ off ∧ off ≤ 0x38 then s.modCore c fun k => { k with bp := wset k.bp ((off - 0x20) / 8) (v &&& 0xCFFFFFFFFFFFFFFF) }
    else if off = 0x40 ∨ off = 0x48 then s.modCore c fun k => { k with bp := wset k.bp ((off - 0x20) / 8) v }
    else if off = 0x50 ∨ off = 0x58 then s.modCore c fun k => { k with bp := wset k.bp ((off - 0x20) / 8) (v &&& 0x1F) }
    else s

/-- Whether an 8-byte offset is inside a byte range. -/
def within (off lo n : Nat) : Bool := decide (lo ≤ off) && decide (off < lo + n)

/-- A read of device control space outside the per-core windows (01 R31, 24, 18, 16 R333, 05 R113): reserved offsets
read zero, and so do BOOTGO, ATTGO and KEYLOAD, for which the spec gives no access code (assumption 52, DESIGN CHOICE, unsafe). -/
def State.ctrlRead (s : State) (off : Nat) : State × Word :=
  let d := s.dev
  let bytes (f : Nat → Byte) : Word := BitVec.ofNat 64 (packLanes 8 (fun i => (f i).toNat) 8)
  if off = 0 then (s, s.devstat)
  else if off = 0x08 then (s, d.bootAddr)
  else if off = 0x10 then (s, d.bootLen)
  else if within off 0x40 32 then (s, BitVec.ofNat 64 (d.attNonce.read (off - 0x40) 8))
  else if within off 0x1000 1793 ∨ within off 0x1800 1568 then (s, bytes fun i =>
    if within (off + i) 0x1000 1793 ∨ within (off + i) 0x1800 1568 then Config.publicKeyByte (off + i - 0x1000) else 0)
  else if within off 0x2000 0x1000 then (s, BitVec.ofNat 64 (d.report.read (off - 0x2000) 8))
  else if off = 0x8000 then (s, d.fabcfg)
  else if off = 0x8008 then (s, d.hostcfg)
  else if off = 0x8020 then (s, d.rejh.setWidth 64)
  else if off = 0x8028 then (s, d.rejf.setWidth 64)
  else if within off 0x8100 256 then
    let e := tget d.exports ((off - 0x8100) / 16) (0, 0)
    (s, if off % 16 = 0 then e.1 else e.2)
  else if within off 0x8800 1608 then (s, BitVec.ofNat 64 (d.keyBlock.read (off - 0x8800) 8))
  else if within off 0xC000 0x2000 then s.debugRead ((off - 0xC000) / 256) ((off - 0xC000) % 256)
  else if within off 0x10000 0x10000 then (s, (s.queue ((off - 0x10000) / 8)).tail.setWidth 64)
  else if within off 0x100000 0x80000 then (s, s.queueRead ((off - 0x100000) / 64) ((off - 0x100000) % 64 / 8))
  else if within off 0x1000000 0x2000 then
    let r := s.cdr ((off - 0x1000000) / 32)
    (s, match (off - 0x1000000) % 32 / 8 with
      | 0 => r.w0
      | 1 => r.w1
      | 2 => r.epoch.setWidth 64
      | _ => 0)
  else (s, 0)

/-- A write of device control space outside the per-core windows: reserved and read-only offsets discard it. The spec gives BOOTADDR,
BOOTLEN, ATTNONCE and the key block no access code: they read back what was written, BOOTADDR without the low 12 bits that its alignment
excludes (assumption 52, DESIGN CHOICE, unsafe). -/
def State.ctrlWrite (s : State) (off : Nat) (v : Word) : State :=
  let dev (f : Dev → Dev) : State := { s with dev := f s.dev }
  if off = 0x08 then dev fun d => { d with bootAddr := BitVec.ofNat 64 (v.toNat / 4096 * 4096) }
  else if off = 0x10 then dev fun d => { d with bootLen := v }
  else if within off 0x40 32 then dev fun d => { d with attNonce := d.attNonce.write (off - 0x40) v.toNat 8 }
  else if off = 0x18 then s.bootgo
  else if off = 0x60 then s.attest
  else if off = 0x8000 then s.writeFabcfg v
  else if off = 0x8008 then dev fun d => { d with hostcfg := v &&& 0x7FF }
  else if off = 0x8018 then s.keyload
  else if off = 0x8020 then dev fun d => { d with rejh := 0 }
  else if off = 0x8028 then dev fun d => { d with rejf := 0 }
  else if within off 0x8100 256 then
    let i := (off - 0x8100) / 16
    dev fun d =>
      let e := tget d.exports i (0, 0)
      let e := if off % 16 = 0 then (BitVec.ofNat 64 (fld v 12 30 * 4096), e.2) else (e.1, v &&& 0xFFFFFC00FFFFFFFF)
      { d with exports := tset d.exports i e }
  else if within off 0x8800 1608 then dev fun d => { d with keyBlock := d.keyBlock.write (off - 0x8800) v.toNat 8 }
  else if within off 0xC000 0x2000 then s.debugWrite ((off - 0xC000) / 256) ((off - 0xC000) % 256) v
  else if within off 0x10000 0x10000 then s.ringDoorbell ((off - 0x10000) / 8) v
  else if within off 0x100000 0x80000 then s.queueWrite ((off - 0x100000) / 64) ((off - 0x100000) % 64 / 8) v
  else s

/-- The core and window offset of a per-core window offset of control space (01 R31), following forwarding entries. -/
def State.ctrlCore (s : State) (off : Nat) : Option (Nat × Nat) :=
  if within off 0x10000000 0x2000000 then some (s.forwarded ((off - 0x10000000) / 4096), off % 4096) else none

/-- A host read of a register through CXL.io (18 R366): every register, and the per-core windows, whose holes read zero (03 R81). -/
def State.hostRead (s : State) (off : Nat) : State :=
  let (s, v) := match s.ctrlCore off with
    | none => s.ctrlRead off
    | some (c, o) => match windowCsr o with
      | some (x, n) => (s, s.csrRead c x n)
      | none => (s, 0)
  { s with hostOut := s.hostOut ++ [.ctrlRead off v] }
/-- A host write through CXL.io (18 R366): every register, and the per-core windows, whose holes discard it (03 R81). -/
def State.hostWrite (s : State) (off : Nat) (v : Word) : State :=
  match s.ctrlCore off with
  | none => s.ctrlWrite off v
  | some (c, o) => match windowCsr o with
    | some (x, n) => if csrWritable n true then s.csrWrite c x n v none else s
    | none => s

end Sys2Proof.Machine
end

