-- ==== Sys2Proof/Machine/Access.lean ====
section
/-! DEFINITION. What every access of a context does: the window rules of local space (01 R19 to R25), translation (04 R88),
where it performs (08 R175), and the orders a context keeps (07 R160, R161). An operation performs its lanes at issue where
it can; what is left goes on in events. -/

namespace Sys2Proof.Machine

/-- A fault of an access. -/
def accFault (c : Cause) (info : Nat) (va : Addr) : FaultInfo :=
  { cause := c, info := BitVec.ofNat 32 info, addr := va, undeliv := false }

/-! ### Local space (01 R19 to R25) -/

/-- Natural alignment of n bytes: the address is a multiple of n, and of the next power of two for a tile row that is no power of two long
(01 R20; assumption 78, DESIGN CHOICE, unsafe). -/
def natural (off n : Nat) : Bool := off % 2 ^ (((List.range 7).find? fun i => decide (n ≤ 2 ^ i)).getD 6) == 0
/-- Windows of a core's storage at an offset below 0x36000, for an access of n bytes: `c` holds the storage, `atomic` says
an atomic, cas or cas2, which faults XLATE on every window but the TCM (08 R175). Alignment comes first, then a tile's configuration. -/
def State.coreWindow (s : State) (c off n : Nat) (write atomic : Bool) (va : Addr) : Except FaultInfo Place :=
  let k := s.core c
  let win (size : Bool) (p : Place) : Except FaultInfo Place :=
    if atomic then .error (accFault .xlate 0 va) else if size then .ok p else .error (accFault .misalign 0 va)
  -- a poisoned tile that is BUSY is waited for first (13 R283)
  if off + n ≤ 0x10000 then .ok (.tcm c off)
  else if 0x10000 ≤ off ∧ off + n ≤ 0x10400 then win true (.slot c (off - 0x10000))
  else if 0x20000 ≤ off ∧ off + n ≤ 0x28000 then win (n == 8 && off % 8 == 0) (.ramEntry c ((off - 0x20000) / 8))
  else if 0x28000 ≤ off ∧ off + n ≤ 0x2D800 then
    let o := off - 0x28000
    win (natural off n) (.vreg c (o / 2048) (o % 2048))
  else if 0x30000 ≤ off ∧ off + n ≤ 0x32000 then
    let t := (off - 0x30000) / 1024
    if atomic then .error (accFault .xlate 0 va)
    else if !natural off n then .error (accFault .misalign 0 va)
    else if (k.tile t).rows = 0 then .error (accFault .tileUnconf t va)
    else if (k.tile t).psn ∧ !write ∧ !k.tileBusy t then .error (accFault .poison t va)
    else .ok (.tile c t ((off - 0x30000) % 1024))
  else if 0x34000 ≤ off ∧ off + n ≤ 0x342C0 then
    let o := off - 0x34000
    win (n == 8 && off % 8 == 0) (.mask c (o / 64) (o % 64 / 8))
  else if 0x35000 ≤ off ∧ off + n ≤ 0x352C0 then
    let o := off - 0x35000
    win (n == 8 && off % 8 == 0) (.glob c (o / 64) (o % 64 / 8))
  else .error (accFault .xlate 0 va)

/-- A scratch access is checked against the BSPLIT of the core whose bank it names (01 R22, R23). -/
def State.scratchPlace (s : State) (c off : Nat) (va : Addr) : Except FaultInfo Place :=
  if (s.core c).bsplit * 65536 ≤ off then .error (accFault .vcFault (8 + posOf c * 2 ^ 16) va) else .ok (.scratch c off)

/-- The core and offset of a byte of a cluster's interleaved view (01 R23). -/
def State.interByte (s : State) (cl a : Nat) : Nat × Nat := (s.forwarded (256 * cl + bitsOf a 3 8), bitsOf a 11 17 * 8 + a % 8)
/-- An access of n bytes to the interleaved view of core c: each granule of 8 bytes is on its own core, whose BSPLIT is checked (01 R23,
R24). -/
def State.interPlace (s : State) (c a n : Nat) (va : Addr) : Except FaultInfo Place :=
  let cl := clusterOf c
  let (d, o) := s.interByte cl a
  if n ≤ 8 then s.scratchPlace d o va else
  match (List.range (n / 8)).find? fun i => let (d, o) := s.interByte cl (a + 8 * i); decide ((s.core d).bsplit * 65536 ≤ o) with
  | some i => s.scratchPlace (s.interByte cl (a + 8 * i)).1 (s.interByte cl (a + 8 * i)).2 va
  | none => .ok (.inter cl a)

/-- The place of a local-space access of context x of core c (01 R19 to R25, 03 R81); natural alignment has been checked. -/
def State.localPlace (s : State) (c : Nat) (sup : Bool) (va : Addr) (n : Nat) (write atomic : Bool) : Except FaultInfo Place :=
  let off := va.toNat - 2 ^ 55
  if off < 0x36000 then s.coreWindow c off n write atomic va
  else if 0x40000 ≤ off ∧ off < 0x41000 then
    if atomic then .error (accFault .xlate 0 va)
    else if n ≠ 8 then .error (accFault .misalign 0 va)
    else match windowCsr (off - 0x40000) with
      | none => .error (accFault .xlate 0 va)
      | some (_, r) => if write ∧ !sup ∧ !csrWritable r false then .error (accFault .priv 0 va) else .ok (.csr c (off - 0x40000))
  else if 0x100000 ≤ off ∧ off < 0x200000 then s.scratchPlace c (off - 0x100000) va
  else if 0x10000000 ≤ off ∧ off < 0x20000000 then
    let a := off - 0x10000000
    s.interPlace c a n va
  else if 0x20000000 ≤ off ∧ off < 0x30000000 then
    let a := off - 0x20000000
    let d := s.forwarded (256 * clusterOf c + a / 0x100000)
    if !sup then .error (accFault .priv 0 va)
    -- an atomic reaches the TCM of its own core only (08 R175)
    else if atomic ∧ d ≠ c then .error (accFault .xlate 0 va)
    else if a % 0x100000 < 0x36000 then s.coreWindow d (a % 0x100000) n write atomic va
    else .error (accFault .xlate 0 va)
  else .error (accFault .xlate 0 va)

/-! ### Translation by a context (04 R88) -/

/-- Translates for the issuing context: a miss parks it until a tlbfill answers. -/
def xlateM (acc : Acc) (va : Addr) : M Target := fun s =>
  let c := s.curCore
  let sup := decide (s.me.mode = .supervisor)
  match s.tlb c (s.core c).domain sup va.toNat with
  | (some e, t) => match t.checkEnt (t.core c).domain sup acc e va with
    | .ok g => .ok (g, t)
    | .error f => .error (.fault f)
  | (none, t) =>
    let tag := (t.core c).freshTag
    let t := t.sendXreq c { tag := tag, agent := 0, slot := s.curCtx, acc := acc, va := va, sup := sup, refusal := none }
      (t.core c).domain s.me.pc
    .error (.wait (t.modMe fun y => { y with st := .parked, wait := .xlate tag }))

/-- An access of n bytes resolved to its place, with the page-table units its translation came from (08 R174). Only scalar accesses reach a
register of control space: `wide` says that this is a vector, element or tile access (01 R29). -/
def placeM (wide : Bool) (acc : Acc) (va : Addr) (n : Nat) : M (Place × List Nat) := do
  if va.getLsbD 55 then
    let r ← getM fun s => s.localPlace s.curCore (decide (s.me.mode = .supervisor)) va n (decide (acc ≠ .read)) (decide (acc = .atomic))
    match r with
    | .ok p => return (p, [])
    | .error f => stop (.fault f)
  else
    match ← xlateM acc va with
    | .unit e pa => return (.unit e.vcid e.cls e.key pa, e.srcs)
    | .host e pa => return (.hostw pa, e.srcs)
    | .remote e pa => return (.remote e.cls e.key pa, e.srcs)
    | .ctrl e off =>
      if wide ∨ acc = .atomic then faultM .xlate 0 va
      else if n ≠ 8 then faultM .misalign 0 va
      else
        let hole ← getM fun s => match s.ctrlCore off with
          | some (_, o) => (windowCsr o).isNone
          | none => false
        if hole then faultM .xlate 0 va else return (.ctrl off, e.srcs)

/-! ### Lanes at storage -/

/-- A lane on byte storage. -/
def Lane.onMemory (l : Lane) (m : Memory) (off : Nat) : Memory × Vec :=
  let old := m.read off l.n
  (match l.op.apply l.n old with
    | some v => m.write off v l.n
    | none => m, BitVec.ofNat 512 old)

/-- A lane on a vector-shaped register of 64 bytes. -/
def Lane.onVec (l : Lane) (v : Vec) (off : Nat) : Vec × Vec :=
  let old := bitsOf v.toNat (8 * off) (8 * l.n)
  (match l.op.apply l.n old with
    | some w => BitVec.ofNat 512 (setBits v.toNat (8 * off) (8 * l.n) w)
    | none => v, BitVec.ofNat 512 old)

/-- A lane on a doubleword register. -/
def Lane.onWord (l : Lane) (w : Word) : Word × Vec :=
  (match l.op.apply 8 w.toNat with
    | some v => BitVec.ofNat 64 v
    | none => w, w.setWidth 512)

/-- A row of a tile, zero where nothing is listed. -/
def Tile.row (t : Tile) (i : Nat) : Vec := tget t.content i 0
def Tile.setRow (t : Tile) (i : Nat) (v : Vec) : Tile :=
  { t with content := if v = 0 then tdel t.content i else tset t.content i v }
/-- Byte mask of the configured part of a row (01 R20, 13 R268). -/
def Tile.rowMask (t : Tile) (i : Nat) : Vec := if i < t.rows then BitVec.ofNat 512 (2 ^ (8 * t.rowb) - 1) else 0

/-- One byte of a core's message slots, which are contiguous (01 R19). -/
def slotByte (m : Assoc Vec) (a : Nat) : Nat := bitsOf (tget m (a / 64) 0).toNat (8 * (a % 64)) 8
/-- Writes one byte of a core's message slots; a slot of zeros is not listed. -/
def slotPut (m : Assoc Vec) (a b : Nat) : Assoc Vec :=
  let v : Vec := BitVec.ofNat 512 (setBits (tget m (a / 64) 0).toNat (8 * (a % 64)) 8 b)
  if v = 0 then tdel m (a / 64) else tset m (a / 64) v

/-- The lane marked done with its data. -/
def Lane.finish (l : Lane) (d : Vec) : Lane := { l with done := true, data := d }

/-- Performs a lane at storage outside the coherent memory: TCM, slots, scratch, the register windows, control space and
the host window (01 R19 to R25, R29; 10 R222; 18 R370). Other places are left alone. -/
def State.storageLane (s : State) (l : Lane) : State × Lane :=
  match l.place with
  | .tcm c off =>
    let (m, d) := l.onMemory (s.core c).tcm off
    (s.modCore c fun k => { k with tcm := m }, l.finish d)
  | .slot c off =>
    let old := packLanes 8 (fun i => slotByte (s.core c).slots (off + i)) l.n
    (match l.op.apply l.n old with
      | some v => s.modCore c fun k => { k with slots := (List.range l.n).foldl (fun m i => slotPut m (off + i) (bitsOf v (8 * i) 8)) k.slots }
      | none => s, l.finish (BitVec.ofNat 512 old))
  | .scratch c off =>
    let (m, d) := l.onMemory (s.core c).scratch off
    (s.modCore c fun k => { k with scratch := m }, l.finish d)
  | .inter cl a =>
    let byte (i : Nat) : Nat := let (c, o) := s.interByte cl (a + i); ((s.core c).scratch.byte o).toNat
    let old := packLanes 8 byte l.n
    (match l.op.apply l.n old with
      | some v => (List.range l.n).foldl (fun s i =>
          let (c, o) := s.interByte cl (a + i)
          s.modCore c fun k => { k with scratch := k.scratch.setByte o (BitVec.ofNat 8 (bitsOf v (8 * i) 8)) }) s
      | none => s, l.finish (BitVec.ofNat 512 old))
  | .ramEntry c e =>
    let (w, d) := l.onWord (tget (s.core c).ram e 0)
    (s.modCore c fun k => { k with ram := wset k.ram e w }, l.finish d)
  | .vreg c x off =>
    let (v, d) := l.onVec ((s.ctx c x).vec (off / 64)) (off % 64)
    (s.modCtx c x fun y => y.setVec (off / 64) v, l.finish d)
  | .tile c t off =>
    let k := s.core c
    let tl := k.tile t
    let i := off / 64
    let m := tl.rowMask i
    let (v, d) := l.onVec (tl.row i &&& m) (off % 64)
    -- a write that lies wholly beyond the shape is discarded (01 R20)
    let tl := if l.op.writes && (m >>> (8 * (off % 64))).setWidth 8 != 0 then { tl.setRow i (v &&& m) with st := 2 } else tl
    (s.setCore c (k.setTile t tl), l.finish d)
  | .mask c x j =>
    let (w, d) := l.onWord ((s.ctx c x).mask j)
    (s.modCtx c x fun y => y.setMask j w, l.finish d)
  | .glob c x j =>
    let (w, d) := l.onWord (s.readDst c x (if j = 0 then .none else .glob j))
    (s.writeDst c x (if j = 0 then .none else .glob j) w, l.finish d)
  | .csr c off => match windowCsr off with
    | none => (s, l.finish 0)
    | some (x, n) =>
      let (w, d) := l.onWord (s.csrRead c x n)
      (if l.op.writes ∧ csrWritable n true then s.csrWrite c x n w none else s, l.finish d)
  | .ctrl off => match s.ctrlCore off with
    | some (c, o) => match windowCsr o with
      | none => (s, l.finish 0)
      | some (x, n) =>
        let (w, d) := l.onWord (s.csrRead c x n)
        (if l.op.writes ∧ csrWritable n true then s.csrWrite c x n w none else s, l.finish d)
    | none =>
      match l.op with
      | .write v _ => (s.ctrlWrite off (v.setWidth 64), l.finish 0)
      | .save v _ => (s.ctrlWrite off (v.setWidth 64), l.finish 0)
      | _ => let (s, w) := s.ctrlRead off; (s, l.finish (w.setWidth 512))
  | .hostw pa =>
    let (m, d) := l.onMemory s.hostMem pa
    ({ s with hostMem := m }, l.finish d)
  | _ => (s, l)

/-! ### TRACKED lanes in the L1 (06 R134) -/

/-- Whether a TRACKED lane can perform in an L1: under S, E or M for a read, under M for a write, while no translation entry is derived from
the unit (04 R95). -/
def State.canPerform (s : State) (c : Nat) (l : Lane) : Bool :=
  match l.place with
  | .unit vcid .tracked key pa => match (s.core c).copy? (pa / 128) .tracked with
    | some cp => cp.vcid == vcid && cp.key == key && 
        (!l.op.writes || (decide (cp.st = .m) && (s.home vcid (pa / 128)).tshare.isEmpty)) && decide (l.op ≠ .later)
    | none => false
  | _ => false

/-- tcancel acts on a flags word in this cycle (14 R303). -/
def State.noteCancel (s : State) (pa : Nat) : State :=
  { s with cancelled := (s.clock, pa) :: s.cancelled.filter fun p => p.1 == s.clock }
/-- Performs a TRACKED lane in the L1, with the POISON it may consume (08 R176): `src` is where its data comes from, 4 the L1, or 0 when its
home has just granted the unit (17 R353). -/
def State.l1Lane (s : State) (src c : Nat) (l : Lane) : State × Lane × Option FaultInfo :=
  match l.place with
  | .unit _ .tracked _ pa => match (s.core c).copy? (pa / 128) .tracked with
    | some cp =>
      let r := l.on (pa % 128) cp.data cp.poison
      let cp' := match r.new with
        | some d => { cp with data := d, poison := l.op.poisonAfter cp.poison }
        | none => cp
      let s := s.modCore c fun k => k.putCopy cp'
      let s := match r.new with
        | some d => s.answerAborted (pa / 128) d
        | none => s
      let s := match l.op with
        | .amo 12 _ _ => s.noteCancel pa
        | _ => s
      (s, l.finish r.old, if r.poison then some (accFault .poison src l.va) else none)
    | none => (s, l, none)
  | _ => (s, l, none)

/-- The unit of a TRACKED lane. -/
def Lane.trackedUnit (l : Lane) : Option Nat := match l.place with | .unit _ .tracked _ pa => some (pa / 128) | _ => none

/-- Whether a core's request for a unit is on its way, waits at the home or is being served. -/
def State.requested (s : State) (c vcid u : Nat) : Bool :=
  (match (s.home vcid u).busy with
    | some (.own c' _ _) => c' == c
    | none => false) ||
  s.net.any fun f => match f.pkt with
    | .ownReq u' v' _ c' _ => u' == u && v' == vcid && c' == c
    | .grant u' v' _ c' _ _ _ => u' == u && v' == vcid && c' == c
    | _ => false

/-- Sends the ownership request that a lane needs, after returning a copy held under another mapping (06 R134). -/
def State.requestFor (s : State) (c : Nat) (l : Lane) : State :=
  match l.place with
  | .unit vcid .tracked key pa =>
    let u := pa / 128
    if s.requested c vcid u || decide (l.op = .later) then s else
    let s := match (s.core c).copy? u .tracked with
      | some cp => if cp.vcid = vcid ∧ cp.key = key then s else s.giveUp c u true
      | none => s
    s.send (.ownReq u vcid key c (if l.op.writes then .m else .e))
  | _ => s

/-- What a request of a context touches beside its own bytes: an ENQ its link word, and a CHASE any word of its first node's page (08 R188,
R189). -/
def Lane.reaches (l m : Lane) : Bool :=
  match l.place, m.place with
  | .remote _ _ p, .remote _ _ q => match l.op with
    | .enq _ link => (p / 2 ^ 42 * 2 ^ 42 + link % 2 ^ 42) / 128 == q / 128
    | .chase _ _ bits => p >>> bits == q >>> bits
    | _ => false
  | _, _ => false
/-- Whether two lanes touch one unit of coherent memory or one place, so that they keep program order (07 R160). -/
def sameUnit (a b : Lane) : Bool :=
  match a.place, b.place with
  | .unit _ _ _ p, .unit _ _ _ q => p / 128 == q / 128
  | .remote _ _ p, .remote _ _ q => p / 128 == q / 128
  | .hostw p, .hostw q => p / 128 == q / 128
  | _, _ => false
/-- Whether an access of a context has to perform before a lane of a later one: both touch one unit (07 R160). -/
def Op.before (o : Op) (l : Lane) : Bool := o.lanes.any fun m => !m.done && (sameUnit m l || m.reaches l || l.reaches m)
/-- An operation of two units waits for every earlier access of its context to either (07 R160, 08 R184). -/
def Core.jointBehind (k : Core) (o : Op) : Bool :=
  o.joint && (k.ops.takeWhile fun p => p.id != o.id).any fun p => p.ctx == o.ctx && o.lanes.any fun l => !l.done && p.before l

/-- The one of two lanes whose unit lies lower, the first when they share one. -/
def Lane.lower (a b : Lane) : Lane :=
  match a.trackedUnit, b.trackedUnit with
  | some u, some v => if v < u then b else a
  | _, _ => a
/-- Performs the waiting lanes of one operation on a unit, as far as the L1 allows; a joint operation asks for the lower unit first and
performs both of its parts at once (08 R184). False when a lane is left. -/
def State.pumpOp (s : State) (src c u : Nat) (o : Op) : State × Bool :=
  if (s.core c).jointBehind o then (s, false) else
  let waiting (l : Lane) : Bool := !l.done && decide (l.op ≠ .later) &&
    (if o.joint then l.trackedUnit.isSome else l.trackedUnit == some u)
  let held : Bool := o.lanes.any fun l => !l.done && decide (l.op = .later) && l.trackedUnit == some u
  match o.lanes.filter fun l => waiting l && !s.canPerform c l with
  | l :: ls => (s.requestFor c (ls.foldl Lane.lower l), false)
  | [] =>
    let (s, lanes, f) := o.lanes.foldl (fun (st : State × List Lane × Option FaultInfo) l =>
      if waiting l then
        let (s, l, f) := st.1.l1Lane src c l
        (s, st.2.1 ++ [l], o.lower st.2.2 f)
      else (st.1, st.2.1 ++ [l], st.2.2)) (s, [], o.fault)
    (s.setOp c { o with lanes := lanes, fault := f }, !held)

/-- Performs a core's waiting TRACKED lanes on a unit in program order; the first that cannot perform asks for the unit. -/
def State.pumpList (s : State) (src c u : Nat) : List Op → State
  | [] => s
  | o :: os =>
    if o.lanes.any fun l => !l.done && l.trackedUnit == some u then
      match s.pumpOp src c u o with
      | (s, true) => s.pumpList src c u os
      | (s, false) => s
    else s.pumpList src c u os

/-- An operation that may leave: a store whose lanes have all performed. A division that outlives its context stays in the divider (11
R239). -/
def Op.spent (o : Op) : Bool := decide (o.fin = .none) && o.allDone && decide (o.fault = none) && o.ctx != noCtx
/-- Removes a core's stores that have performed and write no register, and lets their contexts go on. -/
def State.sweep (s : State) (c : Nat) : State :=
  let k := s.core c
  let gone := k.ops.filter Op.spent
  let s := s.modCore c fun k => { k with ops := k.ops.filter fun o => !o.spent }
  gone.foldl (fun s o => s.settle c o.ctx) s

/-- The waiting lanes of a core on a unit perform (06 R134). -/
def State.pump (s : State) (src c u : Nat) : State := (s.pumpList src c u (s.core c).ops).sweep c

/-! ### UNTRACKED lanes (06 R138) -/

/-- Words of the 16 aligned 8-byte words that a write of n bytes at an offset touches. -/
def dirtyWords (off n : Nat) : BitVec 16 :=
  BitVec.ofNat 16 ((2 ^ ((off + n - 1) / 8 + 1) - 1) - (2 ^ (off / 8) - 1))

/-- Whether a write-back of a unit by a core is on its way. -/
def State.writingBack (s : State) (c u : Nat) : Bool :=
  s.net.any fun f => match f.pkt with
    | .writeBack c' _ u' _ _ _ _ _ => c' == c && u' == u
    | _ => false

/-- Fetches an UNTRACKED unit from its home into the L1 (06 R138). -/
def State.fetchUntracked (s : State) (w : Writer) (c vcid key u : Nat) : AtHome Copy :=
  match (s.core c).copy? u .untracked with
  | some cp => .done s cp
  | none =>
    match s.readFor w vcid key u (some c) with
    | .busy s => .busy s
    | .done s v =>
      let cp : Copy := { unit := u, vcid := vcid, cls := .untracked, key := key, st := .i, data := v.data, stamp := 0, dirty := 0,
                         writers := [], poison := v.poison }
      .done (s.install c cp) cp

/-- A plain load or store, not an atomic. -/
def LaneOp.plain (o : LaneOp) : Bool := match o with | .read => true | .write _ _ => true | .save _ _ => true | _ => false
/-- Performs an UNTRACKED load or store on the L1's copy; `src` is where the data comes from (17 R353). -/
def State.wordLane (s : State) (src c x : Nat) (l : Lane) (pa : Nat) (cp : Copy) : State × Lane × Option FaultInfo :=
  let r := l.on (pa % 128) cp.data cp.poison
  let s := match r.new with
    | some d => s.modCore c fun k => k.putCopy { cp with
        data := d, dirty := cp.dirty ||| dirtyWords (pa % 128) l.n, writers := addOnce cp.writers x, poison := l.op.poisonAfter cp.poison }
    | none => s.modCore c fun k => k.touchCopy (pa / 128) .untracked
  (s, l.finish r.old, if r.poison then some (accFault .poison src l.va) else none)
/-- Performs an UNTRACKED load or store that its home has to answer, in the L1 with the unit fetched, or an atomic at the home (08 R175, 06
R138). A fetch reads the unit coherently: a TRACKED copy that an L1 holds in M is recalled (assumption 75, DESIGN CHOICE, unsafe). -/
def State.untrackedLane (s : State) (w : Writer) (c x : Nat) (l : Lane) (vcid key pa : Nat) : AtHome (Lane × Option FaultInfo) :=
  let u := pa / 128
  if l.op.plain then match s.fetchUntracked w c vcid key u with
    | .busy s => .busy s
    | .done s cp => let (s, l, f) := s.wordLane 0 c x l pa cp; .done s (l, f)
  else
    match s.seize w vcid u true with
    | .busy s => .busy s
    | .done s _ =>
      let (s, v) := s.atomicBase vcid u
      let r := l.on (pa % 128) (v.under key).data (v.poisonFor key)
      let s := match r.new with
        | some d => s.performAtHome vcid key u (fun _ => d) none false
        | none => s
      .done s (l.finish r.old, if r.poison then some (accFault .poison 0 l.va) else none)

/-! ### Fabric-remote operations (08 R191 to R193, 18 R376) -/

/-- A tag of a core with no unanswered packet. -/
def State.freeTag (s : State) (c : Nat) : Option Nat :=
  (List.range 256).find? fun t => s.fabReqs.all fun r => !(r.core == c && r.tag == t)

/-- Sends a request packet, recording it as unanswered. A device that may not send only records it: it times out (18
R373). -/
def State.sendPacket (s : State) (c : Nat) (p : Packet) (o : Op) (group : Nat) (write : Bool) (bar : Option (Nat × Nat × Nat)) (tag : Nat) : State :=
  let inc := tget (s.core c).tagInc tag 0
  let p := { p with core := c, dev := s.devNum, tag := tag, inc := inc }
  let tgt := p.pa.toNat / 2 ^ 42
  let t : State := { s with fabReqs := s.fabReqs ++ [{ core := c, tag := tag, inc := inc, op := o.id, group := group, ctx := o.ctx,
                                                       write := write, bar := bar, sentAt := s.clock, dev := tgt }] }
  t.transmit tgt p

/-- Class code of a packet or entry (04 R91). -/
def Cls.code (c : Cls) : Nat := match c with | .tracked => 0 | .stamped => 1 | .untracked => 2

/-- Header of a packet with no payload. -/
def packetOf (opc pa : Nat) (len : Nat) (stamp : BitVec 16) (lag mode : Nat) (cls : Cls) (key : Nat) (aop : BitVec 10) (payload : Nat) : Packet :=
  { opc := opc, pa := BitVec.ofNat 56 pa, dev := 0, core := 0, tag := 0, inc := 0, len := len, stamp := stamp, lag := lag, mode := mode,
    cls := cls.code, domain := key, aop := aop, stale := false, status := 0, payload := BitVec.ofNat 2048 payload, via := none }

/-- The packet group of a remote lane: the lanes of one unit go in one packet, and every part of an element read goes in
one (08 R191, 12 R258). -/
def Op.groupOf (o : Op) (l : Lane) : Option Nat :=
  match l.place with
  | .remote _ _ pa => some (match o.fin with | .elem _ _ _ _ _ => 0 | _ => if o.joint then 0 else pa / 128)
  | _ => none
/-- The PA of a remote lane. -/
def Lane.remotePa (l : Lane) : Nat := match l.place with | .remote _ _ pa => pa | _ => 0

/-- The packet of lanes on a remote page (08 R191). A STORE whose lanes leave gaps carries the mask of its bits after 128
data bytes. The one LOAD of an element read goes to the device of its lowest address and spans from there to its highest, whatever pages
lie between (assumption 54, DESIGN CHOICE, unsafe). After V(b), a CAS2 carries whether it is a quad, an ENQ the PA of its link word, and a CHASE the VA of its first node with the size
of its page, which their homes need (08 R187 to R189; assumption 7, DESIGN CHOICE, unsafe). -/
def packetFor (o : Op) (ls : List Lane) : Packet :=
  match ls with
  | [] => packetOf 0 0 0 0 0 0 .untracked 0 0 0
  | l :: _ =>
    let (cls, key) := match l.place with
      | .remote c k _ => (c, k)
      | _ => (.untracked, 0)
    let lo := ls.foldl (fun m x => min m x.remotePa) l.remotePa
    let hi := ls.foldl (fun m x => max m (x.remotePa + x.n)) 0
    let aop (op n : Nat) : BitVec 10 := BitVec.ofNat 10 (op * 8 + (if n = 8 then 4 else 0) + o.ord)
    let put (st : Nat × Nat) (x : Lane) : Nat × Nat := match x.op with
      | .save d _ => (st.1 ||| (d.toNat <<< (8 * (x.remotePa - lo))), st.2 ||| ((2 ^ 512 - 1) <<< (8 * (x.remotePa - lo))))
      | .write d m =>
        let sh := 8 * (x.remotePa - lo)
        ((st.1 &&& ((2 ^ 1024 - 1) ^^^ (m.toNat <<< sh))) ||| ((d.toNat &&& m.toNat) <<< sh), st.2 ||| (m.toNat <<< sh))
      | _ => st
    let (d, m) := ls.foldl put (0, 0)
    let store := packetOf 1 lo (hi - lo) o.iter 63 0 cls key 0 (d + (if m = 2 ^ (8 * (hi - lo)) - 1 then 0 else m * 2 ^ 1024))
    match l.op with
    | .read => packetOf 0 lo (hi - lo) o.iter o.lag o.ldlMode cls key 0 0
    | .later => packetOf 1 lo 0 o.iter 63 0 cls key 0 0
    | .write _ _ => store
    | .save _ _ => store
    | .amo op n b => packetOf 2 lo 0 o.iter 63 0 cls key (aop op n) b.toNat
    | .cas n e x => packetOf 2 lo 0 o.iter 63 0 cls key (aop 10 n) (x.toNat + e.toNat * 2 ^ 64)
    | .cas2 q v => packetOf 3 lo 0 o.iter 63 0 cls key 0 (v.toNat + q.toNat * 2 ^ 512)
    | .enq v link => packetOf 4 lo 0 o.iter 63 0 cls key 0 (v.toNat + link * 2 ^ 512)
    | .chase v va bits => packetOf 5 lo 0 o.iter 63 0 cls key 0 (v.toNat + va.toNat * 2 ^ 512 + bits * 2 ^ 576)

/-! ### Issuing an operation -/

/-- An earlier access of the context to the lane's unit has not performed. -/
def Core.earlierOn (k : Core) (x : Nat) (l : Lane) : Bool := (k.opsOf x).any fun o => o.before l

/-- Whether a place is local storage that performs an access as it issues. -/
def Place.isStorage (p : Place) : Bool := match p with
  | .tcm _ _ => true
  | .slot _ _ => true
  | .scratch _ _ => true
  | .inter _ _ => true
  | _ => false
/-- Whether the lane's bytes may hold the element of an earlier ste of the context that waits for its scale: the lane goes after it (07 R160,
08 R183). -/
def Core.elementOn (k : Core) (x : Nat) (l : Lane) : Bool :=
  (k.opsOf x).any fun o => o.lanes.any fun m => !m.done && decide (m.op = .later) && (sameUnit m l || (m.place.isStorage && l.place.isStorage))
/-- The class of a place. -/
def Place.cls? (p : Place) : Option Cls := match p with | .unit _ c _ _ => some c | .remote c _ _ => some c | _ => none
/-- An earlier access of the context to the lane's unit under another class has not performed. -/
def Core.earlierOther (k : Core) (x : Nat) (l : Lane) : Bool :=
  (k.opsOf x).any fun o => o.lanes.any fun m => !m.done && sameUnit m l && decide (m.place.cls? ≠ l.place.cls?)

/-- A STAMPED lane that its L1 copy answers (06 R149); an element in two units is read at their homes, in one access (08 R184). A unit of
another device is held under its whole PA and cache 0 (06 R155, 01 R437). -/
def State.stampedHit (s : State) (c : Nat) (o : Op) (l : Lane) (vcid key u : Nat) : Option Copy :=
  if o.joint then none else
  match (s.core c).copy? u .stamped with
  | some cp => if cp.vcid = vcid ∧ cp.key = key ∧ accepts o.lag o.iter cp.stamp ∧ !(s.core c).earlierOn o.ctx l then some cp else none
  | none => none

/-- A store to a STAMPED unit drops the L1's copy, and what reads in flight bring is not kept (06 R143, R146). -/
def State.stampedStoreAt (s : State) (c : Nat) (l : Lane) (u : Nat) : State :=
  s.modCore c fun k => { k.dropCopy u .stamped with
    ops := mapIf (fun q => q.lanes.any fun m => !m.done && !m.op.writes && sameUnit m l) (fun q => { q with noInstall := true }) k.ops }
/-- A copy that an access may not use: its unit is held under another class, cache or key (01 R437, 06 R140). -/
def State.foreignCopy (s : State) (c : Nat) (p : Place) : Option Copy :=
  match p with
  | .unit vcid cls key pa => match (s.core c).copyOf (pa / 128) with
    | some cp => if cp.cls = cls ∧ cp.vcid = vcid ∧ cp.key = key then none else some cp
    | none => none
  | _ => none
/-- A STAMPED read of an L1 copy. -/
def State.stampedRead (s : State) (c : Nat) (o : Op) (l : Lane) (cp : Copy) (u off : Nat) : AtHome (Lane × Option FaultInfo) :=
  let r := l.on off cp.data cp.poison
  .done (s.modCore c fun k => k.touchCopy u .stamped)
    ({ l.finish r.old with age := some (o.iter - cp.stamp) }, if r.poison then some (accFault .poison 4 l.va) else none)
/-- The copy of an UNTRACKED unit that a load or store finds in its L1, by cache and key; any other access goes to the home (06 R138, 08
R175). -/
def State.wordHit (s : State) (c : Nat) (l : Lane) (u : Nat) : Option Copy := if l.op.plain then (s.core c).copy? u .untracked else none
/-- Whether a place in bank scratch lies in a poisoned unit (17 R364). -/
def State.scratchPoison (s : State) (p : Place) (n : Nat) : Bool :=
  match p with
  | .scratch c off => (s.core c).scratchBad.any (unitsAt off n).contains
  | .inter cl a => (List.range ((n + 7) / 8)).any fun i => let (c, o) := s.interByte cl (a + 8 * i); (s.core c).scratchBad.contains (o / 128)
  | _ => false
/-- A lane that performs at its storage as it issues; one that reads a poisoned unit of bank scratch faults POISON and writes nothing (17
R364, 08 R176). -/
def State.storageNow (s : State) (l : Lane) : AtHome (Lane × Option FaultInfo) :=
  if l.op.reads && s.scratchPoison l.place l.n then .done s (l.finish 0, some (accFault .poison 0 l.va))
  else let (s, l) := s.storageLane l; .done s (l, none)
/-- What becomes of a lane at issue: it performs, it stays for an event, or the instruction has to wait: a copy of the unit under another
mapping leaves the L1 first, and words of the unit on their way home are waited for (07 R160). A load, an atomic, a cas or a cas2 of the
host memory window performs as it issues (07 R160, R159; assumption 53, DESIGN CHOICE, unsafe). -/
def State.issueLane (s : State) (c : Nat) (o : Op) (l : Lane) : AtHome (Lane × Option FaultInfo) :=
  match s.foreignCopy c l.place with
  | some cp => .busy (s.castOut c cp)
  | none =>
  let k := s.core c
  if k.earlierOther o.ctx l then .busy s else
  let stay (s : State) : AtHome (Lane × Option FaultInfo) := .done s (l, none)
  match l.place with
  | .unit _ .untracked _ pa =>
    if s.writingBack c (pa / 128) || k.earlierOn o.ctx l then .busy s
    else if l.op = .later then stay s
    else match s.wordHit c l (pa / 128), k.copy? (pa / 128) .untracked with
      | some cp, _ => let (s, l, f) := s.wordLane 4 c o.ctx l pa cp; .done s (l, f)
      -- an atomic performs after the words that its core has written (08 R175)
      | none, some cp => if l.op.plain then stay s else .busy (s.castOut c cp)
      | none, none => stay s
  | .unit _ .tracked _ pa =>
    if s.writingBack c (pa / 128) then .busy s else
    if l.op = .later then stay s else
    if o.joint || k.earlierOn o.ctx l || !s.canPerform c l then stay s
    else let (s, l, f) := s.l1Lane 4 c l; .done s (l, f)
  | .unit vcid .stamped key pa =>
    if s.writingBack c (pa / 128) || k.elementOn o.ctx l then .busy s
    else if l.op.writes || decide (l.op = .later) then stay (s.stampedStoreAt c l (pa / 128))
    else match s.stampedHit c o l vcid key (pa / 128) with
      | some cp => s.stampedRead c o l cp (pa / 128) (pa % 128)
      | none => stay s
  | .remote cls key pa =>
    if (k.opsOf o.ctx).any fun p => p.lanes.any fun m => !m.done && (m.reaches l || l.reaches m) then .busy s
    else if cls ≠ .stamped then stay s
    else if l.op.writes || decide (l.op = .later) then stay (s.stampedStoreAt c l (remoteUnit pa))
    else match (if l.op = .read then s.stampedHit c o l 0 key (remoteUnit pa) else none) with
      | some cp => s.stampedRead c o l cp (remoteUnit pa) (pa % 128)
      | none => stay s
  | .hostw _ =>
    if k.earlierOn o.ctx l then .busy s
    else match l.op with
      | .write _ _ => stay s
      | .save _ _ => stay s
      | .later => stay s
      | _ => let (s, l) := s.storageLane l; .done s (l, none)
  | p => if k.elementOn o.ctx l then .busy s else if p.isWindow || decide (l.op = .later) then stay s else s.storageNow l

/-- All lanes of an operation, in order; the first that has to wait stops it. The granules of an access to the interleaved view perform in one
step, in this order (01 R24; assumption 69, DESIGN CHOICE, unsafe). -/
def State.issueLanes (s : State) (c : Nat) (o : Op) : List Lane → AtHome (List Lane × Option FaultInfo)
  | [] => .done s ([], none)
  | l :: ls => match s.issueLane c o l with
    | .busy s => .busy s
    | .done s (l, f) => match s.issueLanes c o ls with
      | .busy s => .busy s
      | .done s (ls, g) => .done s (l :: ls, o.lower f g)

/-- The distinct units of the undone lanes that satisfy a test. -/
def unitsOf (ls : List Lane) (p : Lane → Option Nat) : List Nat :=
  ls.foldl (fun acc l => if l.done then acc else match p l with
    | some u => addOnce acc u
    | none => acc) []

/-- The aligned 8-byte word of a lane on the host memory window (07 R162). -/
def Lane.hostWord (l : Lane) : Option Nat := match l.place with | .hostw pa => if l.op = .later then none else some (pa / 8) | _ => none
/-- The unit of a lane that performs at its home by a message: a STAMPED one, or an UNTRACKED one that has to be sent there. -/
def Lane.homeUnit (w : Bool) (l : Lane) : Option Nat :=
  match l.place with
  | .unit _ .tracked _ _ => none
  | .unit _ _ _ pa => if l.op.writes = w && decide (l.op ≠ .later) then some (pa / 128) else none
  | _ => none
/-- The messages that an operation's undone lanes need: STAMPED stores and reads to their homes, one store for each word of the host
memory window, and packets; TRACKED lanes ask for their units. -/
def State.launchLanes (s : State) (c : Nat) (o : Op) (bar : Option (Nat × Nat × Nat)) (tags : List Nat) : State :=
  let s := (unitsOf o.lanes (Lane.homeUnit true)).foldl (fun s u => s.send (.stStore c o.id u)) s
  let s := (unitsOf o.lanes (Lane.homeUnit false)).foldl (fun s u => s.send (.stRead c o.id u)) s
  let s := (unitsOf o.lanes Lane.hostWord).foldl (fun s w => s.send (.hostStore c o.id w)) s
  let s := ((unitsOf o.lanes o.groupOf).zip tags).foldl (fun s p =>
    let ls := o.lanes.filter fun l => !l.done && o.groupOf l == some p.1
    s.sendPacket c (packetFor o ls) o p.1 (ls.any fun l => l.op.writes) bar p.2) s
  (unitsOf o.lanes Lane.trackedUnit).foldl (fun s u => s.pump 4 c u) s

/-- n free tags of a core. -/
def State.freeTags (s : State) (c n : Nat) : List Nat :=
  ((List.range 256).filter fun t => s.fabReqs.all fun r => !(r.core == c && r.tag == t)).take n

/-- Whether watchpoints of the core match an access, and whether one of them that does fires the cross-trigger (24 R420). -/
def State.watchHit (s : State) (va : Addr) (n : Nat) (rd wr : Bool) : Option Bool :=
  let k := s.mine
  if !(s.dbgOf (clusterOf s.curCore)).bken ∨ s.me.stepOver then none else
  match ([0, 1].filter fun i =>
    let w := tget k.bp (4 + i) 0
    let sz := 2 ^ fld (tget k.bp (6 + i) 0) 0 5
    let base := fld w 0 56 / sz * sz
    w.getLsbD 63 && ((w.getLsbD 61 && rd) || (w.getLsbD 60 && wr)) &&
      (fld w 56 4 == 15 || fld w 56 4 == s.curCtx) && decide (va.toNat < base + sz) && decide (base < va.toNat + n)) with
  | [] => none
  | l => some (l.any fun i => (tget k.bp (4 + i) 0).getLsbD 62)

/-- Watchpoints match when the access issues; the instruction then has no effect (24 R420). -/
def watchM (va : Addr) (n : Nat) (rd wr : Bool) : M Unit := fun s =>
  match s.watchHit va n rd wr with
  | some xt => .error (.wait (s.debugHit s.curCore s.curCtx 2 xt))
  | none => .ok ((), s)

/-- Whether an operation is a release: order .rel or .ar (07 R161). -/
def Op.isRelease (o : Op) : Bool := decide (2 ≤ o.ord)
/-- An acquire that has not performed holds every later access of its context (07 R161). -/
def acquireM : M Unit := fun s =>
  if (s.mine.opsOf s.curCtx).any fun o => o.acquire && !o.allDone then holdM s else .ok ((), s)

/-- Issues an operation whose lanes are resolved. When a lane has to wait, the operation issues again as a whole, and what it has performed is
dropped with it. -/
def issueM (o : Op) (bar : Option (Nat × Nat × Nat)) : M Unit := fun s =>
  let c := s.curCore
  let need := (unitsOf o.lanes o.groupOf).length
  let tags := s.freeTags c need
  if tags.length < need then holdM s else
  match s.issueLanes c o o.lanes with
  | .busy _ => match o.lanes.findSome? (fun l => match s.issueLane c o l with | .busy u => some u | .done _ _ => none) with
    | some u => holdM u
    | none => holdM s
  | .done t (ls, f) =>
    let o := { o with lanes := ls, fault := f, id := t.nextId }
    if decide (o.fin = .none) && o.allDone && f.isNone then .ok ((), t)
    else if o.allDone then .ok ((), t.addOp c o)
    else .ok ((), ((t.addOp c o).launchLanes c o bar tags).sweep c)

/-- One part of an access before it is resolved. -/
structure Part where
  ix : Nat
  va : Addr
  n : Nat
  op : LaneOp

/-- A step that acts at a home at once waits while the home is busy. -/
def atHomeM {α : Type} (f : State → AtHome α) : M α := fun s =>
  match f s with
  | .busy t => holdM t
  | .done t a => .ok (a, t)

/-- MISALIGN unless an address is a multiple of n (08 R173). -/
def alignM (va : Addr) (n : Nat) : M Unit := if va.toNat % n = 0 then pure () else faultM .misalign 0 va

/-- An undone lane of a resolved part. -/
def Part.lane (p : Part) (place : Place) (srcs : List Nat) : Lane :=
  { ix := p.ix, va := p.va, n := p.n, place := place, op := p.op, done := false, data := 0, age := none, srcs := srcs }
/-- Resolves the parts of an access in order, each with its alignment first, by a rule for each place. -/
def resolveBy (guard : Nat → Place → M Unit) (wide : Bool) (acc : Acc) (al : Nat) : List Part → M (List Lane)
  | [] => return []
  | p :: ps => do
    alignM p.va al
    let (place, srcs) ← placeM wide acc p.va p.n
    guard p.n place
    let ls ← resolveBy guard wide acc al ps
    return p.lane place srcs :: ls

/-- The first access to a LAZY tile loads its image as loads of the accessing context, which waits (13 R270). -/
def touchTileM (c t : Nat) : M Unit := do
  let tl ← getM fun s => (s.core c).tile t
  if tl.st = 3 then
    if ← getM fun s => (s.mine.opsOf s.curCtx).any fun o => decide (o.fin = .lazy c t) then parkM
    else
      acquireM
      let p ← getM fun s => (s.core c).tsavep
      let base : Addr := BitVec.ofNat 56 (p.toNat % 2 ^ 56 + 1024 * t)
      let parts : List Part := (List.range 16).map fun i => { ix := i, va := base + BitVec.ofNat 56 (64 * i), n := 64, op := .read }
      for p in parts do
        watchM p.va p.n true false
      let ls ← resolveBy (fun _ _ => return ()) true .read 4 parts
      let o ← getM fun s => { s.newOp with isLoad := true, wide := true, lanes := ls, fin := .lazy c t }
      issueM o none
      parkM
  else return ()
/-- The tiles of a core that a write of a place loads first when they are LAZY: every tile at TSAVEP, and its own at TSHAPE, in the register
window or in control space (13 R271, R269). -/
def State.tilesFor (s : State) (p : Place) : List (Nat × Nat) :=
  let at_ (c off : Nat) : List (Nat × Nat) := match windowCsr off with
    | some (_, n) => if n = 0x128 then (List.range 8).map fun t => (c, t) else if 0x120 ≤ n ∧ n ≤ 0x127 then [(c, n - 0x120)] else []
    | none => []
  match p with
  | .csr c off => at_ c off
  | .ctrl off => match s.ctrlCore off with
    | some q => at_ q.1 q.2
    | none => []
  | _ => []
/-- The granules of bank scratch that n bytes at a place lie in, by core and offset. -/
def State.scratchAt (s : State) (p : Place) (n : Nat) : List (Nat × Nat) :=
  match p with
  | .scratch c off => [(c, off)]
  | .inter cl a => (List.range ((n + 7) / 8)).map fun i => s.interByte cl (a + 8 * i)
  | _ => []
/-- The core whose storage or registers a place is, bank scratch apart. -/
def State.placeCore (s : State) (p : Place) : Option Nat :=
  match p with
  | .tcm c _ => some c
  | .slot c _ => some c
  | .ramEntry c _ => some c
  | .vreg c _ _ => some c
  | .tile c _ _ => some c
  | .mask c _ _ => some c
  | .glob c _ _ => some c
  | .csr c _ => some c
  | .ctrl off => (s.ctrlCore off).map fun q => q.1
  | _ => none
/-- Whether a share of a core's bank is to become scratch and its scrub has not ended (05 R108, R109). -/
def State.sharePending (s : State) (c off : Nat) : Bool :=
  s.scrubs.any fun p => match p.2 with
    | .bsplit c' old new _ => c' == c && decide (old ≤ off / 65536) && decide (off / 65536 < new)
    | _ => false
/-- Whether an access has to wait for a place: it is on another core that is being migrated (17 R363), or in a share that is being
scrubbed. -/
def State.placeHeld (s : State) (p : Place) (n : Nat) : Bool :=
  let away (c : Nat) : Bool := c != s.curCore && (s.core c).moving
  (s.placeCore p).any away || (s.scratchAt p n).any fun q => away q.1 || s.sharePending q.1 q.2
/-- A held place is waited for. A tile window waits while the tile is BUSY, and loads a LAZY tile first (13 R283, R270); a write of TSAVEP
loads every LAZY tile of its core first, as loads of the writing context, and one of TSHAPE its own (13 R271, R269). -/
def windowGuard (acc : Acc) (n : Nat) (p : Place) : M Unit := do
  if ← getM fun s => s.placeHeld p n then holdM
  match p with
  | .tile c t _ => if ← getM fun s => (s.core c).tileBusy t then holdM else touchTileM c t
  | p => if acc = .write then
      for q in ← getM fun s => s.tilesFor p do
        touchTileM q.1 q.2
/-- Resolves the parts of an access, all before any performs. -/
def resolveM (wide : Bool) (acc : Acc) (al : Nat) (ps : List Part) : M (List Lane) := resolveBy (windowGuard acc) wide acc al ps

/-- Whether a lane counts as a fabric write: every cas2 does, whatever its selector (08 R192). -/
def LaneOp.fabricWrite (o : LaneOp) : Bool := match o with | .chase _ _ _ => true | o => o.writes
/-- The barrier object that a fabric-remote write names through g7 (08 R192). -/
def fabricBarM (ls : List Lane) : M (Option (Nat × Nat × Nat)) := do
  if ls.any fun l => l.op.fabricWrite && (match l.place with | .remote _ _ _ => true | _ => false) then
    let g7 ← getM fun s => s.regOf s.curCore s.curCtx 7
    if g7.getLsbD 0 then
      let va : Addr := BitVec.ofNat 56 (g7.toNat % 2 ^ 56 / 32 * 32)
      if va.getLsbD 55 then faultM .xlate 0 va
      else match (← xlateM .write va).tracked? with
        | some b => return some b
        | none => faultM .xlate 0 va
    else return none
  else return none

/-! ### Fences and releases (07 R159, R161, R171) -/

/-- Whether an operation has performed at a scope: host-window and fabric-remote lanes count at sys scope only. A STAMPED write is waited for
at every scope, whether the scope holds its home or not (07 R159; assumption 76, DESIGN CHOICE, unsafe). One whose fault has been detected
has not performed: it ends in its fault (07 R171, 17 R350). -/
def Op.performed (o : Op) (sys : Bool) : Bool :=
  o.fault.isNone && o.lanes.all fun l => l.done || (!sys && (match l.place with
    | .hostw _ => true
    | .remote _ _ _ => true
    | _ => false))
/-- Whether the context's operations that satisfy a test have performed at a scope. -/
def State.performedAll (s : State) (c x : Nat) (p : Op → Bool) (sys : Bool) : Bool :=
  ((s.core c).opsOf x).all fun o => !p o || o.performed sys
/-- Whether an operation has an undone STAMPED write. -/
def Op.stampedWriteOut (o : Op) : Bool :=
  o.lanes.any fun l => !l.done && l.op.writes && (match l.place with
    | .unit _ .stamped _ _ => true
    | .remote .stamped _ _ => true
    | _ => false)
/-- Whether UNTRACKED words of a context have not reached their homes: they count as performed at ctx and core scope only (07 R159, R172). -/
def State.wordsHeld (s : State) (c x : Nat) : Bool := (s.core c).dirtyFor x || s.wordsOut c x
/-- fence.dev.st: earlier writes and cache maintenance of the context are performed at dev scope. -/
def State.writesDone (s : State) (c x : Nat) : Bool :=
  s.performedAll c x (fun o => o.isStore) false && !s.wordsHeld c x
/-- fence.dev.all. -/
def State.accessesDone (s : State) (c x : Nat) : Bool :=
  s.performedAll c x (fun _ => true) false && !s.wordsHeld c x
/-- What a release waits for: every earlier access of the context at dev scope, but for UNTRACKED words that its L1 still holds, which a
release leaves there (07 R161, question 20; assumption 55, DEDUCED). -/
def State.releasable (s : State) (c x : Nat) : Bool :=
  s.performedAll c x (fun _ => true) false && !s.wordsOut c x
/-- A release waits for every earlier access at dev scope (07 R161). -/
def releaseM : M Unit := fun s => if s.releasable s.curCore s.curCtx then .ok ((), s) else parkM s
/-- Waits as fence.dev.st does. -/
def writesM : M Unit := fun s => if s.writesDone s.curCore s.curCtx then .ok ((), s) else parkM s
/-- Waits as fence.dev.all does. -/
def allDoneM : M Unit := fun s => if s.accessesDone s.curCore s.curCtx then .ok ((), s) else parkM s
/-- An acquire performs after the releases before it in program order (07 R161). -/
def afterReleasesM : M Unit := fun s =>
  if s.performedAll s.curCore s.curCtx Op.isRelease false then .ok ((), s) else holdM s
/-- Whether the context's earlier STAMPED writes are acknowledged (06 R157, 07 R164). -/
def State.stampedAcked (s : State) : Bool := (s.mine.opsOf s.curCtx).all fun o => !o.stampedWriteOut
/-- A release on a STAMPED page issues only after the context's earlier STAMPED writes are acknowledged (08 R179). -/
def stampedReleaseM (ls : List Lane) : M Unit := fun s =>
  if s.stampedAcked || !ls.any (fun l => match l.place with
    | .unit _ .stamped _ _ => true
    | .remote .stamped _ _ => true
    | _ => false) then .ok ((), s) else parkM s

/-- The number under which the dirty words of an L1 list a context whose fence of kind eng has named them (07 R172). -/
def engMark (x : Nat) : Nat := x + 16
/-- A fence of kind eng names the UNTRACKED words of a context that have not reached their homes: words that it writes afterwards into other
units are not named. -/
def State.markWords (s : State) (c x : Nat) : State :=
  let s := s.modCore c fun k => { k with
    l1 := mapIf (fun (cp : Copy) => decide (cp.cls = .untracked) && cp.dirty != 0 && cp.writers.contains x)
      (fun cp => { cp with writers := addOnce cp.writers (engMark x) }) k.l1 }
  { s with net := s.net.map fun f => match f.pkt with
    | .writeBack c' l u v key w d p => if c' = c ∧ l.contains x then { f with pkt := .writeBack c' (addOnce l (engMark x)) u v key w d p } else f
    | _ => f }
/-- Engine commands wait for what an earlier fence of kind eng named (07 R172). -/
def engineM : M Unit := fun s =>
  let k := s.mine
  if s.me.engWait.any fun w => (k.op? w.1).any fun o => !o.performed w.2 then holdM s
  else if s.me.engWords && s.wordsHeld s.curCore (engMark s.curCtx) then holdM s
  else .ok ((), s.modMe fun y => { y with engWait := [], engWords := false })

/-- The common path of a memory instruction: watchpoints, acquires, resolution, a release's wait, then issue. -/
def accessBy (wide : Bool) (acc : Acc) (rel : Bool) (al : Nat) (parts : List Part) (o : Op) : M Unit := do
  for p in parts do
    watchM p.va p.n (decide (acc ≠ .write)) (decide (acc ≠ .read))
  acquireM
  if o.acquire then afterReleasesM
  let ls ← resolveM wide acc al parts
  let bar ← fabricBarM ls
  if rel then do
    releaseM
    stampedReleaseM ls
  issueM { o with lanes := ls, wide := wide } bar
/-- A scalar memory instruction. -/
def accessM (acc : Acc) (rel : Bool) (al : Nat) (parts : List Part) (o : Op) : M Unit := accessBy false acc rel al parts o
/-- A vector, element or tile instruction. -/
def wideM (acc : Acc) (al : Nat) (parts : List Part) (o : Op) : M Unit := accessBy true acc false al parts o

/-- Whether a translation that a core holds gives device control space. -/
def State.toControl (s : State) (c domain : Nat) (sup : Bool) (va : Addr) : Bool :=
  match (s.tlb c domain sup va.toNat).1 with
  | some e => let pa := e.pa va.toNat; pa / 2 ^ 42 == s.devNum && decide (0x30000000000 ≤ pa % 2 ^ 42)
  | none => false
/-- XLATE where a translation gives device control space, before the mode is judged (14 R295, R297). -/
def noControlM (va : Addr) : M Unit := fun s =>
  if !va.getLsbD 55 && s.toControl s.curCore s.mine.domain (decide (s.me.mode = .supervisor)) va then faultM .xlate 0 va s else .ok ((), s)
/-- A TRACKED page of the module, XLATE otherwise, at any address (13 R280). -/
def trackedPageM (acc : Acc) (va : Addr) : M (Nat × Nat × Nat) := do
  if va.getLsbD 55 then faultM .xlate 0 va
  else match (← xlateM acc va).tracked? with
    | some t => return t
    | none => faultM .xlate 0 va
/-- A TRACKED page of the module that n bytes of an instruction's operand lie in: XLATE otherwise, after the window rules of local space
(08 R174, 15 R318, 14 R295). -/
def trackedM (acc : Acc) (n : Nat) (va : Addr) : M (Nat × Nat × Nat) := do
  if va.getLsbD 55 then
    match ← getM fun s => s.localPlace s.curCore (decide (s.me.mode = .supervisor)) va n true false with
    | .error f => stop (.fault f)
    | .ok _ => faultM .xlate 0 va
  else trackedPageM acc va

end Sys2Proof.Machine
end

