-- ==== Sys2Proof/Machine/Operands.lean ====
section
/-! DEFINITION. The operand forms: immediates and addresses (03 R64, 08 R173, 11 R242), fat pointers (01 R32 to R34, 02
R51), and vector lanes under a mask (12 R246, R247). -/

namespace Sys2Proof.Machine

/-! ### Immediates and addresses -/

/-- A sign-extended immediate (03 R64). -/
def imm64 {n : Nat} (i : BitVec n) : Word := i.signExtend 64
/-- Effective address of a scalar access (08 R173): bits [63:56] of the base are ignored. -/
def effAddr (a : Word) (off : BitVec 12) : Addr := a.setWidth 56 + off.signExtend 56
/-- Target of a PC-relative transfer (11 R242, R243, 10 R217). -/
def relTarget {n : Nat} (pc : Addr) (off : BitVec n) : Addr := pc + (off.signExtend 56 <<< 2)
/-- Shift amount of a register shift: bits [5:0] (11 R234). -/
def shiftOf (b : Word) : Nat := (b.setWidth 6 : BitVec 6).toNat
/-- Whether an address is a multiple of n. -/
def alignedTo (va : Addr) (n : Nat) : Bool := va.toNat % n == 0

/-! ### Fat pointers (01 R32 to R34) -/

/-- FMT and BLOG: bits [63:56]. -/
def ptrTop (a : Word) : BitVec 8 := a.extractLsb' 56 8
/-- VA: bits [55:0]. -/
def ptrVa (a : Word) : Addr := a.setWidth 56
/-- A pointer from its top byte and VA. -/
def ptrJoin (t : BitVec 8) (va : Addr) : Word := t ++ va
/-- FMT: bits [63:59]. -/
def ptrFmt (a : Word) : Nat := bitsOf a.toNat 59 5
/-- BLOG: bits [58:56]. -/
def ptrBlog (a : Word) : Nat := bitsOf a.toNat 56 3
/-- The cases of 01 R33: a reserved code, a reserved BLOG, or a BLOG that disagrees with the format. -/
def fmtCheckFails (f g : Nat) : Bool :=
  decide (18 ≤ f) || (g != 0 && g != 5) || (g == 0 && decide (11 ≤ f)) || (g == 5 && decide (f < 11))
/-- Bytes of an unblocked element; untyped bytes count as one (08 R182). -/
def elemBytes (f : Nat) : Nat := if f = 0 then 1 else codeWidth f / 8

/-! ### Vector lanes (12 R246, R247) -/

/-- Element bytes of an integer type field. -/
def intBytes (t : BitVec 2) : Nat := 1 <<< t.toNat
/-- The format of a float type field (12 R250); t = 3 is no encoding. -/
def fltFmt (t : BitVec 2) : FFmt := if t = 0 then fp32 else if t = 1 then fp16 else bf16
/-- Element bytes of a float type field. -/
def fltBytes (t : BitVec 2) : Nat := if t = 0 then 4 else 2
/-- Lane L of e bytes, as a number. -/
def lane (e : Nat) (v : Vec) (L : Nat) : Nat := bitsOf v.toNat (8 * e * L) (8 * e)
/-- Lanes of e bytes: active lanes take f, masked-off lanes keep the old register's (12 R247). -/
def lanes (e : Nat) (k : Word) (old : Vec) (f : Nat → Nat) : Vec :=
  BitVec.ofNat 512 (packLanes (8 * e) (fun L => if k.getLsbD L then f L else lane e old L) (64 / e))
/-- Bits of the active lanes of e bytes. -/
def laneBits (e : Nat) (k : Word) : Vec :=
  BitVec.ofNat 512 (packLanes (8 * e) (fun L => if k.getLsbD L then 2 ^ (8 * e) - 1 else 0) (64 / e))
/-- The active lanes of e bytes below n, in ascending order. -/
def activeLanes (k : Word) (n : Nat) : List Nat := (List.range n).filter fun L => k.getLsbD L
/-- The rounding of a context's arithmetic: SR acts as RNE (02 R53). -/
def Ctx.rm (y : Ctx) : Rm := (Rm.ofMode y.rmode.toNat 0).arith
/-- Signed value of lane L. -/
def slane (e : Nat) (v : Vec) (L : Nat) : Int := signedOf (8 * e) (lane e v L)

end Sys2Proof.Machine
end

