-- ==== Sys2Proof/Machine/LoadStore.lean ====
section
/-! DEFINITION. Loads, stores, acquire loads, release stores, prefetch and element accesses (08 R173 to R184). -/

namespace Sys2Proof.Machine

/-- The low n bytes of a register as the data of a store, and the bits it writes. -/
def storeOp (n : Nat) (w : Word) : LaneOp :=
  .write (BitVec.ofNat 512 (w.toNat % 2 ^ (8 * n))) (BitVec.ofNat 512 (2 ^ (8 * n) - 1))

/-- ld of n bytes (08 R178). -/
def loadM (m : Bool) (d a : BitVec 5) (off : BitVec 12) (n : Nat) (signed acq : Bool) : M Unit := do
  let va ← getM fun s => effAddr (s.reg a) off
  alignM va n
  let o ← getM fun s => { s.newOp with isLoad := true, acquire := acq, fin := .load (s.dst d) n signed }
  accessM .read false 1 [{ ix := 0, va := va, n := n, op := .read }] o
  retireM m
/-- st of n bytes (08 R178). -/
def storeM (m : Bool) (b a : BitVec 5) (off : BitVec 12) (n : Nat) (rel : Bool) : M Unit := do
  let va ← getM fun s => effAddr (s.reg a) off
  alignM va n
  let o ← getM fun s => { s.newOp with isStore := true, ord := if rel then 2 else 0 }
  let w ← getM fun s => s.reg b
  accessM .write rel 1 [{ ix := 0, va := va, n := n, op := storeOp n w }] o
  retireM m

/-- ld.b (08 R178). -/
def execLdB (m : Bool) (d a : BitVec 5) (o : BitVec 12) (s : State) : Out := runM (loadM m d a o 1 true false) s
/-- ld.bu (08 R178). -/
def execLdBu (m : Bool) (d a : BitVec 5) (o : BitVec 12) (s : State) : Out := runM (loadM m d a o 1 false false) s
/-- ld.h (08 R178). -/
def execLdH (m : Bool) (d a : BitVec 5) (o : BitVec 12) (s : State) : Out := runM (loadM m d a o 2 true false) s
/-- ld.hu (08 R178). -/
def execLdHu (m : Bool) (d a : BitVec 5) (o : BitVec 12) (s : State) : Out := runM (loadM m d a o 2 false false) s
/-- ld.w (08 R178). -/
def execLdW (m : Bool) (d a : BitVec 5) (o : BitVec 12) (s : State) : Out := runM (loadM m d a o 4 true false) s
/-- ld.wu (08 R178). -/
def execLdWu (m : Bool) (d a : BitVec 5) (o : BitVec 12) (s : State) : Out := runM (loadM m d a o 4 false false) s
/-- ld.d (08 R178). -/
def execLdD (m : Bool) (d a : BitVec 5) (o : BitVec 12) (s : State) : Out := runM (loadM m d a o 8 false false) s
/-- st.b (08 R178). -/
def execStB (m : Bool) (b a : BitVec 5) (o : BitVec 12) (s : State) : Out := runM (storeM m b a o 1 false) s
/-- st.h (08 R178). -/
def execStH (m : Bool) (b a : BitVec 5) (o : BitVec 12) (s : State) : Out := runM (storeM m b a o 2 false) s
/-- st.w (08 R178). -/
def execStW (m : Bool) (b a : BitVec 5) (o : BitVec 12) (s : State) : Out := runM (storeM m b a o 4 false) s
/-- st.d (08 R178). -/
def execStD (m : Bool) (b a : BitVec 5) (o : BitVec 12) (s : State) : Out := runM (storeM m b a o 8 false) s
/-- lda (08 R179): an acquire, zero-extended. -/
def execLda (m : Bool) (d a : BitVec 5) (z : BitVec 2) (o : BitVec 12) (s : State) : Out :=
  runM (loadM m d a o (1 <<< z.toNat) false true) s
/-- strl (08 R179): a release. -/
def execStrl (m : Bool) (d a : BitVec 5) (z : BitVec 2) (o : BitVec 12) (s : State) : Out :=
  runM (storeM m d a o (1 <<< z.toNat) true) s

/-- Waits until a place's unit is free of copies under another mapping and of words on their way home, as an access does. -/
def clearUnitM (p : Place) : M Unit := fun s =>
  match s.foreignCopy s.curCore p with
  | some cp => holdM (s.castOut s.curCore cp)
  | none => match p with
    | .unit _ _ _ pa => if s.writingBack s.curCore (pa / 128) then holdM s else .ok ((), s)
    | _ => .ok ((), s)
/-- The read of a whole unit for the L1 alone, which writes no register. -/
def unitLane (va : Addr) (p : Place) (n : Nat) (srcs : List Nat) : Lane :=
  { ix := 0, va := va, n := n, place := p, op := .read, done := false, data := 0, age := none, srcs := srcs }
/-- What a prefetch does after a TLB hit with read permission (08 R180): a unit of this module comes into the L1, a TRACKED one in S. A STAMPED
unit of another device comes by a LOAD of the whole unit: 08 R180 leaves out only the other classes there, and 08 R191 names no packet for pref
(assumption 81, DESIGN CHOICE, unsafe). -/
def prefetchM (va : Addr) (t : Target) : M Unit :=
  match t with
  | .unit e pa => do
    let l := unitLane va (.unit e.vcid e.cls e.key pa) 1 e.srcs
    clearUnitM l.place
    match e.cls with
    | .tracked => modM fun s =>
        if s.canPerform s.curCore l || s.requested s.curCore e.vcid (pa / 128) then s
        else s.send (.ownReq (pa / 128) e.vcid e.key s.curCore .s)
    | c => fun s => if ((s.core s.curCore).copy? (pa / 128) c).isSome then .ok ((), s) else issueM { s.newOp with lanes := [l] } none s
  | .remote e pa => fun s =>
    if e.cls ≠ .stamped ∨ ((s.core s.curCore).copy? (remoteUnit pa) .stamped).isSome then .ok ((), s)
    else issueM { s.newOp with lanes := [unitLane va (.remote .stamped e.key (pa / 128 * 128)) 128 e.srcs] } none s
  | _ => return ()
/-- pref (08 R180): it consults the TLBs only, writes no register and never faults. -/
def execPref (m : Bool) (a : BitVec 5) (o : BitVec 12) (s : State) : Out :=
  runM (do
    let va ← getM fun s => effAddr (s.reg a) o
    if va.getLsbD 55 then retireM m
    else
      let sup ← getM fun s => decide (s.me.mode = .supervisor)
      let hit : Option TlbEnt ← fun s => .ok (s.tlb s.curCore s.mine.domain sup va.toNat)
      match hit with
      | none => retireM m
      | some e => match ← getM fun s => s.checkEnt s.mine.domain sup .read e va with
        | .ok t => do
          prefetchM va t
          retireM m
        | .error _ => retireM m) s

/-! ### Element accesses (08 R181 to R184) -/

/-- Splits n bytes at an address where they cross a multiple of g. -/
def splitParts (g ix : Nat) (va : Addr) (n : Nat) (op : LaneOp) : Nat → List Part
  | 0 => []
  | fuel + 1 =>
    let here := min n (g - va.toNat % g)
    { ix := ix, va := va, n := here, op := op } ::
      (if n ≤ here then [] else splitParts g (ix + 1) (va + BitVec.ofNat 56 here) (n - here) op fuel)
/-- Where the parts of an element meet: 128-byte units, or 8-byte granules in the interleaved view (01 R22, R24). -/
def granule (va : Addr) : Nat :=
  if 2 ^ 55 + 0x10000000 ≤ va.toNat ∧ va.toNat < 2 ^ 55 + 0x20000000 then 8 else 128

/-- Address, length and first bit of element k of a blocked format, and the address of its scale (08 R182). -/
structure ElemAt where
  scale : Option Addr
  va : Addr
  n : Nat
  bit : Nat
/-- Locates an element (08 R182). -/
def elemAt (f : Nat) (p : Addr) (k : Int) : ElemAt :=
  if f < 11 then { scale := none, va := p + BitVec.ofInt 56 (elemBytes f * k), n := elemBytes f, bit := 0 }
  else if f = 16 then
    { scale := none, va := p + BitVec.ofInt 56 (28 * (k / 32)), n := 28, bit := (k % 32).toNat }
  else
    let base := p + BitVec.ofInt 56 (blockBytes f * (k / 128))
    let j := (k % 128).toNat
    let b := mxBits f * j
    { scale := some (base + BitVec.ofNat 56 (j / 32)), va := base + BitVec.ofNat 56 (4 + b / 8),
      n := (b % 8 + mxBits f + 7) / 8, bit := b % 8 }
/-- Alignment of a pointer for element accesses (08 R182). -/
def elemAlign (f : Nat) : Nat := if f < 11 then elemBytes f else 4
/-- Whether an element access of the issuing context advances its LFSR: under SR, for a floating-point format (08 R183, 02 R55). -/
def State.convertsAs (s : State) (f : Nat) : Bool := decide (s.me.rmode = 4) && decide (6 ≤ f)
/-- Advances the LFSR once where the access does. -/
def stepLfsrM (f : Nat) : M Unit := modM fun s =>
  if s.convertsAs f then s.modMe fun y => { y with lfsr := lfsrNext y.lfsr } else s

/-- lde (08 R183). -/
def execLde (m : Bool) (d a : BitVec 5) (k : BitVec 12) (s : State) : Out :=
  runM (do
    let p ← getM fun s => s.reg a
    let f := ptrFmt p
    if fmtCheckFails f (ptrBlog p) then illegalM (encodeWord (.lde m d a k))
    else do
      alignM (ptrVa p) (elemAlign f)
      let e := elemAt f (ptrVa p) k.toInt
      let body := splitParts (granule e.va) 1 e.va e.n .read 32
      let parts := match e.scale with
        | some v => { ix := 0, va := v, n := 1, op := .read } :: body
        | none => body
      let o ← getM fun s => { s.newOp with
        isLoad := true
        joint := decide (1 < body.length) && decide (f ≠ 16)
        conv := s.convertsAs f
        fin := .elem (s.dst d) f e.bit s.me.rmode.toNat s.me.lfsr }
      wideM .read 1 parts o
      stepLfsrM f
      retireM m) s

/-- The element code that ste writes to an MX block whose scale is s (08 R183). -/
def mxStoreCode (f s : Nat) (r : Rm) (x : FVal) : Nat :=
  if s = 255 then 0 else
  match x with
  | .nan => 0
  | .inf sg => match mxFmt f with
    | some g => g.signed sg g.maxCode
    | none => if sg then 129 else 127
  | v => mxConvert f s r v
/-- The element that ste writes to an unblocked format (08 R183). -/
def elemCode (f : Nat) (r : Rm) (x : Word) : Nat :=
  if f = 0 then x.toNat % 256
  else if f < 6 then codeEncode f r (.ofInt x.toInt)
  else codeEncode f r (fp32.decode (x.toNat % 2 ^ 32))
/-- Whether a blocked element access would leave the module (08 R191): it faults ILLEGAL. -/
def remoteParts (ls : List Lane) : Bool := ls.any fun l => match l.place with | .remote _ _ _ => true | _ => false

/-- ste (08 R183): an MX element waits for its scale, which is read as a load reads. -/
def execSte (m : Bool) (d a : BitVec 5) (k : BitVec 12) (s : State) : Out :=
  runM (do
    let p ← getM fun s => s.reg a
    let f := ptrFmt p
    if fmtCheckFails f (ptrBlog p) || f == 16 then illegalM (encodeWord (.ste m d a k))
    else do
      alignM (ptrVa p) (elemAlign f)
      let e := elemAt f (ptrVa p) k.toInt
      let x ← getM fun s => s.reg d
      let mode ← getM fun s => s.me.rmode.toNat
      let l ← getM fun s => s.me.lfsr
      match e.scale with
      | none => do
        let o ← getM fun s => { s.newOp with isStore := true, conv := s.convertsAs f }
        let w := BitVec.ofNat 64 (elemCode f (Rm.ofMode mode l.toNat) x)
        wideM .write 1 [{ ix := 1, va := e.va, n := e.n, op := storeOp e.n w }] o
      | some v => do
        watchM v 1 true false
        watchM e.va e.n false true
        acquireM
        let sc ← resolveM true .read 1 [{ ix := 0, va := v, n := 1, op := .read }]
        let body ← resolveM true .write 1 (splitParts (granule e.va) 1 e.va e.n .later 32)
        if remoteParts (sc ++ body) then illegalM (encodeWord (.ste m d a k))
        else do
          let o ← getM fun s => { s.newOp with
            isStore := true
            joint := decide (1 < body.length)
            conv := s.convertsAs f
            lanes := sc ++ body
            fin := .mxStore f e.bit x mode l }
          issueM o none
      stepLfsrM f
      retireM m) s

end Sys2Proof.Machine
end

