-- ==== Sys2Proof/Machine/Atomic.lean ====
section
/-! DEFINITION. Atomics, cas and cas2 (08 R185 to R189). -/

namespace Sys2Proof.Machine

/-- An atomic of n bytes (08 R186): order 1 acq, 2 rel, 3 ar. -/
def atomicM (m : Bool) (d a : BitVec 5) (n : Nat) (ord : BitVec 2) (op : LaneOp) : M Unit := do
  let va ← getM fun s => ptrVa (s.reg a)
  alignM va n
  let o ← getM fun s => { s.newOp with
    isLoad := true
    isStore := true
    acquire := ord.getLsbD 0
    ord := ord.toNat
    fin := .amo (s.dst d) n }
  accessM .atomic (ord.getLsbD 1) 1 [{ ix := 0, va := va, n := n, op := op }] o
  retireM m
/-- Width of an atomic: w = 0 is 4 bytes, w = 1 is 8 (08 R185). -/
def amoBytes (w : BitVec 1) : Nat := if w = 0 then 4 else 8

/-- amoadd (08 R185). -/
def execAmoadd (m : Bool) (d a b : BitVec 5) (w : BitVec 1) (o : BitVec 2) (s : State) : Out :=
  runM (atomicM m d a (amoBytes w) o (.amo 0 (amoBytes w) (s.reg b))) s
/-- amoand (08 R185). -/
def execAmoand (m : Bool) (d a b : BitVec 5) (w : BitVec 1) (o : BitVec 2) (s : State) : Out :=
  runM (atomicM m d a (amoBytes w) o (.amo 1 (amoBytes w) (s.reg b))) s
/-- amoor (08 R185). -/
def execAmoor (m : Bool) (d a b : BitVec 5) (w : BitVec 1) (o : BitVec 2) (s : State) : Out :=
  runM (atomicM m d a (amoBytes w) o (.amo 2 (amoBytes w) (s.reg b))) s
/-- amoxor (08 R185). -/
def execAmoxor (m : Bool) (d a b : BitVec 5) (w : BitVec 1) (o : BitVec 2) (s : State) : Out :=
  runM (atomicM m d a (amoBytes w) o (.amo 3 (amoBytes w) (s.reg b))) s
/-- amomin (08 R185). -/
def execAmomin (m : Bool) (d a b : BitVec 5) (w : BitVec 1) (o : BitVec 2) (s : State) : Out :=
  runM (atomicM m d a (amoBytes w) o (.amo 4 (amoBytes w) (s.reg b))) s
/-- amomax (08 R185). -/
def execAmomax (m : Bool) (d a b : BitVec 5) (w : BitVec 1) (o : BitVec 2) (s : State) : Out :=
  runM (atomicM m d a (amoBytes w) o (.amo 5 (amoBytes w) (s.reg b))) s
/-- amominu (08 R185). -/
def execAmominu (m : Bool) (d a b : BitVec 5) (w : BitVec 1) (o : BitVec 2) (s : State) : Out :=
  runM (atomicM m d a (amoBytes w) o (.amo 6 (amoBytes w) (s.reg b))) s
/-- amomaxu (08 R185). -/
def execAmomaxu (m : Bool) (d a b : BitVec 5) (w : BitVec 1) (o : BitVec 2) (s : State) : Out :=
  runM (atomicM m d a (amoBytes w) o (.amo 7 (amoBytes w) (s.reg b))) s
/-- amoswap (08 R185). -/
def execAmoswap (m : Bool) (d a b : BitVec 5) (w : BitVec 1) (o : BitVec 2) (s : State) : Out :=
  runM (atomicM m d a (amoBytes w) o (.amo 8 (amoBytes w) (s.reg b))) s
/-- amofadd.s (08 R185): FP32, rounded RNE. -/
def execAmofaddS (m : Bool) (d a b : BitVec 5) (o : BitVec 2) (s : State) : Out :=
  runM (atomicM m d a 4 o (.amo 9 4 (s.reg b))) s
/-- cas (08 R186): it compares with d and stores b. -/
def execCas (m : Bool) (d a b : BitVec 5) (w : BitVec 1) (o : BitVec 2) (s : State) : Out :=
  runM (atomicM m d a (amoBytes w) o (.cas (amoBytes w) (s.reg d) (s.reg b))) s

/-! ### cas2 (08 R187 to R189) -/

/-- The access of a cas2 form whose lanes are resolved by `acc`. -/
def cas2M (m : Bool) (acc : Acc) (ord : BitVec 2) (fin : Fin) (part : Part) : M Unit := do
  let o ← getM fun s => { s.newOp with
    isLoad := true
    isStore := part.op.fabricWrite
    acquire := ord.getLsbD 0
    ord := ord.toNat
    fin := fin }
  accessM acc (ord.getLsbD 1) 1 [part] o
  retireM m
/-- A fabric-remote address, or ILLEGAL (08 R187). -/
def remoteM (acc : Acc) (va : Addr) (word : BitVec 32) : M (Nat × Nat) := do
  if va.getLsbD 55 then faultM .illegal word va
  else match ← xlateM acc va with
    | .remote e pa => return (pa, e.size)
    | _ => faultM .illegal word va
/-- A CHASE's hop limit and predicate, or ILLEGAL (08 R189). -/
def chaseOk (v : Vec) : Bool := decide (bitsOf v.toNat 352 8 ≤ 16) && decide (bitsOf v.toNat 360 8 ≤ 3)

/-- cas2.p and cas2.q; cas2.p selects CAS2, ENQ or CHASE by bytes 56 to 63 of its register (08 R187). An ENQ's link word is not checked for
alignment (08 R188; assumption 56, DESIGN CHOICE, unsafe). -/
def execCas2 (m : Bool) (d a b : BitVec 5) (w : BitVec 1) (o : BitVec 2) (s : State) : Out :=
  let v := s.vreg b
  let va := ptrVa (s.reg a)
  let word := encodeWord (.cas2 m d a b w o)
  runM (do
    if w = 1 then do
      alignM va 32
      cas2M m .atomic o (.cas2 d.toNat true) { ix := 0, va := va, n := 32, op := .cas2 true v }
    else match bitsOf v.toNat 448 64 with
      | 0 => do
        alignM va 16
        cas2M m .atomic o (.cas2 d.toNat false) { ix := 0, va := va, n := 16, op := .cas2 false v }
      | 1 => do
        alignM va 8
        -- the head is read and written, the link word written (24 R420)
        watchM va 8 true true
        let head ← remoteM .write va word
        let link : Addr := BitVec.ofNat 56 (bitsOf v.toNat 256 56)
        watchM link 8 false true
        if link.getLsbD 55 then faultM .xlate 0 link
        else match ← xlateM .write link with
        | .remote _ pa =>
          if pa / 2 ^ 42 ≠ head.1 / 2 ^ 42 then faultM .xlate 0 link
          else cas2M m .write o (.remote64 d.toNat) { ix := 0, va := va, n := 8, op := .enq v pa }
        | _ => faultM .xlate 0 link
      | 2 =>
        if !chaseOk v then faultM .illegal word va
        else do
          let node ← remoteM .read va word
          cas2M m .read o (.remote64 d.toNat) { ix := 0, va := va, n := 8, op := .chase v va (pageBits node.2) }
      | _ => faultM .illegal word va) s

end Sys2Proof.Machine
end

