-- ==== Sys2Proof/Machine/BarrierOps.lean ====
section
/-! DEFINITION. The barrier instructions (15 R317 to R319). -/

namespace Sys2Proof.Machine

/-- A context's barrier operation keeps the order of the context's accesses to the same unit (07 R160). -/
def unitOrderM (vcid key pa : Nat) : M Unit := fun s =>
  let l : Lane := { ix := 0, va := 0, n := 1, place := .unit vcid .tracked key pa, op := .read, done := false, data := 0,
                    age := none, srcs := [] }
  if s.mine.earlierOn s.curCtx l then holdM s else clearUnitM l.place s
/-- The object a barrier instruction names, checked (15 R318): `rel` asks for the release, `acq` says that it acquires (15 R319). -/
def objectM (a : BitVec 5) (rel acq : Bool) : M (Nat × Nat × Nat) := do
  let va ← getM fun s => ptrVa (s.reg a)
  alignM va 32
  acquireM
  if acq then afterReleasesM
  let t ← trackedM .atomic 32 va
  if rel then releaseM
  unitOrderM t.1 t.2.1 t.2.2
  return t
/-- One operation on the object; a poisoned unit faults POISON (08 R176). -/
def barrierM (a : BitVec 5) (rel acq : Bool) (f : Obj → Obj × Bool) : M (Obj × Nat × Nat) := do
  let (vcid, key, pa) ← objectM a rel acq
  let (o, poison) ← atHomeM fun s => s.onObject s.myAgent vcid key pa f
  if poison then faultM .poison 0 (← getM fun s => ptrVa (s.reg a))
  else return (o, vcid, pa)

/-- binit (15 R318). -/
def execBinit (m : Bool) (a b : BitVec 5) (s : State) : Out :=
  let w := s.reg b
  runM (do
    let _ ← barrierM a false false fun o => (Obj.init o (fld w 0 16) (fld w 16 32), false)
    retireM m) s
/-- barrive (15 R318): a release. -/
def execBarrive (m : Bool) (a : BitVec 5) (s : State) : Out :=
  runM (do
    let _ ← barrierM a true false Obj.arrive
    retireM m) s
/-- bbeat (15 R318): a release. -/
def execBbeat (m : Bool) (a b : BitVec 5) (s : State) : Out :=
  let w := s.reg b
  runM (do
    let _ ← barrierM a true false fun o => Obj.beat o (fld w 0 32)
    retireM m) s
/-- Waiters that a home's bank holds (15 R319). -/
def State.barrierWaiters (s : State) (home : Nat) : Nat := (s.bWaiters.filter fun w => w.home == home).length
/-- bwait (15 R318): it registers as a waiter unless the generation differs or ABORT is set; a full table is tried again
later (15 R319). -/
def execBwait (m : Bool) (a b : BitVec 5) (s : State) : Out :=
  let w := s.reg b
  runM (do
    let (o, vcid, pa) ← barrierM a false true fun o => (o, false)
    if Obj.gen o ≠ fld w 0 32 ∨ Obj.abort o then retireM m
    else do
      let home ← getM fun s => s.homeCore vcid (pa / 128)
      if 64 ≤ (← getM fun s => s.barrierWaiters home) then parkM
      else stopWith fun s => { s.modMe fun y => { y with st := .parked, wait := .bwait pa m } with
        bWaiters := s.bWaiters ++ [{ home := home, addr := pa, core := s.curCore, ctx := s.curCtx }] }) s
/-- bstat (15 R318): an acquire whose result returns later. -/
def execBstat (m : Bool) (d a : BitVec 5) (s : State) : Out :=
  runM (do
    let (o, _, _) ← barrierM a false true fun o => (o, false)
    modM fun s => s.issueResult m [.scalar (s.dst d) (Obj.stat o)]) s

/-- BWAIT_ANSWER: the bwait returns (15 R318); a halted context keeps the wake-up for its resume (17 R359). -/
def execBwaitAnswer (id : Nat) (s : State) : Out :=
  match s.flight? id with
  | some { pkt := .bwaitAns dst x, .. } =>
    let c := s.forwarded dst
    let s := s.drop id
    match (s.ctx c x).wait with
    | .bwait _ m => .next (s.retireAt c x m)
    | _ => .next s
  | _ => .next s

end Sys2Proof.Machine
end

