-- ==== Sys2Proof/Machine/Boot.lean ====
section
/-! DEFINITION. Power-up, bring-up, attestation, the cross-trigger, and the measurements of power and heat (24 R411 to R423, 05
R111). -/

namespace Sys2Proof.Machine

/-! ### Bring-up (24 R414 to R417) -/

/-- POWER_ON (24 R414): everything but the host's memory begins as at reset, and step 1 calibrates the links. -/
def execPowerOn (calibrated : Bool) (s : State) : Out :=
  .next { State.reset with
    agenda := s.agenda ++ [.boot calibrated 1]
    hostMem := s.hostMem
    hostOut := s.hostOut
    dev := { Dev.reset with stage := 1 } }

/-- n bytes of an image from an offset. -/
def imagePart (b : List Byte) (off n : Nat) : List Byte := (b.drop off).take n
/-- A little-endian number of eight bytes. -/
def imageWord (b : List Byte) (off : Nat) : Nat := (imagePart b off 8).foldr (fun x n => x.toNat + 256 * n) 0
/-- TLEN, SLEN and SIGLEN of an image (24 R415). -/
def imageLens (b : List Byte) : Nat × Nat × Nat := (imageWord b 8, imageWord b 16, imageWord b 24)
/-- Whether the format check passes (24 R415). -/
def imageFormatOk (b : List Byte) (len : Nat) : Bool :=
  let (t, n, g) := imageLens b
  imageWord b 0 == 1 && decide (16 ≤ t) && decide (t ≤ 65536) && decide (16 ≤ n) && decide (n ≤ 65536) && decide (1 ≤ g) &&
    decide (g ≤ 1462) && (imagePart b 32 32).all (fun x => x == 0) && len == 128 + t + n + g
/-- Whether the configuration record is in range (24 R417). -/
def configOk (b : List Byte) : Bool :=
  let svc := imageWord b 64
  let plim := imageWord b 72
  decide (2 ≤ svc) && decide (svc ≤ 8) && decide (1000 ≤ plim) && decide (plim ≤ 4200) && decide (imageWord b 80 < 8) &&
    (imagePart b 88 40).all fun x => x == 0
/-- The image that BOOTADDR and BOOTLEN name; a length that no image has is not read to its end. -/
def State.bootImage (s : State) : List Byte :=
  (List.range (min s.dev.bootLen.toNat 133000)).map fun i => s.hostMem.byte (s.dev.bootAddr.toNat + i)
/-- BOOTERR of step 3 (24 R414 to R417): 0 when the image is accepted. -/
def State.bootCheck (s : State) (imageRead : Bool) : Nat :=
  let b := s.bootImage
  let (t, n, g) := imageLens b
  if !imageRead then 2
  else if !imageFormatOk b s.dev.bootLen.toNat then 3
  else if !Config.imageSignatureValid (imagePart b 0 (128 + t + n)) (imagePart b (128 + t + n) g) then 4
  else if !configOk b then 5
  else 0
/-- c0 of a service core as firmware starts it (24 R414 step 5). -/
def firmwareCtx : Ctx := { Ctx.reset 0 with st := .ready, mode := .supervisor, pc := 0x80000000000040 }
/-- Steps 4 to 6 of bring-up (24 R414): main memory keeps its bytes without a tag, and what the registers and TCMs held is gone; the
measurements of power and heat go on. -/
def State.bringUp (s : State) : State :=
  let b := s.dev.image
  let (t, n, _) := imageLens b
  let t0 : State := { State.reset with
    clock := s.clock
    agenda := s.agenda
    nextId := s.nextId
    hbm := s.hbm
    hostMem := s.hostMem
    hostOut := s.hostOut
    net := s.net.filter fun f => match f.pkt with
      | .hostAcc _ _ _ => true
      | _ => false
    dev := { Dev.reset with
      stage := 5
      ready := true
      image := b
      svc := imageWord b 64
      plim := imageWord b 72
      dbgen := BitVec.ofNat 3 (imageWord b 80)
      hot := s.dev.hot
      pwrthr := s.dev.pwrthr
      rate := s.dev.rate
      keyDraws := s.dev.keyDraws } }
  (allCores.filter t0.isService).foldl (fun s c =>
    let body := if 255 - posOf c < s.svcT then imagePart b 128 t else imagePart b (128 + t) n
    s.setCore c { Core.reset with tcm := Memory.ofBytes body, ctxs := [(0, firmwareCtx)] }) t0
/-- A step of bring-up ends (24 R414 to R416): 1, calibration; 3, the image, which the boot ROM reads and verifies; 4, initialisation, with
what follows it at once (assumption 37, DESIGN CHOICE, unsafe). `ok` says that it has succeeded, for step 3 that the image could be read. -/
def State.bootStep (s : State) (ok : Bool) : State :=
  let dev (f : Dev → Dev) : State := { s with dev := f s.dev }
  match s.dev.stage with
  | 1 => if ok then dev fun d => { d with stage := 2 } else dev fun d => { d with bootErr := 1, stopped := true }
  | 3 => match s.bootCheck ok with
    | 0 => dev fun d => { d with stage := 4, bootErr := 0, image := s.bootImage }
    | n => dev fun d => { d with stage := 2, bootErr := n }
  | 4 => if ok then s.bringUp else dev fun d => { d with bootErr := 6, stopped := true }
  | _ => s
/-- BOOTGO (24 R414, R415): in STAGE 2 the boot ROM begins, and ends with the image read or not and the module initialised or not. -/
def execBootgo (imageRead initialised : Bool) (s : State) : Out :=
  if s.dev.stage ≠ 2 then .next s
  else .next { s.bootgo with agenda := s.agenda ++ [.boot imageRead 1, .boot initialised 1] }
/-- ATTGO (24 R418). -/
def execAttgo (s : State) : Out := .next s.attest

/-! ### Debug (24 R419 to R423) -/

/-- GONG (24 R421), where DBGEN permits the cross-trigger (24 R417). -/
def execGong (cluster : Nat) (s : State) : Out := .next (if s.dev.dbgen.getLsbD 2 then s.gong cluster else s)
/-- RELEASE (24 R421). -/
def execRelease (cluster : Nat) (s : State) : Out := .next (s.ungong cluster)
/-- A gap entry of a core's state log (24 R423). -/
def execTraceGap (core : Nat) (s : State) : Out :=
  .next (if s.tracing core then s.modCore core fun k => k.traceGaps s.clock ((s.clock - k.traceLast) / traceMax) else s)

/-! ### Power and heat (24 R412, 05 R111) -/

/-- POWER_MEASURE (24 R412): the rate in sixteenths falls above PLIM and rises below 15/16 of it. -/
def execPowerMeasure (watts : Nat) (s : State) : Out :=
  if !s.dev.ready then .next s
  else
    let r := if s.dev.plim < watts then max 4 (s.dev.rate - 1)
      else if 16 * watts < 15 * s.dev.plim then min 16 (s.dev.rate + 1) else s.dev.rate
    .next { s with dev := { s.dev with rate := r, pwrthr := decide (r < 16) } }
/-- THERMAL_LIMIT (05 R111): HOT is set at 105 degrees and cleared at 100. -/
def execThermalLimit (die celsius : Nat) (s : State) : Out :=
  let bit : BitVec 8 := BitVec.ofNat 8 (2 ^ (die % 8))
  .next (if 105 ≤ celsius then { s with dev := { s.dev with hot := s.dev.hot ||| bit } }
    else if celsius ≤ 100 then { s with dev := { s.dev with hot := s.dev.hot &&& ~~~bit } }
    else s)

end Sys2Proof.Machine
end

