-- ==== Sys2Proof/Machine/CacheOps.lean ====
section
/-! DEFINITION. Fences (07 R171, R172) and cache maintenance (08 R190). -/

namespace Sys2Proof.Machine

/-- Whether a core lies in a scope of the issuing core (07 R158). -/
def inScope (scope self home : Nat) : Bool :=
  match scope with
  | 0 => false
  | 1 => self == home
  | 2 => clusterOf self == clusterOf home
  | 3 => dieOf self == dieOf home
  | _ => true
/-- A STAMPED write that has not performed, and whose home lies in the scope; at dev scope it is any, as itadv 0 waits for (07 R171, R172). -/
def State.stampedOut (s : State) (scope : Nat) (o : Op) : Bool :=
  o.lanes.any fun l => (!l.done || o.fault.isSome) && l.op.writes && (match l.place with
    | .unit vcid .stamped _ pa => inScope scope s.curCore (s.homeCore vcid (pa / 128))
    | .remote .stamped _ _ => decide (4 ≤ scope)
    | _ => false)
/-- Whether what a fence waits for has performed at its scope (07 R171). -/
def State.fenceDone (s : State) (scope kind : Nat) : Bool :=
  let c := s.curCore
  let x := s.curCtx
  let sys : Bool := scope == 5
  -- an UNTRACKED word counts as performed at ctx and core scope in the L1 (07 R172); cache maintenance ends at the home (08 R190)
  let words : Bool := if scope ≤ 1 then s.wordsOut c x else s.wordsHeld c x
  match kind with
  | 0 => s.performedAll c x (fun o => o.isLoad) sys
  | 1 => s.performedAll c x (fun o => o.isStore) sys && !words
  | 2 => s.performedAll c x (fun _ => true) sys && !words
  | _ => (s.mine.opsOf x).all fun o => !s.stampedOut scope o

/-- fence (07 R172): kind eng holds only later engine commands; every other kind holds the context. A fence of kind st or
all at sys scope reports what a fabric write left behind (08 R193, 18 R380). -/
def execFence (m : Bool) (c k : BitVec 3) (s : State) : Out :=
  let scope := c.toNat
  let kind := k.toNat
  if kind = 3 then
    .next (((if 2 ≤ scope then s.markWords s.curCore s.curCtx else s).modMe fun y => { y with
      engWait := y.engWait ++ (s.mine.opsOf s.curCtx).map fun o => (o.id, scope == 5)
      engWords := y.engWords || (decide (2 ≤ scope) && s.wordsHeld s.curCore s.curCtx) }).retire m)
  else match (if scope = 5 ∧ (kind = 1 ∨ kind = 2) then s.me.fenceErr else none) with
    | some (cause, dev) =>
      .next ((s.modMe fun y => { y with fenceErr := none }).faultHere (accFault cause dev 0))
    | none =>
      if s.fenceDone scope kind then .next (s.retire m)
      else .next (s.modMe fun y => { y with st := .parked, wait := .none })

/-! ### cwb, cflush and cinv (08 R190) -/

/-- Translates with read or write permission. An address that translates to the host memory window and permits neither, or that another
check refuses, faults as any other (08 R190; assumption 57, DESIGN CHOICE, unsafe). -/
def maintainM (va : Addr) : M (Option Target) := fun s =>
  if va.getLsbD 55 then .ok (none, s) else
  let sup := decide (s.me.mode = .supervisor)
  match s.tlb s.curCore s.mine.domain sup va.toNat with
  | (none, _) => (do let t ← xlateM .read va; return some t) s
  | (some e, t) => match t.checkEnt t.mine.domain sup .read e va with
    | .ok g => .ok (some g, t)
    | .error f => match t.checkEnt t.mine.domain sup .write e va with
      | .ok g => .ok (some g, t)
      | .error _ => .error (.fault f)

/-- Drops the unit from the core's instruction cache (01 R438). An instruction cache that its home records by cluster stays recorded. -/
def State.dropCode (s : State) (c vcid u : Nat) : State :=
  (s.modCore c fun k => { k with icache := k.icache.filter fun i => i.unit != u }).modHome vcid u fun h =>
    if h.sharers.contains (8192 + c) then h.leave (8192 + c) else h

/-- Cleans an UNTRACKED copy: its dirty words leave for the home, as maintenance of context x too (06 R138). -/
def State.cleanUntracked (s : State) (c x u : Nat) : State :=
  match (s.core c).copy? u .untracked with
  | none => s
  | some cp => if cp.dirty = 0 then s else
    (s.modCore c fun k => { k with l1 := mapIf (fun y => y.unit == u && decide (y.cls = .untracked)) (fun y => { y with dirty := 0, writers := [] }) k.l1 }).send
      (.writeBack c (addOnce cp.writers x) u cp.vcid cp.key cp.dirty cp.data cp.poison)

/-- The effect of a maintenance instruction on a unit of this module: `write` says that dirty data goes home, `drop` that
the copy leaves. TRACKED data always goes home (08 R190). -/
def State.maintain (s : State) (write drop : Bool) (e : TlbEnt) (pa : Nat) : State :=
  let c := s.curCore
  let u := pa / 128
  let s := match e.cls with
    | .tracked => s.giveUp c u drop
    | .untracked =>
      let s := if write then s.cleanUntracked c s.curCtx u else s
      if drop then s.modCore c fun k => k.dropCopy u .untracked else s
    | .stamped => if drop then s.modCore c fun k => k.dropCopy u .stamped else s
  if drop then s.dropCode c e.vcid u else s

/-- A maintenance instruction: ordered with the context's accesses to the same unit; nothing in local space or in the host window, and on a
fabric-remote page it acts on a STAMPED copy (08 R190, 06 R155). -/
def maintenanceM (m write drop : Bool) (va : Addr) : M Unit := do
  acquireM
  match ← maintainM va with
  | some (.unit e pa) => do
    let l : Lane := { ix := 0, va := va, n := 1, place := .unit e.vcid e.cls e.key pa, op := .read, done := false, data := 0,
                      age := none, srcs := [] }
    if ← getM fun s => s.mine.earlierOn s.curCtx l then holdM
    else modM fun s => s.maintain write drop e pa
  | some (.remote e pa) => do
    let l : Lane := { ix := 0, va := va, n := 1, place := .remote e.cls e.key pa, op := .read, done := false, data := 0, age := none, srcs := [] }
    if ← getM fun s => s.mine.earlierOn s.curCtx l then holdM
    else modM fun s => if drop && decide (e.cls = .stamped) then s.modCore s.curCore fun k => k.dropCopy (remoteUnit pa) .stamped else s
  | _ => pure ()
  retireM m
/-- cflush (08 R190). -/
def execCflush (m : Bool) (a : BitVec 5) (s : State) : Out := runM (maintenanceM m true true (ptrVa (s.reg a))) s
/-- cinv (08 R190). -/
def execCinv (m : Bool) (a : BitVec 5) (s : State) : Out := runM (maintenanceM m false true (ptrVa (s.reg a))) s
/-- cwb (08 R190). -/
def execCwb (m : Bool) (a : BitVec 5) (s : State) : Out := runM (maintenanceM m true false (ptrVa (s.reg a))) s

end Sys2Proof.Machine
end

