-- ==== Sys2Proof/Machine/Flags.lean ====
section
/-! DEFINITION. What the module has in place of flags: comparison results in registers (11 R234, R235, R242), mask bits (12
R254), minimum and maximum (11 R234, 12 R249, R251). Integer arithmetic sets no flags (11). -/

namespace Sys2Proof.Machine

/-- 1 or 0 in a register (11 R234). -/
def boolWord (b : Bool) : Word := if b then 1 else 0
/-- The lesser of two registers under an order. -/
def wordMin (lt : Word → Word → Bool) (a b : Word) : Word := if lt b a then b else a
/-- The greater of two registers under an order. -/
def wordMax (lt : Word → Word → Bool) (a b : Word) : Word := if lt a b then b else a

/-- Mask result of a lane comparison: active lanes take the comparison, masked-off lanes keep their bit, bits from n up are
clear (12 R254). -/
def maskResult (n : Nat) (k old : Word) (f : Nat → Bool) : Word :=
  BitVec.ofNat 64 (packLanes 1 (fun L => (if k.getLsbD L then f L else old.getLsbD L).toNat) n)

/-- The comparisons of vcmp (12 R254): every order with a NaN is false, and ne is then true. -/
inductive VCmp where
  | eq
  | lt
  | le
  | ne
  deriving DecidableEq, Repr

def VCmp.holds (c : VCmp) (x y : FVal) : Bool :=
  match c with
  | .eq => x.eq y
  | .lt => x.lt y
  | .le => x.lt y || x.eq y
  | .ne => !x.eq y

/-- Whether x is below y with −0 below +0 (12 R251). -/
def FVal.below (x y : FVal) : Bool := x.lt y || (x.isZero && y.isZero && x.sign && !y.sign)

/-- The lesser or greater of two codes of a format; the canonical NaN when either is NaN; the operand itself otherwise
(12 R251). -/
def FFmt.pick (f : FFmt) (max : Bool) (a b : Nat) : Nat :=
  let x := f.decode a
  let y := f.decode b
  if x.isNan || y.isNan then f.nan
  else if max then (if x.below y then b else a) else (if y.below x then b else a)

end Sys2Proof.Machine
end

