-- ==== Sys2Proof/Machine/Collective.lean ====
section
/-! DEFINITION. Combining trees (15 R320 to R332): the paths through the mesh and the bridges (01 R11, R13), the routers' slots,
the result at the root, cred and cmaxb. -/

namespace Sys2Proof.Machine

/-! ### Paths (15 R320, 01 R11, R13) -/

/-- Mesh column of a core on its die. -/
def meshX (c : Nat) : Nat := 16 * (clusterOf c % 2) + c % 16
/-- Mesh row of a core on its die. -/
def meshY (c : Nat) : Nat := 16 * (clusterOf c % 4 / 2) + c / 16 % 16
/-- The core at a mesh position of a die. -/
def meshCore (d x y : Nat) : Nat := 1024 * d + 256 * (2 * (y / 16) + x / 16) + 16 * (y % 16) + x % 16
/-- The next router from c toward position (x, y) of its die, first along X, then along Y, and the input it is reached
by; `none` when c is that position. -/
def meshHop (c x y : Nat) : Option (Nat × Input) :=
  let d := dieOf c
  let cx := meshX c
  let cy := meshY c
  if cx < x then some (meshCore d (cx + 1) cy, .west)
  else if x < cx then some (meshCore d (cx - 1) cy, .east)
  else if cy < y then some (meshCore d cx (cy + 1), .north)
  else if y < cy then some (meshCore d cx (cy - 1), .south)
  else none
/-- The next router on the way from c to the root. -/
def nextHop (c root : Nat) : Option (Nat × Input) :=
  let d := dieOf c
  let r := dieOf root
  if d = r then meshHop c (meshX root) (meshY root)
  else
    -- the bridge left by, and where the next die is entered
    let (bx, by_, nd, ex, ey) : Nat × Nat × Nat × Nat × Nat :=
      if d % 4 < r % 4 then (31, 16, d + 1, 0, 16)
      else if r % 4 < d % 4 then (0, 16, d - 1, 31, 16)
      else if d < r then (16, 31, d + 4, 16, 0)
      else (16, 0, d - 4, 16, 31)
    match meshHop c bx by_ with
    | some h => some h
    | none => some (meshCore nd ex ey, .bridge)
/-- The input by which a path that stands at a router passes another, if it does. -/
def pathInput (root target : Nat) : Nat → Nat → Input → Option Input
  | 0, _, _ => none
  | n + 1, c, i =>
    if c = target then some i
    else match nextHop c root with
      | some (c', i') => pathInput root target n c' i'
      | none => none
/-- Routers on the longest path. -/
def pathMax : Nat := 512

/-- The members of a group of a launch, in ascending order; the root is the first (14 R311). The combining tables that the sequencer wrote
stay in the routers as long as messages of the launch may come (15 R320). -/
def State.groupMembers (s : State) (n gid : Nat) : List Nat := (tget s.tables n []).getD gid []
/-- The combining table of a router for a group: the inputs that feed it (15 R320). -/
def tableInputs (members : List Nat) (root at_ : Nat) : List Input :=
  members.foldl (fun l m => match pathInput root at_ pathMax m .own with
    | some i => if l.contains i then l else l ++ [i]
    | none => l) []

/-! ### Combining (15 R323, R330) -/

/-- Lane bytes of a type code: 0 FP32, 1 BF16, 2 INT32. -/
def collBytes (ty : Nat) : Nat := if ty = 1 then 2 else 4
/-- Format of a float type code. -/
def collFmt (ty : Nat) : FFmt := if ty = 1 then bf16 else fp32
/-- One lane combined: the code, and whether a NaN arose or an addition overflowed. Operations: 0 add, 1 max, 2 min. -/
def combineLane (ty op a b : Nat) : Nat × Bool × Bool :=
  if ty = 2 then
    (match op with
      | 0 => (a + b) % 2 ^ 32
      | 1 => if signedOf 32 a < signedOf 32 b then b else a
      | _ => if signedOf 32 b < signedOf 32 a then b else a, false, false)
  else
    let f := collFmt ty
    let x := f.decode a
    let y := f.decode b
    if x.isNan || y.isNan then (f.nan, true, false)
    else match op with
      | 0 =>
        let r := f.encode .ieee .rne (x.add .rne y)
        let v := f.decode r
        (r, v.isNan, v.isInf && !x.isInf && !y.isInf)
      | 1 => (f.pick true a b, false, false)
      | _ => (f.pick false a b, false, false)
/-- Two contributions combined, lane by lane; the counts are added and the flags travel with the value. -/
def Contrib.combine (a b : Contrib) : Contrib :=
  let e := collBytes a.ty
  let op := if a.kind = 1 then 1 else a.op
  let res := (List.range (64 / e)).map fun L => combineLane a.ty op (lane e a.val L) (lane e b.val L)
  { a with
    val := BitVec.ofNat 512 (packLanes (8 * e) (fun L => (res.getD L (0, false, false)).1) (64 / e))
    count := a.count + b.count
    timedOut := a.timedOut || b.timedOut
    nan := a.nan || b.nan || res.any fun r => r.2.1
    ovf := a.ovf || b.ovf || res.any fun r => r.2.2 }
/-- What a member's cmaxb contributes: magnitudes in its float lanes (15 R330). -/
def magnitudes (ty : Nat) (v : Vec) : Vec :=
  if ty = 2 then v else
  let f := collFmt ty
  let e := collBytes ty
  lanes e (BitVec.allOnes 64) 0 fun L =>
    let c := lane e v L
    if (f.decode c).isNan then f.nan else c % 2 ^ (8 * e - 1)

/-- Position of an input in the combining order (15 R323). -/
def Input.rank (i : Input) : Nat :=
  match i with
  | .own => 0
  | .west => 1
  | .east => 2
  | .north => 3
  | .south => 4
  | .bridge => 5
/-- A slot's contributions combined in the fixed order. -/
def RSlot.value (sl : RSlot) : Option Contrib :=
  let l := (List.range 6).flatMap fun i => (sl.got.filter fun p => p.1.rank == i).map fun p => p.2
  match l with
  | c :: cs => some (cs.foldl Contrib.combine c)
  | [] => none

/-! ### Routers -/

def State.router (s : State) (pos : Nat) : Router := tget s.routers pos Router.reset
def State.modRouter (s : State) (pos : Nat) (f : Router → Router) : State :=
  { s with routers := tset s.routers pos (f (s.router pos)) }
/-- Whether two contributions belong to one instance. -/
def Contrib.same (a : Contrib) (n gid inst : Nat) : Bool := a.launch == n && a.gid == gid && a.inst == inst
/-- The cycle at which a slot that opens now expires (15 R321, R322). -/
def State.slotDue (s : State) (pos : Nat) : Option Nat :=
  let t := (s.core (s.forwarded pos)).ctmo.toNat
  if t = 0 then none else some (s.clock + t)
/-- The status word of a collective (15 R327). -/
def collStatus (c : Contrib) (late members : Nat) : Word :=
  BitVec.ofNat 64 (1 + c.timedOut.toNat * 2 + c.nan.toNat * 4 + c.ovf.toNat * 8 + c.count % 65536 * 2 ^ 16
    + members % 65536 * 2 ^ 32 + min late 65535 * 2 ^ 48)

/-- The root acts on its ready slot (15 R327, R330): the result, then TIMEOUT, status word and arrival; a cmaxb sends its
release to every member's origin router. -/
def State.completeCollective (s : State) (w : Writer) (root : Nat) (c : Contrib) (members : List Nat) : AtHome Unit :=
  let s0 := s
  match s.writeAtHome w c.areaVcid c.areaKey (c.area / 128) (fun u => unitPut u (c.area % 128) 64 c.val.toNat) false with
  | .busy s => .busy s
  | .done s _ =>
    let late := ((s.router root).late.filter fun l => l == (c.launch, c.gid, c.inst)).length
    let s := if c.kind = 1 then members.foldl (fun s m => s.send (.cmaxRelease m c.launch c.gid c.inst c.val)) s else s
    match s.completeAt w c.areaVcid c.areaKey (c.area + 64) (some (collStatus c late members.length)) c.timedOut .arrive with
    | .busy _ => .busy s0
    | .done s _ => .done (s.modRouter root fun r => { r with
        done := r.done ++ [c]
        late := r.late.filter fun l => l != (c.launch, c.gid, c.inst) }) ()

/-- A slot forwards (15 R321): at the root it completes, elsewhere its partial goes to the next router; an expired one is
recorded as flushed. The held contribution of the group then opens the next slot (15 R326), which may be ready at once. -/
def State.forwardSlot (s : State) (w : Writer) (pos : Nat) (sl : RSlot) (expired : Bool) : Nat → AtHome Unit
  | 0 => .done s ()
  | n + 1 =>
    let members := s.groupMembers sl.launch sl.gid
    let root := members.headD pos
    let same (x : RSlot) : Bool := x.launch == sl.launch && x.gid == sl.gid
    match sl.value with
    | none => .done s ()
    | some v =>
      let v := { v with timedOut := v.timedOut || expired }
      let sent : AtHome Unit := match (if pos = root then none else nextHop pos root) with
        | some (p, i) => .done (s.send (.contrib p i v)) ()
        | none => s.completeCollective w pos v members
      match sent with
      | .busy s => .busy s
      | .done s _ =>
        let r := s.router pos
        let held := r.early.find? fun e => e.2.launch == sl.launch && e.2.gid == sl.gid
        let s := s.modRouter pos fun r => { r with
          slots := r.slots.filter fun x => !same x
          early := r.early.filter fun e => !(e.2.launch == sl.launch && e.2.gid == sl.gid)
          flushed := if expired then (sl.launch, sl.gid, sl.inst) :: r.flushed else r.flushed }
        match held with
        | none => .done s ()
        | some e =>
          let next : RSlot := { launch := sl.launch, gid := sl.gid, inst := e.2.inst, got := [e], due := s.slotDue pos }
          let s := s.modRouter pos fun r => { r with slots := r.slots ++ [next] }
          if (tableInputs members root pos).all fun i => i == e.1 then match s.forwardSlot w pos next false n with
            | .busy s => .done s ()
            | r => r
          else .done s ()

/-- What a router makes of a contribution. -/
inductive Taken where
  | ok (s : State)
  | late (s : State)
  | wait (s : State)
  | refused

/-- The group slot of a core that holds a group id (14 R312). -/
def Core.groupSlot (k : Core) (gid : Nat) : Option Nat := (List.range 4).find? fun j => (tget k.grp j 0).toNat == 256 + gid
/-- A contribution reaches a router by an input (15 R321, R325, R326). -/
def State.routerTake (s : State) (w : Writer) (pos : Nat) (i : Input) (c : Contrib) : Taken :=
  let r := s.router pos
  let members := s.groupMembers c.launch c.gid
  let root := members.headD pos
  let late : Taken := .late (s.send (.late root c.launch c.gid c.inst))
  let own : Bool := i = .own
  let mine : Nat := s.forwarded pos
  let ownGroup (n gid : Nat) : Bool := ((s.launchOf mine).map fun l => l.serial) == some n && ((s.core mine).groupSlot gid).isSome
  let pool := (r.slots.filter fun x => !ownGroup x.launch x.gid).length + (r.early.filter fun e => !ownGroup e.2.launch e.2.gid).length
  let full : Bool := !ownGroup c.launch c.gid && decide (56 ≤ pool)
  let ready (s : State) (sl : RSlot) : Taken :=
    if (tableInputs members root pos).all fun j => sl.got.any fun g => g.1 == j then match s.forwardSlot w pos sl false 3 with
      | .busy s' => .wait { s' with routers := s.routers }
      | .done s _ => .ok s
    else .ok s
  if r.flushed.contains (c.launch, c.gid, c.inst) then late
  else match r.slots.find? fun x => x.launch == c.launch && x.gid == c.gid with
    | none =>
      if full then .wait s else
      let sl : RSlot := { launch := c.launch, gid := c.gid, inst := c.inst, got := [(i, c)], due := s.slotDue pos }
      match ready (s.modRouter pos fun r => { r with slots := r.slots ++ [sl] }) sl with
      | .wait t => .wait { t with routers := s.routers }
      | t => t
    | some x =>
      if x.inst = c.inst then
        let sl := { x with got := x.got ++ [(i, c)] }
        match ready (s.modRouter pos fun r => { r with
            slots := mapIf (fun y => y.launch == x.launch && y.gid == x.gid) (fun _ => sl) r.slots }) sl with
        | .wait t => .wait { t with routers := s.routers }
        | t => t
      else if c.inst = x.inst + 1 ∧ !r.early.any (fun e => e.2.launch == c.launch && e.2.gid == c.gid) then
        if full then .wait s else .ok (s.modRouter pos fun r => { r with early := r.early ++ [(i, c)] })
      else if own then .refused else .wait s

/-- Writes a cmaxb maximum into a member's area (15 R330). -/
def State.writeMax (s : State) (w : Writer) (c : Contrib) (v : Vec) : AtHome Unit :=
  s.writeAtHome w c.areaVcid c.areaKey (c.area / 128) (fun u => unitPut u (c.area % 128) 64 v.toNat) false

/-- A contribution that its router neither accepts nor refuses yet is held (15 R329, R331). -/
def awaitRouterM {α : Type} (t : State) : M α := stopWith fun _ => t.modMe fun y => { y with st := .held, wait := .router }
/-- A core's contribution at its origin router, by a group slot (15 R324, R329, R330): whether its context parks for the release. -/
def contributeM (c : Contrib) (pos slot : Nat) : M Bool := fun s =>
  let bump (s : State) : State := s.modRouter pos fun r => { r with counters := tset r.counters slot (c.inst + 1) }
  let park (s : State) : State := if c.kind = 1 then s.modRouter pos fun r => { r with areas := r.areas ++ [c] } else s
  match (if c.kind = 1 then (s.router pos).kept.find? fun k => k.1 == c.launch && k.2.1 == c.gid && k.2.2.1 == c.inst else none) with
  | some k => match s.writeMax s.myAgent c k.2.2.2 with
    | .busy t => awaitRouterM t s
    | .done t _ =>
      let root := (s.groupMembers c.launch c.gid).headD pos
      .ok (false, bump ((t.modRouter pos fun r => { r with kept := r.kept.filter fun x => x != k }).send (.late root c.launch c.gid c.inst)))
  | none => match s.routerTake s.myAgent pos .own c with
    | .ok t => .ok (decide (c.kind = 1), park (bump t))
    | .late t => .ok (decide (c.kind = 1), park (bump t))
    | .wait t => awaitRouterM t s
    | .refused => faultM .collOverrun 0 0 s

/-- What cred and cmaxb check, in the order of 15 R329: the values of their registers once their writes have performed, as gid, group slot,
cache, key and address of the area, and data. -/
def collectiveCheckM (v a b : BitVec 5) (word : BitVec 32) : M (List Nat) := do
  engineM
  acquireM
  let gid ← getM fun s => fld (s.reg a) 0 8
  let area ← getM fun s => ptrVa (s.reg b)
  match ← getM fun s => s.mine.groupSlot gid with
  | none => illegalM word
  | some slot => do
    alignM area 128
    let (vcid, key, pa) ← trackedM .atomic 96 area
    writesM
    keepM fun s => [gid, slot, vcid, key, pa, (s.vreg v).toNat]
/-- The contribution that cred (kind 0) and cmaxb (kind 1) send (15 R329); one that waits for its router is checked no more. -/
def collectiveM (m : Bool) (kind ty op : Nat) (v : BitVec 5) (a b : BitVec 5) (word : BitVec 32) : M Unit := do
  let l ← match ← getM fun s => s.me.keptNow with
    | some l => pure l
    | none => collectiveCheckM v a b word
  let gid := l.getD 0 0
  let slot := l.getD 1 0
  let val : Vec := BitVec.ofNat 512 (l.getD 5 0)
  let pos ← getM fun s => s.mine.origin.getD s.curCore
  let inst ← getM fun s => tget (s.router pos).counters slot 0
  let n ← getM fun s => match s.launchOf s.curCore with
    | some l => l.serial
    | none => 0
  let c : Contrib := { launch := n, gid := gid, inst := inst, kind := kind, op := op, ty := ty,
                       val := if kind = 1 then magnitudes ty val else val, count := 1, timedOut := false, nan := false,
                       ovf := false, member := pos, area := l.getD 4 0, areaVcid := l.getD 2 0, areaKey := l.getD 3 0 }
  if ← contributeM c pos slot then
    stopWith fun s => s.modMe fun y => { y with st := .parked, wait := .release gid inst m }
  else retireM m

/-- cred (15 R329). -/
def execCred (m : Bool) (d a b : BitVec 5) (t o : BitVec 2) (s : State) : Out :=
  runM (collectiveM m 0 t.toNat o.toNat d a b (encodeWord (.cred m d a b t o))) s
/-- cmaxb (15 R329, R330). -/
def execCmaxb (m : Bool) (d a b : BitVec 5) (t : BitVec 2) (s : State) : Out :=
  runM (collectiveM m 1 t.toNat 1 d a b (encodeWord (.cmaxb m d a b t))) s

/-! ### Events -/

/-- Whether no earlier contribution waits on a link (15 R321). -/
def State.linkFree (s : State) (id pos : Nat) (i : Input) : Bool :=
  (s.net.takeWhile fun f => f.id != id).all fun f => match f.pkt with
    | .contrib p j _ => !(p == pos && decide (j = i))
    | _ => true
/-- COMBINING_CONTRIBUTION (15 R321): a contribution or partial reaches a router, after those before it on its link; one that cannot be taken
waits there. -/
def execCombiningContribution (id : Nat) (s : State) : Out :=
  match s.flight? id with
  | some { pkt := .contrib pos i c, .. } =>
    if !s.linkFree id pos i then .next s else
    match s.routerTake (.msg id) pos i c with
    | .ok t => .next (t.drop id)
    | .late t => .next (t.drop id)
    | .wait t => .next t
    | .refused => .next s
  | _ => .next s
/-- COMBINING_TIMEOUT (15 R321): a slot whose timer has expired forwards what it has. A slot that was ready and had to wait
for the home of its area forwards as ready. -/
def execCombiningTimeout (core gid : Nat) (s : State) : Out :=
  let ready (x : RSlot) : Bool :=
    let members := s.groupMembers x.launch x.gid
    (tableInputs members (members.headD core) core).all fun j => x.got.any fun g => g.1 == j
  let expired (x : RSlot) : Bool := match x.due with
    | some d => decide (d ≤ s.clock)
    | none => false
  match (s.router core).slots.find? fun x => x.gid == gid && (ready x || expired x) with
  | some sl => match s.forwardSlot (.agent 6 (core + 8192 * gid)) core sl (!ready sl) 3 with
    | .busy s => .next s
    | .done s _ => .next s
  | none => .next s
/-- LATE_COUNT (15 R325): a straggler of a completed instance raises LATE in its status word, unless a later instance has
completed in the same area; one that comes before the completion is counted by it. -/
def execLateCount (id : Nat) (s : State) : Out :=
  match s.flight? id with
  | some { pkt := .late root q gid inst, .. } =>
    let r := s.router root
    match r.done.find? fun c => c.same q gid inst with
    | none => .next ((s.drop id).modRouter root fun r => { r with late := (q, gid, inst) :: r.late })
    | some c =>
      if r.done.any fun x => decide (c.inst < x.inst) && x.launch == q && x.gid == gid && x.area == c.area then .next (s.drop id)
      else match s.onObject (.msg id) c.areaVcid c.areaKey (c.area + 64) (fun o =>
          (setBits o 176 16 (min 65535 (bitsOf o 176 16 + 1)), false)) with
        | .busy s => .next s
        | .done s _ => .next (s.drop id)
  | _ => .next s
/-- The context of a core that is parked for the release of an instance. -/
def Core.parkedFor (k : Core) (gid inst : Nat) : Option (Nat × Bool) :=
  allCtx.findSome? fun x => match (k.ctx x).wait with
    | .release g i m => if g = gid ∧ i = inst then some (x, m) else none
    | _ => none
/-- CMAXB_RELEASE (15 R330): the origin router writes the maximum into its member's area and ends the park, or keeps it for
a contribution that has not arrived. It is held while its member's core is being migrated (17 R363). -/
def execCmaxbRelease (id : Nat) (s : State) : Out :=
  match s.flight? id with
  | some { pkt := .cmaxRelease member q gid inst v, .. } =>
    if (s.core (s.forwarded member)).moving then .next s else
    match (s.router member).areas.find? fun c => c.same q gid inst with
    | none => .next ((s.drop id).modRouter member fun r => { r with kept := (q, gid, inst, v) :: r.kept })
    | some c => match s.writeMax (.msg id) c v with
      | .busy s => .next s
      | .done s _ =>
        let s := (s.drop id).modRouter member fun r => { r with areas := r.areas.filter fun a => !a.same q gid inst }
        let core := s.forwarded member
        match (s.core core).parkedFor gid inst with
        | some (x, m) => .next (s.retireAt core x m)
        | none => .next s
  | _ => .next s

end Sys2Proof.Machine
end

