-- ==== Sys2Proof/Machine/VecInt.lean ====
section
/-! DEFINITION. Vector integer operations (12 R249): lanes of e bytes, modulo 2^(8e), under a mask. -/

namespace Sys2Proof.Machine

/-- A lane-wise operation on two vectors; it completes at once (12 R248). -/
def State.laneOp (s : State) (m : Bool) (d a b : BitVec 5) (e : Nat) (k : BitVec 3) (f : Nat → Nat → Nat) : Out :=
  s.finishV m d (lanes e (s.kreg k) (s.vreg d) fun L => f (lane e (s.vreg a) L) (lane e (s.vreg b) L))

/-- Signed order of e-byte lanes. -/
def laneLt (e x y : Nat) : Bool := decide (signedOf (8 * e) x < signedOf (8 * e) y)

/-- vadd (12 R249). -/
def execVadd (m : Bool) (d a b : BitVec 5) (t : BitVec 2) (k : BitVec 3) (s : State) : Out :=
  s.laneOp m d a b (intBytes t) k fun x y => x + y
/-- vsub (12 R249). -/
def execVsub (m : Bool) (d a b : BitVec 5) (t : BitVec 2) (k : BitVec 3) (s : State) : Out :=
  s.laneOp m d a b (intBytes t) k fun x y => x + (2 ^ (8 * intBytes t) - y)
/-- vmul (12 R249). -/
def execVmul (m : Bool) (d a b : BitVec 5) (t : BitVec 2) (k : BitVec 3) (s : State) : Out :=
  s.laneOp m d a b (intBytes t) k fun x y => x * y
/-- vmin (12 R249). -/
def execVmin (m : Bool) (d a b : BitVec 5) (t : BitVec 2) (k : BitVec 3) (s : State) : Out :=
  s.laneOp m d a b (intBytes t) k fun x y => if laneLt (intBytes t) y x then y else x
/-- vmax (12 R249). -/
def execVmax (m : Bool) (d a b : BitVec 5) (t : BitVec 2) (k : BitVec 3) (s : State) : Out :=
  s.laneOp m d a b (intBytes t) k fun x y => if laneLt (intBytes t) x y then y else x
/-- vand (12 R249). -/
def execVand (m : Bool) (d a b : BitVec 5) (t : BitVec 2) (k : BitVec 3) (s : State) : Out :=
  s.laneOp m d a b (intBytes t) k fun x y => x &&& y
/-- vor (12 R249). -/
def execVor (m : Bool) (d a b : BitVec 5) (t : BitVec 2) (k : BitVec 3) (s : State) : Out :=
  s.laneOp m d a b (intBytes t) k fun x y => x ||| y
/-- vxor (12 R249). -/
def execVxor (m : Bool) (d a b : BitVec 5) (t : BitVec 2) (k : BitVec 3) (s : State) : Out :=
  s.laneOp m d a b (intBytes t) k fun x y => x ^^^ y
/-- vsll (12 R249). -/
def execVsll (m : Bool) (d a b : BitVec 5) (t : BitVec 2) (k : BitVec 3) (s : State) : Out :=
  s.laneOp m d a b (intBytes t) k fun x y => x <<< (y % (8 * intBytes t))
/-- vsrl (12 R249). -/
def execVsrl (m : Bool) (d a b : BitVec 5) (t : BitVec 2) (k : BitVec 3) (s : State) : Out :=
  s.laneOp m d a b (intBytes t) k fun x y => x >>> (y % (8 * intBytes t))
/-- vsra (12 R249). -/
def execVsra (m : Bool) (d a b : BitVec 5) (t : BitVec 2) (k : BitVec 3) (s : State) : Out :=
  s.laneOp m d a b (intBytes t) k fun x y => ((BitVec.ofNat (8 * intBytes t) x).sshiftRight (y % (8 * intBytes t))).toNat

end Sys2Proof.Machine
end

