-- ==== Sys2Proof/Machine/VecFloat.lean ====
section
/-! DEFINITION. Vector floating-point operations (12 R250 to R255): exact results rounded once under RMODE, with SR as RNE (02
R53, R57). -/

namespace Sys2Proof.Machine

/-- Rounds an exact value to a float type under the context's mode. -/
def State.toFloat (s : State) (t : BitVec 2) (v : FVal) : Nat := (fltFmt t).encode .ieee s.me.rm v

/-- vfadd (12 R250). -/
def execVfadd (m : Bool) (d a b : BitVec 5) (t : BitVec 2) (k : BitVec 3) (s : State) : Out :=
  s.laneOp m d a b (fltBytes t) k fun x y => s.toFloat t (((fltFmt t).decode x).add s.me.rm ((fltFmt t).decode y))
/-- vfsub (12 R250). -/
def execVfsub (m : Bool) (d a b : BitVec 5) (t : BitVec 2) (k : BitVec 3) (s : State) : Out :=
  s.laneOp m d a b (fltBytes t) k fun x y => s.toFloat t (((fltFmt t).decode x).add s.me.rm ((fltFmt t).decode y).neg)
/-- vfmul (12 R250). -/
def execVfmul (m : Bool) (d a b : BitVec 5) (t : BitVec 2) (k : BitVec 3) (s : State) : Out :=
  s.laneOp m d a b (fltBytes t) k fun x y => s.toFloat t (((fltFmt t).decode x).mul ((fltFmt t).decode y))

/-- A fused multiply-add lane: c + x·y, or c − x·y, rounded once (12 R250). -/
def State.fusedLane (s : State) (t : BitVec 2) (neg : Bool) (c x y : Nat) : Nat :=
  let p := ((fltFmt t).decode x).mul ((fltFmt t).decode y)
  s.toFloat t (((fltFmt t).decode c).add s.me.rm (if neg then p.neg else p))
/-- vfma (12 R250). -/
def execVfma (m : Bool) (d a b : BitVec 5) (t : BitVec 2) (k : BitVec 3) (s : State) : Out :=
  let e := fltBytes t
  s.finishV m d (lanes e (s.kreg k) (s.vreg d) fun L =>
    s.fusedLane t false (lane e (s.vreg d) L) (lane e (s.vreg a) L) (lane e (s.vreg b) L))
/-- vfnma (12 R250). -/
def execVfnma (m : Bool) (d a b : BitVec 5) (t : BitVec 2) (k : BitVec 3) (s : State) : Out :=
  let e := fltBytes t
  s.finishV m d (lanes e (s.kreg k) (s.vreg d) fun L =>
    s.fusedLane t true (lane e (s.vreg d) L) (lane e (s.vreg a) L) (lane e (s.vreg b) L))
/-- vfmin (12 R251). -/
def execVfmin (m : Bool) (d a b : BitVec 5) (t : BitVec 2) (k : BitVec 3) (s : State) : Out :=
  s.laneOp m d a b (fltBytes t) k fun x y => (fltFmt t).pick false x y
/-- vfmax (12 R251). -/
def execVfmax (m : Bool) (d a b : BitVec 5) (t : BitVec 2) (k : BitVec 3) (s : State) : Out :=
  s.laneOp m d a b (fltBytes t) k fun x y => (fltFmt t).pick true x y
/-- vfabs (12 R250). -/
def execVfabs (m : Bool) (d a : BitVec 5) (t : BitVec 2) (k : BitVec 3) (s : State) : Out :=
  s.laneOp m d a a (fltBytes t) k fun x _ => s.toFloat t ((fltFmt t).decode x).abs
/-- vfneg (12 R250). -/
def execVfneg (m : Bool) (d a : BitVec 5) (t : BitVec 2) (k : BitVec 3) (s : State) : Out :=
  s.laneOp m d a a (fltBytes t) k fun x _ => s.toFloat t ((fltFmt t).decode x).neg

/-- A lane-wise operation on one vector whose result returns later (03 R66). -/
def State.laneResult (s : State) (m : Bool) (d a : BitVec 5) (e : Nat) (k : BitVec 3) (f : Nat → Nat) : Out :=
  .next (s.issueResult m [.vec d.toNat (lanes e (s.kreg k) 0 fun L => f (lane e (s.vreg a) L)) (laneBits e (s.kreg k))])
/-- vfrcp (12 R252): RNE whatever RMODE holds. -/
def execVfrcp (m : Bool) (d a : BitVec 5) (t : BitVec 2) (k : BitVec 3) (s : State) : Out :=
  s.laneResult m d a (fltBytes t) k fun x => (fltFmt t).rcp .rne ((fltFmt t).decode x)
/-- vfrsqrt (12 R252). -/
def execVfrsqrt (m : Bool) (d a : BitVec 5) (t : BitVec 2) (k : BitVec 3) (s : State) : Out :=
  s.laneResult m d a (fltBytes t) k fun x => (fltFmt t).rsqrt .rne ((fltFmt t).decode x)
/-- vfexp2 (12 R252). -/
def execVfexp2 (m : Bool) (d a : BitVec 5) (t : BitVec 2) (k : BitVec 3) (s : State) : Out :=
  s.laneResult m d a (fltBytes t) k fun x => (fltFmt t).exp2 .rne ((fltFmt t).decode x)

/-- vscale's exponent: beyond ±4,096 every format's result is the same as at the bound. -/
def scaleExp (e y : Nat) : Int := max (-4096) (min 4096 (signedOf (8 * e) y))
/-- vscale (12 R253). -/
def execVscale (m : Bool) (d a b : BitVec 5) (t : BitVec 2) (k : BitVec 3) (s : State) : Out :=
  s.laneOp m d a b (fltBytes t) k fun x y => s.toFloat t (((fltFmt t).decode x).scale (scaleExp (fltBytes t) y))

/-- A lane-wise comparison into a mask register (12 R254). -/
def State.compare (s : State) (m : Bool) (d : BitVec 3) (a b : BitVec 5) (t : BitVec 2) (k : BitVec 3) (c : VCmp) : Out :=
  let e := fltBytes t
  s.finishK m d (maskResult (64 / e) (s.kreg k) (s.kreg d) fun L =>
    c.holds ((fltFmt t).decode (lane e (s.vreg a) L)) ((fltFmt t).decode (lane e (s.vreg b) L)))
/-- vcmp.eq (12 R254). -/
def execVcmpEq (m : Bool) (d : BitVec 3) (a b : BitVec 5) (t : BitVec 2) (k : BitVec 3) (s : State) : Out := s.compare m d a b t k .eq
/-- vcmp.lt (12 R254). -/
def execVcmpLt (m : Bool) (d : BitVec 3) (a b : BitVec 5) (t : BitVec 2) (k : BitVec 3) (s : State) : Out := s.compare m d a b t k .lt
/-- vcmp.le (12 R254). -/
def execVcmpLe (m : Bool) (d : BitVec 3) (a b : BitVec 5) (t : BitVec 2) (k : BitVec 3) (s : State) : Out := s.compare m d a b t k .le
/-- vcmp.ne (12 R254). -/
def execVcmpNe (m : Bool) (d : BitVec 3) (a b : BitVec 5) (t : BitVec 2) (k : BitVec 3) (s : State) : Out := s.compare m d a b t k .ne

/-- vsel (12 R255): the mask selects, and every lane is written. -/
def execVsel (m : Bool) (d a b : BitVec 5) (t : BitVec 2) (k : BitVec 3) (s : State) : Out :=
  s.finishV m d (lanes (fltBytes t) (s.kreg k) (s.vreg b) fun L => lane (fltBytes t) (s.vreg a) L)

end Sys2Proof.Machine
end

