-- ==== Sys2Proof/Machine/Convert.lean ====
section
/-! DEFINITION. Conversions (12 R262 to R266): results that return later. -/

namespace Sys2Proof.Machine

/-- The rounding mode number of a conversion: field 0 takes RMODE (12 R262). -/
def State.convMode (s : State) (r : BitVec 2) : Nat :=
  match r.toNat with
  | 0 => s.me.rmode.toNat
  | 1 => 0
  | 2 => 1
  | _ => 4
/-- The LFSR state met by element j: one step for each element before it (02 R55). -/
def lfsrAt (l : BitVec 32) : Nat → BitVec 32
  | 0 => l
  | n + 1 => lfsrNext (lfsrAt l n)
/-- Rounding of element j. -/
def State.convRm (s : State) (r : BitVec 2) (j : Nat) : Rm := Rm.ofMode (s.convMode r) (lfsrAt s.me.lfsr j).toNat
/-- Issues a conversion's vectors; under SR the LFSR advances once for each of its n elements. -/
def State.convert (s : State) (m : Bool) (r : BitVec 2) (n : Nat) (ws : List RegWrite) : Out :=
  let l := lfsrAt s.me.lfsr n
  .next ((if s.convMode r = 4 then s.modMe fun y => { y with lfsr := l } else s).issueResult m ws)

/-- vcvt (12 R263): a narrowing conversion clears the lanes above those it converts. -/
def execVcvt (m : Bool) (d a g : BitVec 5) (r : BitVec 2) (k : BitVec 3) (c : BitVec 5) (s : State) : Out :=
  let es := elemBytes c.toNat
  let ed := elemBytes g.toNat
  let n := 64 / max es ed
  let out (L : Nat) : Nat :=
    if n ≤ L then 0 else codeEncode g.toNat (s.convRm r L) (codeValue c.toNat (lane es (s.vreg a) L))
  let k := s.kreg k
  let writes : Word := BitVec.ofNat 64 (packLanes 1 (fun L => if L < n then (k.getLsbD L).toNat else 1) 64)
  s.convert m r n [.vec d.toNat (lanes ed writes 0 out) (laneBits ed writes)]

/-- Source element j of a 32-element block: FP32 takes two registers (12 R265). -/
def State.blockSource (s : State) (a : BitVec 5) (c : Nat) (j : Nat) : FVal :=
  let e := elemBytes c
  codeValue c (lane e (s.me.vec (a.toNat + j / (64 / e))) (j % (64 / e)))
/-- The block image of codes under a scale (12 R264). -/
def blockImage (f s : Nat) (q : Nat → Nat) : Vec :=
  if f = 16 then BitVec.ofNat 512 (ec8Pack s ((List.range 32).map q))
  else BitVec.ofNat 512 (packLanes (mxBits f) q 32 + s * 2 ^ 256)
/-- vquant (12 R265): bytes 60 to 63 of vd hold a scale hint. -/
def execVquant (m : Bool) (d a g : BitVec 5) (r : BitVec 2) (k : BitVec 3) (c : BitVec 5) (s : State) : Out :=
  let f := g.toNat
  let x (j : Nat) : FVal := if (s.kreg k).getLsbD j then s.blockSource a c.toNat j else .zero
  let hint := (fp32.decode (lane 4 (s.vreg d) 15)).abs
  let sc := chooseScale f ((List.range 32).map x ++ [hint])
  s.convert m r 32 [.vec d.toNat (blockImage f sc fun j => mxConvert f sc (s.convRm r j) (x j)) (BitVec.allOnes 512)]

/-- The value of element j of a block image (12 R266). -/
def imageValue (f : Nat) (img : Vec) (j : Nat) : FVal :=
  if f = 16 then applyScale (img.toNat % 256) (mxElem 16 ((ec8Codes (img.toNat % 2 ^ 224)).getD j 0))
  else applyScale (bitsOf img.toNat 256 8) (mxElem f (bitsOf img.toNat (mxBits f * j) (mxBits f)))
/-- vdequant (12 R266): an FP32 target takes two registers. -/
def execVdequant (m : Bool) (d a g : BitVec 5) (r : BitVec 2) (k : BitVec 3) (c : BitVec 5) (s : State) : Out :=
  let e := elemBytes g.toNat
  let n := 64 / e
  let img := s.vreg a
  let out (j : Nat) : Nat := codeEncode g.toNat (s.convRm r j) (imageValue c.toNat img j)
  let half (i : Nat) : RegWrite :=
    .vec (d.toNat + i) (lanes e (s.kreg k >>> (n * i)) 0 fun L => out (n * i + L)) (laneBits e (s.kreg k >>> (n * i)))
  s.convert m r 32 (if e = 4 then [half 0, half 1] else [half 0])

end Sys2Proof.Machine
end

