-- ==== Sys2Proof/Machine/Translation.lean ====
section
/-! DEFINITION. tlbfill, tlbprobe, pblock and punblock (04 R91 to R98, R102 to R106), and what happens to the accesses of a page
that is not OPEN (04 R102, R103). -/

namespace Sys2Proof.Machine

/-! ### tlbfill (04 R91 to R93) -/

/-- Doubleword w of an entry's image. -/
def entWord (v : Vec) (w : Nat) : Word := v.extractLsb' (64 * w) 64
/-- TARGET of an image. -/
def entTarget (v : Vec) : Nat := fld (entWord v 2) 38 13
/-- NSRC of an image. -/
def entNsrc (v : Vec) : Nat := fld (entWord v 3) 0 3
/-- Whether the image of an entry with V = 1 is well formed for an issuer (04 R91). -/
def entOk (v : Vec) (issuer : Nat) : Bool :=
  let w (i : Nat) : Word := entWord v i
  let size := fld (w 0) 60 3
  let low := 2 ^ pageBits size
  decide (size ≤ 4) && fld (w 0) 55 5 == 0 && fld (w 0) 0 12 == 0 && fld (w 0) 0 56 % low == 0 &&
    fld (w 1) 56 8 == 0 && fld (w 1) 0 12 == 0 && fld (w 1) 0 56 % low == 0 &&
    fld (w 2) 51 13 == 0 && fld (w 2) 4 4 == 0 && decide (fld (w 2) 8 2 ≠ 3) &&
    ((w 2).getLsbD 3 || fld (w 2) 28 10 == fld (w 2) 18 10) && clusterOf (entTarget v) == clusterOf issuer &&
    fld (w 3) 3 61 == 0 && decide (entNsrc v ≤ 4) &&
    [4, 5, 6, 7].all fun i => fld (w i) 56 8 == 0 && fld (w i) 0 7 == 0 && (decide (i < 4 + entNsrc v) || decide (w i = 0))
/-- A class from its code (04 R91). -/
def Cls.ofCode (n : Nat) : Cls := match n with | 0 => .tracked | 1 => .stamped | _ => .untracked
/-- The entry of an image. -/
def entOf (v : Vec) : TlbEnt :=
  let w (i : Nat) : Word := entWord v i
  { vpn := fld (w 0) 12 44, size := fld (w 0) 60 3, pfn := fld (w 1) 12 44, xwr := (w 2).setWidth 3, sup := (w 2).getLsbD 3,
    cls := Cls.ofCode (fld (w 2) 8 2), vcid := fld (w 2) 10 8, domain := fld (w 2) 18 10, key := fld (w 2) 28 10,
    srcs := (List.range (entNsrc v)).map fun i => fld (w (4 + i)) 0 42 / 128 }
/-- Whether a home holds a write of a unit, or is invalidating translations for one (04 R92, R95 steps 1 to 4). -/
def State.writeHeld (s : State) (h : HomeUnit) : Bool :=
  (match h.busy with
    | some (.own _ _ want) => decide (want = .m)
    | none => false) || !h.tacks.isEmpty || h.queue.any fun p => p.2 && s.waits p.1
/-- RegisterTSharer (04 R92): the home of the issuer's copy records TARGET, unless it holds a write to the unit. -/
def State.registerTShare (s : State) (issuer target : Nat) (pa : Nat) : Option State :=
  let u := pa % 2 ^ 42 / 128
  match (s.core issuer).copy? u .tracked with
  | none => none
  | some cp =>
    let h := s.home cp.vcid u
    if pa / 2 ^ 42 = s.devNum ∧ lists h.sharers issuer ∧ !s.writeHeld h then
      some (s.modHome cp.vcid u fun h => { h with tshare := addSharer h.tshare target })
    else none
/-- Registers sources in order; false when one fails, and what was registered before it stays (04 R93). -/
def State.registerAll (s : State) (issuer target : Nat) : List Nat → State × Bool
  | [] => (s, true)
  | pa :: l => match s.registerTShare issuer target pa with
    | some s => s.registerAll issuer target l
    | none => (s, false)
/-- The request of a core with a tag. -/
def Core.xreq? (k : Core) (tag : Nat) : Option XReq := k.xreqs.find? fun r => r.tag == tag && r.refusal.isNone
def Core.dropXreq (k : Core) (tag : Nat) : Core := { k with xreqs := k.xreqs.filter fun r => r.tag != tag }
/-- The context that a request parks, if it is one (04 R88): that of an access, also of one that is replayed. -/
def XReq.ctx? (r : XReq) : Option Nat := match r.agent with | 0 => some r.slot | 4 => some (r.slot % 16) | _ => none
/-- A fill wakes the parked access, which translates again (04 R90). -/
def State.wakeXlate (s : State) (c tag : Nat) : State :=
  match (s.core c).xreq? tag with
  | none => s
  | some r =>
    let s := s.modCore c fun k => k.dropXreq tag
    match r.ctx? with
    | some x => if (s.ctx c x).wait = .xlate tag then s.modCtx c x Ctx.wake else s
    | none => s
/-- A refusal gives the access its remote fault (04 R90). A halted context meets it when it has resumed and asked again; an
agent that is no context finds it at its next turn. -/
def State.refuseXlate (s : State) (c tag : Nat) (cause : Cause) (info : BitVec 32) : State :=
  match (s.core c).xreq? tag with
  | none => s
  | some r =>
    let f : FaultInfo := { cause := cause, info := info, addr := r.va, undeliv := false }
    if r.agent ≠ 0 then
      let s := s.modCore c fun k => { k with xreqs := k.xreqs.map fun q => if q.tag = tag then { q with refusal := some f } else q }
      match r.ctx? with
      | some x => if (s.ctx c x).wait = .xlate tag then s.modCtx c x Ctx.wake else s
      | none => s
    else
      let s := s.modCore c fun k => k.dropXreq tag
      let y := s.ctx c r.slot
      if y.wait = .xlate tag then
        if y.st = .halted then s.modCtx c r.slot fun y => { y with wait := .none }
        else s.raiseFault c r.slot { f := f, pc := y.pc, seq := y.seq, deferred := false, rep := y.rep }
      else s
/-- The cause that FCAUSE names (04 R91). -/
def refusalCause (n : Nat) : Option Cause :=
  match n with
  | 0x21 => some .priv
  | 0x23 => some .range
  | 0x24 => some .xlate
  | 0x25 => some .vcFault
  | _ => none
/-- TlbFill (04 R93): the state after it and the status. -/
def State.tlbFill (s : State) (issuer : Nat) (v : Vec) (tag : Nat) (wake : Bool) : State × Nat :=
  let t := entTarget v
  if !(entWord v 0).getLsbD 63 then
    match refusalCause (fld (entWord v 0) 0 8) with
    | none => (s, 2)
    | some c =>
      if clusterOf t ≠ clusterOf issuer then (s, 2)
      else (if wake then s.refuseXlate t tag c ((entWord v 1).setWidth 32) else s, 3)
  else if !entOk v issuer then (s, 2)
  else match s.registerAll issuer t ((List.range (entNsrc v)).map fun i => fld (entWord v (4 + i)) 0 56) with
    | (s, false) => (s, 1)
    | (s, true) =>
      let s := s.modCore t fun k => k.installTlb (entOf v)
      (if wake then s.wakeXlate t tag else s, 0)
/-- tlbfill (04 R93). -/
def execTlbfill (m : Bool) (a b : BitVec 5) (s : State) : Out :=
  let w := s.reg b
  runM (do
    supervisorM
    modM fun s =>
      let (t, n) := s.tlbFill s.curCore (s.vreg a) (fld w 0 16) (w.getLsbD 16)
      (t.setReg b (BitVec.ofNat 64 n)).retire m) s

/-! ### tlbprobe (04 R98) -/

/-- The result word of a probe that found an entry. -/
def TlbEnt.probeWord (e : TlbEnt) (inL1 gone : Bool) : Word :=
  BitVec.ofNat 64 (e.xwr.toNat + e.sup.toNat * 2 ^ 3 + e.cls.code * 2 ^ 10 + e.pfn % 2 ^ 44 * 2 ^ 12 + e.size % 8 * 2 ^ 57
    + gone.toNat * 2 ^ 60 + e.srcs.isEmpty.toNat * 2 ^ 61 + inL1.toNat * 2 ^ 62 + 2 ^ 63)
/-- Searches both TLBs of a core for a domain, and removes what matched when asked. -/
def State.tlbProbe (s : State) (c domain va : Nat) (inv : Bool) : State × Word :=
  let k := s.core c
  let hit (e : TlbEnt) : Bool := e.covers va && e.domain == domain
  let in1 := k.l1tlb.any hit
  match (k.l1tlb ++ k.l2tlb).find? hit with
  | none => (s, 0)
  | some e =>
    (if inv then s.modCore c fun k => { k with l1tlb := k.l1tlb.filter fun e => !hit e, l2tlb := k.l2tlb.filter fun e => !hit e } else s,
      e.probeWord in1 inv)
/-- tlbprobe (04 R98): a result of variable latency. -/
def execTlbprobe (m : Bool) (a b : BitVec 5) (s : State) : Out :=
  let w := s.reg a
  let va := (ptrVa (s.reg b)).toNat
  let c := fld w 0 13
  runM (do
    supervisorM
    modM fun s =>
      let d := s.dst a
      let (t, r) := if clusterOf c = clusterOf s.curCore then s.tlbProbe c (fld w 16 10) va (w.getLsbD 32) else (s, 0)
      t.issueResult m [.scalar d r]) s

/-! ### pblock and punblock (04 R102 to R105) -/

/-- A page operand checked: base within local HBM. Its bits [63:56], of which the spec says nothing, are ignored (04 R105; assumption 74,
DESIGN CHOICE, unsafe). -/
def pageM (w : Word) (size : Nat) : M Nat := do
  let pa := w.toNat % 2 ^ 56
  if 4 < size ∨ (pa - pa % 8) % 2 ^ pageBits size ≠ 0 then faultM .misalign 0 (ptrVa w)
  else
    let dev ← getM State.devNum
    let base := pa - pa % 8
    if base / 2 ^ 42 ≠ dev ∨ 2 ^ 40 ≤ base % 2 ^ 42 then faultM .xlate 0 (ptrVa w)
    else return base % 2 ^ 42
/-- A page becomes BLOCKED: stamped waiters of its units move to its queue (04 R102, R103). The table has no row for pblock of a REPLAYING
page: it changes nothing, as at a BLOCKED one (assumption 59, DESIGN CHOICE, unsafe). -/
def State.blockPage (s : State) (base size : Nat) : State :=
  if (s.page? base size).isSome then s else
  let p : PageBlk := { base := base, size := size, st := .blocked, queue := [], slots := [], moved := [] }
  let hit (w : StWaiter) : Bool := p.has (128 * (w.unit / 256))
  let move (st : State × List Nat) (w : StWaiter) : State × List Nat :=
    let id := st.1.nextId
    let s := match w.remote with
      | none => st.1.send (.stRead w.core w.op (w.unit / 256))
      | some q => st.1.send (.pktIn q)
    (s, st.2 ++ [id])
  let ws := s.stWaiters.filter hit
  let (s, ids) := ws.foldl move ({ s with stWaiters := s.stWaiters.filter fun w => !hit w }, [])
  (s.holdAll ids .queued).setPage { p with queue := ids, moved := ids }
/-- The old page opens: its queued accesses return to their requesters (04 R102). -/
def State.returnQueue (s : State) (base size : Nat) : State × List Nat :=
  match s.page? base size with
  | some p => if p.st = .blocked then ((s.holdAll p.queue .replay).dropPage p, p.queue) else (s, [])
  | none => (s, [])
/-- punblock (04 R102, R105). For a page named as both old and new two rows of the table apply: it becomes REPLAYING, with its own queue as
its replay slots (assumption 59, DESIGN CHOICE, unsafe). -/
def State.unblock (s : State) (old new size : Nat) : State :=
  let (s, slots) := s.returnQueue old size
  if old = new then
    if slots.isEmpty then s
    else s.setPage { base := new, size := size, st := .replaying, queue := [], slots := slots, moved := [] }
  else match s.page? new size with
    | some p => if p.st = .blocked then s.startReplay p slots else s
    | none => s
/-- pblock (04 R105). -/
def execPblock (m : Bool) (a : BitVec 5) (s : State) : Out :=
  let w := s.reg a
  let size := fld w 0 3
  runM (do
    supervisorM
    allDoneM
    let base ← pageM w size
    modM fun s => s.blockPage base size
    retireM m) s
/-- punblock (04 R105). -/
def execPunblock (m : Bool) (a b : BitVec 5) (s : State) : Out :=
  let w := s.reg a
  let v := s.reg b
  let size := fld w 0 3
  runM (do
    supervisorM
    allDoneM
    let old ← pageM w size
    let new ← pageM v size
    modM fun s => s.unblock old new size
    retireM m) s

/-! ### Accesses at pages that are not OPEN (04 R102, R103) -/

/-- The unit of this module that a message acts on. -/
def Pkt.unit? (p : Pkt) : Option Nat :=
  match p with
  | .ownReq u _ _ _ _ => some u
  | .stStore _ _ u => some u
  | .stRead _ _ u => some u
  | .writeBack _ _ u _ _ _ _ _ => some u
  | .copyTurn _ u _ => some u
  | .turn _ u => some u
  | .hostAcc addr _ _ => some (addr / 128)
  | .pktIn q => if q.opc < 6 then some (q.pa.toNat % 2 ^ 42 / 128) else none
  | _ => none
/-- Whether a message may act at its unit now: it is on its way, and its page is OPEN, it is the page's next slot, or it waits at the home
already. -/
def State.pageLets (s : State) (f : Flight) : Bool :=
  decide (f.hold = .flying) && (match f.pkt.unit? with
    | some u => match s.blockOf (128 * u) with
      | some p => (decide (p.st = .replaying) && p.slots.head? == some f.id) || s.cameTo (.msg f.id) u
      | none => true
    | none => true)
/-- A home has taken a request that it will serve: the slot that the request holds, if any, is settled when its access performs (04
R102). -/
def State.taken (s : State) (f : Flight) : State :=
  if s.pages.any fun p => p.slots.contains f.id then (s.setFlight { f with hold := .served }).settleSet f.id else s.acted f.id
/-- The slots of requests of a core for a unit, which have performed now. -/
def State.settleServed (s : State) (c vcid u : Nat) : State :=
  (s.net.filter fun f => decide (f.hold = .served) && (match f.pkt with
    | .ownReq u' v' _ c' _ => u' == u && v' == vcid && c' == c
    | _ => false)).foldl (fun s f => s.acted f.id) s
/-- Whether a message may act at a unit of a cache as far as a resize goes. One whose set waits to migrate is held, or refused when 64 are,
and is replayed in order when the set has migrated (05 R123); one that waits at the home already is not. -/
def State.setGate (s : State) (f : Flight) (vcid u : Nat) : State × Bool :=
  match s.setHold vcid u with
  | some h =>
    if s.cameTo (.msg f.id) u then (s, true)
    else if !h.moving then (s, s.setLets (.msg f.id) vcid u)
    else if 64 ≤ h.queue.length then (s.setFlight { f with hold := .refused }, false)
    else ({ s.setFlight { f with hold := .queued } with
      setHolds := mapIf (fun x => x == h) (fun x => { x with queue := x.queue ++ [f.id] }) s.setHolds }, false)
  | none => (s, true)
/-- Whether a message may act at its unit now: its page and its set let it. -/
def State.mayAct (s : State) (f : Flight) (vcid u : Nat) : State × Bool := if s.pageLets f then s.setGate f vcid u else (s, false)

/-- BLOCKED_PAGE_ACCESS (04 R102, R103): an access that arrives at a page that is not OPEN is queued, or refused when the queue
holds 64. -/
def execBlockedPageAccess (id : Nat) (s : State) : Out :=
  match s.flight? id with
  | some f =>
    if f.hold ≠ .flying then .next s else
    match f.pkt.unit? with
    | none => .next s
    | some u => match s.blockOf (128 * u) with
      | none => .next s
      | some p =>
        if p.slots.contains id || s.cameTo (.msg id) u then .next s
        else if 64 ≤ p.queue.length - p.moved.length then .next (s.setFlight { f with hold := .refused })
        else .next ((s.setFlight { f with hold := .queued }).setPage { p with queue := p.queue ++ [id] })
  | none => .next s

/-- Sends a refused packet again; its time starts anew (18 R377, 17 R365). -/
def State.resend (s : State) (p : Packet) : State :=
  let s : State := { s with fabReqs := mapIf (fun r => r.core == p.core && r.tag == p.tag && r.inc == p.inc) (fun r => { r with sentAt := s.clock }) s.fabReqs }
  s.transmit (p.pa.toNat / 2 ^ 42) p
/-- BACKOFF_RETRY (04 R103, 06 R149): a refused request is sent again. -/
def execBackoffRetry (id : Nat) (s : State) : Out :=
  match s.flight? id with
  | some f =>
    if f.hold ≠ .refused then .next s else
    match f.pkt with
    | .pktOut p _ _ => .next ((s.drop id).resend p)
    | _ => .next (s.setFlight { f with hold := .flying })
  | none => .next s

/-- The lanes of an operation that a returned message was for. -/
def replayLane (p : Pkt) (o : Op) (l : Lane) : Bool :=
  !l.done && (match p, l.place with
    | .ownReq u v _ _ _, .unit v' .tracked _ pa => pa / 128 == u && v == v'
    | .ownReq _ _ _ _ _, _ => false
    | .stStore _ op u, _ => o.id == op && l.homeUnit true == some u
    | .stRead _ op u, _ => o.id == op && l.homeUnit false == some u
    | _, _ => false)
/-- The core that a returned message belongs to. -/
def Pkt.replayCore (p : Pkt) : Nat :=
  match p with
  | .ownReq _ _ _ c _ => c
  | .stStore c _ _ => c
  | .stRead c _ _ => c
  | _ => 0
/-- The kind of access that a lane makes (04 R86). -/
def Lane.accOf (l : Lane) : Acc :=
  match l.op with
  | .read => .read
  | .chase _ _ _ => .read
  | .write _ _ => .write
  | .save _ _ => .write
  | .later => .write
  | _ => .atomic
/-- Where a lane goes under a new translation: of control space, a scalar load or store of 8 bytes reaches its register, and any other access
faults as it does at issue (01 R29, 04 R102). -/
def State.placeOf (s : State) (o : Op) (l : Lane) (t : Target) : Except FaultInfo Place :=
  match t with
  | .unit e pa => .ok (.unit e.vcid e.cls e.key pa)
  | .host _ pa => .ok (.hostw pa)
  | .remote e pa => .ok (.remote e.cls e.key pa)
  | .ctrl _ off =>
    if o.wide || !l.op.plain then .error (accFault .xlate 0 l.va)
    else if l.n ≠ 8 then .error (accFault .misalign 0 l.va)
    else if (s.ctrlCore off).any fun q => (windowCsr q.2).isNone then .error (accFault .xlate 0 l.va)
    else .ok (.ctrl off)
def Target.srcs (t : Target) : List Nat :=
  match t with
  | .unit e _ => e.srcs
  | .host e _ => e.srcs
  | .remote e _ => e.srcs
  | .ctrl e _ => e.srcs
/-- Performs the undone UNTRACKED lanes that satisfy a test, in the L1 or at their homes (06 R138). -/
def State.untrackedLanes (s : State) (w : Writer) (c : Nat) (o : Op) (p : Nat → Lane → Bool) : List Lane → AtHome (List Lane × Option FaultInfo)
  | [] => .done s ([], none)
  | l :: ls =>
    let one : AtHome (Lane × Option FaultInfo) := match l.place with
      | .unit v .untracked key pa => if !l.done && decide (l.op ≠ .later) && p (pa / 128) l then s.untrackedLane w c o.ctx l v key pa else .done s (l, none)
      | _ => .done s (l, none)
    match one with
    | .busy s => .busy s
    | .done s (l, f) => match s.untrackedLanes w c o p ls with
      | .busy s => .busy s
      | .done s (ls, g) => .done s (l :: ls, o.lower f g)
/-- The lanes that now stand at registers of control space perform there. -/
def State.ctrlLanes (s : State) : List Lane → State × List Lane
  | [] => (s, [])
  | l :: ls =>
    let (s, l) := match l.place with
      | .ctrl _ => s.storageLane l
      | _ => (s, l)
    let (s, ls) := s.ctrlLanes ls
    (s, l :: ls)
/-- A replayed access that misses both TLBs parks its context, unless the context waits already (04 R88). -/
def State.parkReplay (s : State) (c x slot : Nat) (va : Addr) : State :=
  let y := s.ctx c x
  match (s.core c).xreqs.find? fun r => r.agent == 4 && r.slot == slot && r.va == va with
  | some r => if y.wait = .none ∧ y.st ≠ .dormant ∧ y.st ≠ .halted then s.modCtx c x fun y => { y with st := .parked, wait := .xlate r.tag } else s
  | none => s
/-- What an access that is replayed finds: it still waits for its translation, or its lanes stand at their new places, or the
translation fails and the access faults. -/
def State.replayLanes (s : State) (id c : Nat) (o : Op) : List Lane → AtHome (Except FaultInfo (List Lane))
  | [] => .done s (.ok [])
  | l :: ls =>
    match s.engineXlateAt o.pc c (s.core c).domain 4 (o.ctx + 16 * id) o.sup l.accOf l.va with
    | (.wait, s) => .busy (s.parkReplay c o.ctx (o.ctx + 16 * id) l.va)
    | (.bad f, s) => .done s (.error f)
    | (.hit t, s) => match s.placeOf o l t with
      | .error f => .done s (.error f)
      | .ok p => if s.placeHeld p l.n then .busy s else match s.replayLanes id c o ls with
        | .done s (.ok ls) => .done s (.ok ({ l with place := p, srcs := t.srcs } :: ls))
        | r => r
/-- Replays the lanes of one operation that a message was for: true when its new place is a unit of the page that holds the
message's slot, in the class the message is for. -/
def State.replayOp (s : State) (f : Flight) (c : Nat) (o : Op) : AtHome (Option Pkt) :=
  let mine := o.lanes.filter (replayLane f.pkt o)
  match s.replayLanes f.id c o mine with
  | .busy s => .busy s
  | .done s (.error e) =>
    .done (s.setOp c { o with fault := some e, lanes := o.lanes.map fun l => { l with done := true } }) none
  | .done s (.ok ls) =>
    if (s.freeTags c ls.length).length < ls.length then .busy s else
    let here (pa : Nat) : Bool := match s.blockOf pa with
      | some p => p.slots.contains f.id
      | none => false
    let (s, ls) := s.ctrlLanes ls
    let o := { o with lanes := o.lanes.map fun l => (ls.find? fun m => m.ix == l.ix && replayLane f.pkt o l).getD l }
    let s := (s.setOp c o).sweep c
    match ls.filter fun l => !l.done with
    | [] => .done s none
    | l :: _ =>
      let again : Option Pkt := match f.pkt, l.place with
        | .ownReq _ _ _ _ x, .unit v .tracked key pa => if here pa then some (.ownReq (pa / 128) v key c x) else none
        | .ownReq _ _ _ _ _, _ => none
        | .stStore _ op _, .unit _ x _ pa => if x ≠ .tracked ∧ here pa then some (.stStore c op (pa / 128)) else none
        | .stRead _ op _, .unit _ x _ pa => if x ≠ .tracked ∧ here pa then some (.stRead c op (pa / 128)) else none
        | _, _ => none
      match again with
      | some p => .done s (some p)
      -- the access goes on as its new translation directs (04 R102)
      | none => .done (s.launchLanes c { o with lanes := ls } none (s.freeTags c ls.length)) none
/-- Replays every operation that a message was for; the message goes on when one of them still needs it. -/
def State.replayOps (s : State) (f : Flight) (c : Nat) : List Nat → Option Pkt → AtHome (Option Pkt)
  | [], p => .done s p
  | id :: ids, p => match (s.core c).op? id with
    | none => s.replayOps f c ids p
    | some o => match s.replayOp f c o with
      | .busy s => .busy s
      | .done s q => s.replayOps f c ids (p.or q)

/-- REPLAY_ACCESS (04 R102): a returned access is translated again. It takes its slot at the new page, or goes on where its new
translation directs, and then its slot is settled. A write-back and a packet name no VA of this module: they go on at their
own units, and so does an access of the host. The place of an agent that acts in one step is taken or given up when the agent goes on (09 R199). -/
def execReplayAccess (id : Nat) (s : State) : Out :=
  match s.flight? id with
  | some f =>
    if f.hold ≠ .replay then .next s else
    match f.pkt with
    | .writeBack _ _ _ _ _ _ _ _ => .next ((s.setFlight { f with hold := .flying }).settleSlot id)
    | .pktIn _ => .next ((s.setFlight { f with hold := .flying }).settleSlot id)
    | .hostAcc _ _ _ => .next ((s.setFlight { f with hold := .flying }).settleSlot id)
    | .copyTurn _ _ _ => .next s
    | .turn w _ => .next (if s.waits w then s else s.acted id)
    | _ =>
      let c := s.forwarded f.pkt.replayCore
      let ops := ((s.core c).ops.filter fun o => o.lanes.any (replayLane f.pkt o)).map fun o => o.id
      match s.replayOps f c ops none with
      | .busy s => .next s
      | .done s (some p) => .next (s.setFlight { f with hold := .flying, pkt := p })
      | .done s none => .next (s.acted id)
  | none => .next s

/-! ### Invalidating translations (04 R95) -/

/-- Whether a home that serves a request has everything it waits for. -/
def HomeUnit.ready (h : HomeUnit) : Bool := h.acks.isEmpty && h.tacks.isEmpty && !h.snoop

/-- TRANSLATION_INVALIDATION (04 R94, R95 step 3, R96): the core drops its entries and answers when the accesses made through them
have performed; one that holds none answers at once, and so does one that is being migrated (17 R363). -/
def execTranslationInvalidation (id : Nat) (s : State) : Out :=
  match s.flight? id with
  | some f => match f.pkt with
    | .tinv u vcid c removed =>
      if !removed && !(s.core c).derives u then .next ((s.drop id).send (.tinvAck u vcid c))
      else
        let s := s.modCore c fun k => k.dropDerived u
        if s.usesSource c u ∧ !(s.core c).moving then .next (s.setFlight { f with pkt := .tinv u vcid c true })
        else .next ((s.drop id).send (.tinvAck u vcid c))
    | _ => .next s
  | none => .next s

end Sys2Proof.Machine
end

