-- ==== Sys2Proof/Machine/HomeEvents.lean ====
section
/-! DEFINITION. What happens at homes and on the way to and from them: TRACKED requests, recalls and grants (06 R134), translation
invalidation (04 R95), STAMPED stores and reads (06 R143 to R151), UNTRACKED write-backs (06 R138), and the host's accesses and
answers (06 R137, 18 R366 to R370). -/

namespace Sys2Proof.Machine

/-! ### TRACKED requests (06 R134, R137; 18 R369) -/

/-- The home grants what it serves: M alone, E of a unit that was in I, else S. The grant takes the unit's data
along, and the home serves the next request when the grant has arrived. -/
def State.finishOwn (s : State) (vcid u : Nat) : State :=
  match (s.home vcid u).busy with
  | none => s
  | some (.own c key want) =>
    if !(s.home vcid u).ready || s.grantInFlight vcid u then s else
    let excl : Bool := decide (want = .m)
    let v := s.peekVc vcid u (if excl then none else some c)
    let s := s.modHome vcid u fun h => { h with
      dir := want
      sharers := if excl then [c] else addSharer h.sharers c
      tshare := if excl then [] else h.tshare }
    s.send (.grant u vcid key c want (v.under key).data (v.poisonFor key))
/-- What a request that is served obtains: M when it asks for it; a read E of a unit in I, and S otherwise (06 R134). -/
def HomeUnit.gives (h : HomeUnit) (want : Dir) : Dir := if want = .e ∧ h.dir ≠ .i then .s else want
/-- The home begins to serve a request, once the unit's line stands in its virtual cache, where it stays while an L1 holds the unit (05
R120): it invalidates other copies, recalls one held in M or E, and asks the host and the T-sharers. -/
def State.startOwn (s : State) (vcid u c key : Nat) (want : Dir) : AtHome Unit :=
  let excl : Bool := decide (want = .m)
  match s.fillFor vcid u (if excl then none else some c) false with
  | .busy s => .busy s
  | .done s _ =>
    let h := s.home vcid u
    let want := h.gives want
    let acks := if excl ∨ h.dir = .e ∨ h.dir = .m then (agents h.sharers).filter fun a => a != c && decide (a < 16384) else []
    let alone : Bool := decide (want ≠ .s)
    let snoop := h.asksHost alone
    let s := s.modHome vcid u fun h => { h with busy := some (.own c key want), acks := acks, snoop := h.snoop || snoop }
    let s := acks.foldl (fun s a => s.send (.recall u vcid a (excl || decide (h.dir = .m)))) s
    let s := if excl then s.askSharers vcid u else s
    let s := if snoop && !h.snoop then s.send (.bisnp u vcid alone) else s
    .done (s.finishOwn vcid u) ()
/-- An agent that held a unit gives it up (06 R135, R136). -/
def State.release (s : State) (vcid u a : Nat) : State := s.modHome vcid u fun h => h.leave a

/-- OWNERSHIP_REQUEST (06 R134): requests for one unit are served in arrival order, and one for ownership waits for a pin (06 R136). -/
def execOwnershipRequest (id : Nat) (s : State) : Out :=
  match s.flight? id with
  | some f => match f.pkt with
    | .ownReq u vcid key c want =>
      match s.mayAct f vcid u with
      | (s, false) => .next s
      | (s, true) =>
        let excl : Bool := decide (want = .m)
        let wait (s : State) : Out := .next (s.waitAt (.msg id) vcid u excl)
        if !s.homeFree (.msg id) vcid u excl || (excl && s.pinned vcid u) then wait s
        else match s.startOwn vcid u c key want with
          | .busy s => wait s
          | .done s _ => .next ((s.unwait (.msg id) vcid u).taken f)
    | _ => .next s
  | none => .next s

/-- RECALL (06 R134): an agent gives up its copy, or keeps it in S; modified data goes to the home with the answer. -/
def execRecallCopy (id : Nat) (s : State) : Out :=
  match s.flight? id with
  | some { pkt := .recall u vcid a inv, .. } =>
    let s := s.drop id
    if 8192 ≤ a then
      let s := s.modCore (a - 8192) fun k => { k with icache := k.icache.filter fun i => i.unit != u || decide (i.cls ≠ .tracked) }
      .next (s.send (.invAck u vcid a none))
    else match (s.core a).copy? u .tracked with
      | none => .next (s.send (.invAck u vcid a none))
      | some cp =>
        let data := if cp.st = .m then some (cp.key, cp.data, cp.poison) else none
        let s := s.modCore a fun k => if inv then k.dropCopy u .tracked
          else { k with l1 := mapIf (fun x => x.unit == u && decide (x.cls = .tracked)) (fun x => { x with st := .s }) k.l1 }
        .next (s.send (.invAck u vcid a data))
  | _ => .next s

/-- INVALIDATION_ACKNOWLEDGEMENT (06 R134): data it brings is in the unit before anything else; the last answer lets the home
grant. -/
def execInvalidationAcknowledgement (id : Nat) (s : State) : Out :=
  match s.flight? id with
  | some { pkt := .invAck u vcid a data, .. } =>
    let s := s.drop id
    let s := match data with
      | some (key, d, p) => s.writeBackUnit vcid key u d p
      | none => s
    let holds : Bool := if 8192 ≤ a then (s.core (a - 8192)).icache.any fun i => i.unit == u && decide (i.cls = .tracked)
      else ((s.core a).copy? u .tracked).isSome
    let s := s.modHome vcid u fun h =>
      let h := { h with acks := h.acks.filter fun x => x != a }
      if holds then { h with dir := .s } else h.leave a
    .next (s.finishOwn vcid u)
  | _ => .next s

/-- TRANSLATION_INVALIDATION_ACK (04 R95 steps 4 and 5). -/
def execTranslationInvalidationAck (id : Nat) (s : State) : Out :=
  match s.flight? id with
  | some { pkt := .tinvAck u vcid c, .. } =>
    let s := (s.drop id).modHome vcid u fun h =>
      let l := h.tacks.filter fun x => x != c
      { h with tacks := l, tshare := if l.isEmpty then [] else h.tshare }
    .next (s.finishOwn vcid u)
  | _ => .next s

/-- GRANT (06 R134): the copy arrives, the waiting accesses of the core perform, and the home may serve its next request. A core that had the
unit in M, and waited for translations to go, keeps what it wrote (04 R95). -/
def execGrant (id : Nat) (s : State) : Out :=
  match s.flight? id with
  | some { pkt := .grant u vcid key c st data poison, .. } =>
    let s := s.drop id
    let cp : Copy := { unit := u, vcid := vcid, cls := .tracked, key := key, st := st, data := data, stamp := 0, dirty := 0, writers := [],
                       poison := poison }
    let cp := match (s.core c).copy? u .tracked with
      | some old => if old.st = .m ∧ old.vcid = vcid ∧ old.key = key then { cp with data := old.data, poison := old.poison } else cp
      | none => cp
    .next ((((s.install c cp).pump 0 c u).modHome vcid u fun h => { h with busy := none }).settleServed c vcid u)
  | _ => .next s

/-- The domain whose key slot the host's accesses use (18 R367). -/
def State.hostDomain (s : State) : Nat := fld s.dev.hostcfg 0 10
/-- The host's answer to a back-invalidation (18 R369): it clears HOST, and modified data performs before the held request, as a write: the
device's copies and derived translations leave first, and a pin is waited for (06 R132, R136, R137, 04 R95). -/
def execBisnpResponse (id : Nat) (modified : Option Unit128) (s : State) : Out :=
  match s.flight? id with
  | some { pkt := .bisnp u vcid _, .. } =>
    match modified with
    | none =>
      let s := (s.drop id).modHome vcid u fun h => { h with host := false, hostDirty := false, snoop := false }
      .next (s.finishOwn vcid u)
    | some d =>
      let h := s.home vcid u
      if !h.tshare.isEmpty then .next (s.askSharers vcid u)
      else if s.pinned vcid u then .next s
      else
        let s := (agents h.sharers).foldl (fun s a => if a < 8192 then s.giveUp a u true
          else if a < 16384 then s.dropTrackedCode (a - 8192) u else s) s
        let s := (s.drop id).modHome vcid u fun h => { h with dir := .i, sharers := [], host := false, hostDirty := false, snoop := false }
        .next ((s.performAtHome vcid s.hostDomain u (fun _ => d) none true).finishOwn vcid u)
  | _ => .next s

/-! ### STAMPED stores and reads (06 R143 to R151) -/

/-- The core and home of STAMPED traffic. -/
def State.stampedRoute (s : State) (p : Pkt) : Option (Nat × Nat) :=
  let route (c op u : Nat) (w : Bool) : Option (Nat × Nat) := match (s.core (s.forwarded c)).op? op with
    | none => none
    | some o => o.lanes.findSome? fun l => match l.place with
      | .unit vcid .stamped _ pa => if pa / 128 = u ∧ l.op.writes = w then some (c, s.homeCore vcid u) else none
      | _ => none
  match p with
  | .stStore c op u => route c op u true
  | .stRead c op u => route c op u false
  | _ => none
/-- Whether no earlier STAMPED message of the same core to the same home is still on its way (06 R146). -/
def State.stampedNext (s : State) (f : Flight) : Bool :=
  match s.stampedRoute f.pkt with
  | none => true
  | some r => (s.net.takeWhile fun g => g.id != f.id).all fun g => decide (g.hold ≠ .flying) || decide (s.stampedRoute g.pkt ≠ some r)
/-- Whether two messages carry the accesses of one operation. -/
def Flight.mate (f g : Flight) : Bool :=
  match f.pkt, g.pkt with
  | .stStore c op _, .stStore c' op' _ => c == c' && op == op'
  | .stRead c op _, .stRead c' op' _ => c == c' && op == op'
  | _, _ => false
/-- Whether the other messages of a message's operation may act too: the access to an element in two units is one (08 R184), so that no
message of the operation goes before another. -/
def State.matesLet (s : State) (f : Flight) (o : Op) : Bool :=
  !o.joint || s.net.all fun g => !f.mate g ||
    (s.pageLets g && { s with net := s.net.filter fun h => h.id == g.id || !f.mate h }.stampedNext g)
/-- The lanes of an operation at a STAMPED unit. -/
def stampedLane (u : Nat) (w : Bool) (l : Lane) : Bool :=
  !l.done && l.op.writes == w && decide (l.op ≠ .later) && (match l.place with
    | .unit _ .stamped _ pa => pa / 128 == u
    | _ => false)
/-- The units of an operation's waiting STAMPED lanes, lowest first as it issued them. -/
def Op.stampedUnits (o : Op) (w : Bool) : List Nat :=
  unitsOf o.lanes fun l => match l.place with
    | .unit _ .stamped _ pa => if l.op.writes = w ∧ l.op ≠ .later then some (pa / 128) else none
    | _ => none
/-- The units that a message acts on: a joint access acts on both at once, when the lower one's message arrives (08 R184). -/
def Op.stampedReach (o : Op) (w : Bool) (u : Nat) : Option (List Nat) :=
  let us := o.stampedUnits w
  if !us.contains u then some [] else if o.joint then (if us.head? = some u then some us else none) else some [u]
/-- The virtual cache and key under which an operation uses a STAMPED unit. -/
def Op.stampedAt (o : Op) (u : Nat) : Nat × Nat :=
  match o.lanes.find? fun l => match l.place with
    | .unit _ .stamped _ pa => pa / 128 == u
    | _ => false with
  | some { place := .unit vcid _ key _, .. } => (vcid, key)
  | _ => (0, 0)
/-- Takes the units of a STAMPED write at their homes: TRACKED copies, T-sharers and the host's copy leave first (06 R137, R140,
04 R95). When one has to wait, the write keeps its place at every one. -/
def State.seizeStamped (s : State) (w : Writer) (o : Op) : List Nat → State × Bool
  | [] => (s, true)
  | u :: us => match s.seizeRaw w (o.stampedAt u).1 u true with
    | .busy s => (s, false)
    | .done t _ => match t.seizeStamped w o us with
      | (_, false) => ((s.seizeStamped w o us).1, false)
      | r => r
/-- What the lanes of a write make of a unit. -/
structure StoreSt where
  data : Unit128
  cover : Nat
  wrote : Bool
  save : Option Bool
  fault : Option FaultInfo
/-- One lane of a STAMPED write on its unit. -/
def storeLane (poison : Bool) (l : Lane) (a : StoreSt) : Lane × StoreSt :=
  match l.place with
  | .unit _ _ _ pa =>
    let r := l.on (pa % 128) a.data poison
    let full := match l.op with
      | .write _ m => m.toNat
      | _ => 2 ^ (8 * l.n) - 1
    (l.finish r.old, { a with
      data := r.new.getD a.data
      cover := if r.new.isSome then a.cover ||| (full <<< (8 * (pa % 128))) else a.cover
      wrote := a.wrote || r.new.isSome
      save := match l.op with
        | .save _ q => some q
        | _ => a.save
      fault := a.fault.or (if r.poison then some (accFault .poison 0 l.va) else none) })
  | _ => (l, a)
/-- The write of an operation at one unit of its home, with the stamp of its issue (06 R142, R143). An atomic finds its line as a write does
(assumption 71, DESIGN CHOICE, unsafe). -/
def State.storeUnit (s : State) (o : Op) (u : Nat) : State × Op :=
  let (vcid, key) := o.stampedAt u
  let v := s.baseVc vcid u
  let a0 : StoreSt := { data := (v.under key).data, cover := 0, wrote := false, save := none, fault := none }
  let (ls, a) := o.lanes.foldl (fun (st : List Lane × StoreSt) l =>
    if stampedLane u true l then let (l, a) := storeLane (v.poisonFor key) l st.2; (st.1 ++ [l], a) else (st.1 ++ [l], st.2)) ([], a0)
  let s := if a.wrote then s.performAtHome vcid key u (fun _ => a.data) (some o.iter) (a.cover == 2 ^ 1024 - 1) else s
  let s := if a.save = some true then s.writeVc vcid u { s.baseVc vcid u with poison := true } else s
  (s, { o with lanes := ls, fault := o.lower o.fault a.fault })

/-- The cache of an operation's UNTRACKED lanes that a message was sent for. -/
def Op.untrackedAt (o : Op) (w : Bool) (u : Nat) : Option Nat :=
  o.lanes.findSome? fun l => match l.place with
    | .unit vcid .untracked _ _ => if !l.done ∧ l.homeUnit w = some u then some vcid else none
    | _ => none
/-- An UNTRACKED access that its home has to answer performs (06 R138); one of two units acts on both at once (08 R184). A
prefetch faults on nothing (08 R180). -/
def State.untrackedArrives (s : State) (f : Flight) (c : Nat) (o : Op) (w : Bool) (u vcid : Nat) : State :=
  if !s.matesLet f o then s else
  match s.mayAct f vcid u with
  | (s, false) => s
  | (s, true) => match s.untrackedLanes (.msg f.id) c o (fun _ l => o.joint || l.homeUnit w == some u) o.lanes with
    | .busy s => s
    | .done s (ls, g) => ((s.setOp c { o with lanes := ls, fault := if o.fin = .none ∧ !o.isStore then o.fault else o.lower o.fault g }).sweep c).acted f.id
/-- STAMPED_STORE_AT_HOME (06 R143): the write performs at its home and is acknowledged. -/
def execStampedStoreAtHome (id : Nat) (s : State) : Out :=
  match s.flight? id with
  | some f => match f.pkt with
    | .stStore c op u =>
      let c := s.forwarded c
      match (s.core c).op? op with
      | none => .next (s.acted id)
      | some o => match o.untrackedAt true u with
        | some vcid => .next (s.untrackedArrives f c o true u vcid)
        | none => match o.stampedReach true u with
        | some [] => .next (s.acted id)
        | none => .next s
        | some us =>
          if !s.pageLets f || !s.stampedNext f || !s.matesLet f o then .next s
          else match s.setGate f (o.stampedAt u).1 u with
          | (s, false) => .next s
          | (s, true) => match s.seizeStamped (.msg id) o us with
            | (s, false) => .next s
            | (s, true) =>
              let (s, o) := us.foldl (fun (st : State × Op) u => st.1.storeUnit st.2 u) (s, o)
              .next (((s.setOp c o).sweep c).acted id)
    | _ => .next s
  | none => .next s

/-- The bank's waiters (06 R150). -/
def State.bankWaiters (s : State) (home : Nat) : Nat := (s.stWaiters.filter fun w => w.home == home).length
/-- A bounded read that its home refuses by a trap: its lanes end with their age (06 R149); an answer after cycle due is discarded (06
R151). -/
def State.lagAnswer (s : State) (c : Nat) (o : Op) (u : Nat) (g : BitVec 16) : State :=
  if o.due.any fun d => decide (d < s.clock) then s else
  s.setOp c { o with lagTrap := true, lanes := mapIf (stampedLane u false) (fun l => { l with done := true, age := some g }) o.lanes }
/-- The units of a STAMPED read may be read at their homes: writes that came before have performed, and the lines and the host's newer data
have come (06 R137, 05 R118, 04 R95). When one has to wait, the read keeps its place at every one. -/
def State.readUnits (s : State) (w : Writer) (c : Nat) (o : Op) : List Nat → AtHome Unit
  | [] => .done s ()
  | u :: us =>
    let vcid := (o.stampedAt u).1
    match s.plainGate w vcid u with
    | .busy s => .busy s
    | .done t _ => match t.fillFor vcid u (some c) false with
      | .busy t => .busy (t.waitAt w vcid u false)
      | .done t _ => match t.readUnits w c o us with
        | .busy _ => .busy (s.readUnits w c o us).after
        | r => r
/-- STAMPED_READ_AT_HOME (06 R149): data, stale data, a trap, a place among the waiters, or a refusal. A read waits behind a write that is
held for translation invalidation (04 R95). -/
def execStampedReadAtHome (id : Nat) (s : State) : Out :=
  match s.flight? id with
  | some f => match f.pkt with
    | .stRead c op u =>
      let c := s.forwarded c
      match (s.core c).op? op with
      | none => .next (s.acted id)
      | some o => match o.untrackedAt false u with
        | some vcid => .next (s.untrackedArrives f c o false u vcid)
        | none => match o.stampedReach false u with
        | some [] => .next (s.acted id)
        | none => .next s
        | some us =>
          let (vcid, key) := o.stampedAt u
          if !s.pageLets f || !s.stampedNext f || !s.matesLet f o then .next s else
          match s.setGate f vcid u with
          | (s, false) => .next s
          | (s, true) => match s.readUnits (.msg id) c o us with
          | .busy s => .next s
          | .done s _ =>
            let v := s.peekVc vcid u (some c)
            let g := o.iter - (v.under key).stamp
            if accepts o.lag o.iter (v.under key).stamp || o.ldlMode == 2 then
              let stale := !accepts o.lag o.iter (v.under key).stamp
              .next ((us.foldl (fun s u => s.answerRead c op u (s.peekVc (o.stampedAt u).1 u (some c)) stale) s).acted id)
            else if o.ldlMode = 1 then .next ((s.lagAnswer c o u g).acted id)
            else
              let home := s.homeCore vcid u
              if 32 ≤ s.bankWaiters home then .next (s.setFlight { f with hold := .refused })
              else
                let w : StWaiter := {
                  home := home, unit := homeKey vcid u, core := c, op := op, remote := none, iter := o.iter, lag := o.lag }
                let t : State := { s with stWaiters := s.stWaiters ++ [w] }
                .next (t.acted id)
    | _ => .next s
  | none => .next s

/-- Withdraws a read: its waiter, its request on the way or in a page's queue, and its packet's waiter abroad (06 R151, 18
R377). -/
def State.withdrawRead (s : State) (c : Nat) (o : Op) : State :=
  let mine (f : Flight) : Bool := match f.pkt with
    | .stRead c' op _ => s.forwarded c' == c && op == o.id
    | _ => false
  let s := s.withdraw ((s.net.filter mine).map fun f => f.id)
  let s : State := { s with stWaiters := s.stWaiters.filter fun w => !(w.remote.isNone && w.core == c && w.op == o.id) }
  (s.fabReqs.filter fun r => s.forwarded r.core == c && r.op == o.id).foldl (fun (s : State) (r : FabReq) =>
    let pa := (o.lanes.headD { ix := 0, va := 0, n := 0, place := .ctrl 0, op := .read, done := true, data := 0, age := none, srcs := [] }).remotePa
    let p := { packetOf 6 pa 0 o.iter o.lag o.ldlMode .stamped 0 0 0 with core := r.core, dev := s.devNum, tag := r.tag, inc := r.inc }
    s.transmit r.dev p) s

/-- STALE_TIMEOUT (06 R151): a bounded read that no reply answered by its due cycle is withdrawn. -/
def execStaleTimeout (core ctx tag : Nat) (s : State) : Out :=
  match (s.core core).op? tag with
  | none => .next s
  | some o =>
    let late : Bool := match o.due with
      | some d => decide (d < s.clock)
      | none => false
    let bounded : Bool := match o.fin with
      | .ldl _ _ _ _ => true
      | _ => false
    if o.ctx ≠ ctx ∨ !late ∨ !bounded ∨ o.allDone ∨ !(o.lanes.any fun l => match l.place with
        | .unit _ .stamped _ _ => true
        | .remote .stamped _ _ => true
        | _ => false) then .next s
    else .next ((s.withdrawRead core o).setOp core
      { o with lagTrap := true, stale := true, lanes := o.lanes.map fun l => { l with done := true } })

/-! ### Write-backs and the host (06 R138, 08 R190, 18 R368, R370) -/

/-- The bits of the 8-byte words of a mask. -/
def wordBits (m : BitVec 16) : Unit128 := BitVec.ofNat 1024 (packLanes 64 (fun i => if m.getLsbD i then 2 ^ 64 - 1 else 0) 16)
/-- WRITE_BACK (06 R138): each dirty word reaches the home whole and joins the unit's coherence order. -/
def execWriteBack (id : Nat) (s : State) : Out :=
  match s.flight? id with
  | some f => match f.pkt with
    | .writeBack _ _ u vcid key words d poison => match s.mayAct f vcid u with
      | (s, false) => .next s
      | (s, true) => match s.seizeRaw (.msg id) vcid u true with
        | .busy s => .next s
        | .done s _ =>
          let s := if words = BitVec.allOnes 16 then s.writeBackUnit vcid key u d poison
            else s.performAtHome vcid key u (fun x => (x &&& ~~~(wordBits words)) ||| (d &&& wordBits words)) none false
          .next (s.acted id)
    | _ => .next s
  | none => .next s

/-- The host's completion of a store to an aligned 8-byte word of the host memory window: its lanes perform in order, as one (18 R370, 12
R258, 07 R162). -/
def execHostAcknowledgement (id : Nat) (s : State) : Out :=
  match s.flight? id with
  | some { pkt := .hostStore c op w, .. } =>
    let c := s.forwarded c
    let s := s.drop id
    match (s.core c).op? op with
    | none => .next s
    | some o =>
      let (s, ls) := o.lanes.foldl (fun (a : State × List Lane) l =>
        if !l.done && l.hostWord == some w then let (s, l) := a.1.storageLane l; (s, a.2 ++ [l]) else (a.1, a.2 ++ [l])) (s, [])
      .next ((s.setOp c { o with lanes := ls }).sweep c)
  | _ => .next s

/-! ### Units of other devices, read for an agent (01 R26) -/

/-- What a read by packet of a unit has brought, once it is answered: its data and stamp, or the cause of its failure. -/
def Op.unitRead (o : Op) : Option (Except Cause VUnit) :=
  if !o.allDone then none
  else match o.fault with
    | some f => some (.error f.cause)
    | none => some (.ok { data := BitVec.ofNat 1024 (o.lanes.foldl (fun a l => a + (l.data.toNat % 2 ^ 512) * 2 ^ (512 * l.ix)) 0), tag := none,
                          stamp := o.iter - ((o.lanes.findSome? fun l => l.age).getD o.iter), poison := false })
/-- Reads the unit of a VA that is another device's, by a LOAD packet of core c that an agent keeps among the core's operations, under a context
number of its own, until it drops it (01 R26, 08 R191). `none` says that it is not answered yet. No copy stays in the L1. -/
def State.readByPacket (s : State) (c x : Nat) (e : TlbEnt) (pa va : Nat) : State × Option (Except Cause VUnit) :=
  let at_ : Addr := BitVec.ofNat 56 (va / 128 * 128)
  match (s.core c).ops.find? fun o => o.ctx == x && o.pc == at_ with
  | some o => (s, o.unitRead)
  | none =>
    let part (i : Nat) : Lane :=
      { ix := i, va := at_ + BitVec.ofNat 56 (64 * i), n := 64, place := .remote e.cls e.key (pa / 128 * 128 + 64 * i), op := .read, done := false
        data := 0, age := none, srcs := e.srcs }
    let o : Op := { s.opOf c x with id := s.nextId, pc := at_, isLoad := true, noInstall := true, fin := .block, lanes := [part 0, part 1] }
    let tags := s.freeTags c 1
    if tags.isEmpty then (s, none) else ((s.addOp c o).launchLanes c o none tags, none)
/-- Drops what an agent has read by packets of a core. -/
def Core.dropAgentOps (k : Core) (x : Nat) : Core := { k with ops := k.ops.filter fun o => o.ctx != x }

/-- Host accesses are enabled (18 R367). -/
def State.hostEnabled (s : State) : Bool := s.dev.hostcfg.getLsbD 10
/-- A rejected host access is counted (18 R368). -/
def State.rejectHost (s : State) : State := { s with dev := { s.dev with rejh := satInc s.dev.rejh } }
/-- An export entry that the host may use (18 R368). -/
def hostMay (write : Bool) (w : Word) : Bool := w.getLsbD 61 && (!write || w.getLsbD 62)
/-- The HBM stack of a local address (01 R30). -/
def hbmStack (pa : Nat) : Nat := bitsOf pa 8 4 ^^^ bitsOf pa 12 4 ^^^ bitsOf pa 16 4 ^^^ bitsOf pa 20 4
/-- The link that the host's request for a local address enters by: 0 at CD0 for stacks 0 to 7, 1 at CD4 for stacks 8 to 15 (18 R366). -/
def hostLink (pa : Nat) : Nat := hbmStack pa / 8
/-- Whether a link has delivered the requests that came before a message: each has performed, or waits at its home or in the queue of its page
(18 R366, R369). -/
def State.hostNext (s : State) (id addr : Nat) : Bool :=
  (s.net.takeWhile fun f => f.id != id).all fun f => match f.pkt with
    | .hostAcc a _ _ => hostLink a != hostLink addr || decide (f.hold ≠ .flying) || s.cameTo (.msg f.id) (a / 128)
    | _ => true
/-- Runs an access of the host's own at a unit: its own copy asks for no snoop, one that is under way is waited for (18
R369). -/
def State.hostSeize (s : State) (w : Writer) (vcid u : Nat) (excl : Bool) : AtHome Unit :=
  let h := s.home vcid u
  if h.snoop then .busy (s.waitAt w vcid u excl) else
  let bare := s.modHome vcid u fun h => { h with host := false, hostDirty := false }
  let back (s : State) : State := s.modHome vcid u fun x => { x with host := h.host, hostDirty := h.hostDirty }
  match bare.seize w vcid u excl with
  | .busy s => .busy (back s)
  | .done s a => .done (back s) a
/-- An access of the host to main memory at its home: n bytes within a unit, a read or a write. The host may hold the unit that it reads from
then on; a write leaves the stamp (18 R368, R369, 06 R137, R142). -/
def State.hostServe (s : State) (id addr n : Nat) (data : Option Unit128) : AtHome Unit :=
  let u := addr / 128
  let out (s : State) (d : Unit128) (p : Bool) : AtHome Unit := .done { s with hostOut := s.hostOut ++ [.memRead addr n d p] } ()
  if !s.hostEnabled then (match data with
    | none => out s 0 false
    | some _ => .done s ())
  else match s.exportVc s.hostDomain addr (hostMay data.isSome), data with
  | none, none => out s.rejectHost 0 false
  | none, some _ => .done s.rejectHost ()
  | some vcid, none => match s.hostSeize (.msg id) vcid u false with
    | .busy s => .busy s
    | .done s _ => match s.unitFor (.msg id) vcid s.hostDomain u none with
      | .busy s => .busy s
      | .done s v =>
        out (s.modHome vcid u fun h => { h with host := true, hostDirty := true }) (BitVec.ofNat 1024 (unitGet v.data (addr % 128) n)) v.poison
  | some vcid, some d => match s.hostSeize (.msg id) vcid u true with
    | .busy s => .busy s
    | .done s _ =>
      let n := min n (128 - addr % 128)
      .done (s.performAtHome vcid s.hostDomain u (fun x => unitPut x (addr % 128) n (d.toNat % 2 ^ (8 * n))) none (n == 128)) ()
/-- An access of the host acts, or waits, and is tried again at a later turn (18 R369). -/
def State.hostTry (s : State) (id : Nat) : State :=
  match s.flight? id with
  | some { hold := h, pkt := .hostAcc addr n data, .. } =>
    let again (s : State) : State := { s with agenda := s.agenda ++ [.hostMem id 1] }
    if h ≠ .flying ∨ !s.hostNext id addr then again s
    else match s.hostServe id addr n data with
      | .busy s => again s
      | .done s _ => s.acted id
  | _ => s
/-- An access of the host arrives by its link. -/
def State.hostArrives (s : State) (addr n : Nat) (data : Option Unit128) : State := (s.send (.hostAcc addr n data)).hostTry s.nextId
/-- HOST_CXL_MEM_READ (18 R368, R369): n bytes at an HBM address, within a unit. -/
def execHostCxlMemRead (addr n : Nat) (s : State) : Out := .next (s.hostArrives addr n none)
/-- HOST_CXL_MEM_WRITE (18 R368, 06 R137). -/
def execHostCxlMemWrite (addr n : Nat) (data : Unit128) (s : State) : Out := .next (s.hostArrives addr n (some data))

end Sys2Proof.Machine
end

