-- ==== Sys2Proof/Machine/CopyEngine.lean ====
section
/-! DEFINITION. The copy engine (09 R194 to R206): its commands, its instructions, and how a channel copies. -/

namespace Sys2Proof.Machine

/-! ### Command blocks (09 R195) -/

def blkWord (b : CopyBlock) (i : Nat) : Word := b.getD i 0
def blkSrc (b : CopyBlock) : Word := blkWord b 0
def blkDst (b : CopyBlock) : Word := blkWord b 1
/-- Elements of a row. -/
def blkN0 (b : CopyBlock) : Nat := fld (blkWord b 2) 0 32
def blkN1 (b : CopyBlock) : Nat := fld (blkWord b 2) 32 16 + 1
def blkN2 (b : CopyBlock) : Nat := fld (blkWord b 2) 48 16 + 1
/-- A signed 32-bit stride. -/
def blkStride (b : CopyBlock) (i lo : Nat) : Int := signedOf 32 (fld (blkWord b i) lo 32)
def blkBar (b : CopyBlock) : Addr := ptrVa (blkWord b 5)
def blkRnd (b : CopyBlock) : Nat := fld (blkWord b 6) 0 3
def blkMig (b : CopyBlock) : Bool := (blkWord b 6).getLsbD 4
def blkStamp (b : CopyBlock) : BitVec 16 := (blkWord b 6).extractLsb' 32 16
def blkSeed (b : CopyBlock) : BitVec 32 := lfsrStore ((blkWord b 7).setWidth 32)

/-- Whether every start of a row is a multiple of n. -/
def rowsAligned (p : Word) (n n1 n2 : Nat) (s1 s2 : Int) : Bool :=
  (ptrVa p).toNat % n == 0 && (n1 == 1 || s1 % n == 0) && (n2 == 1 || s2 % n == 0)
/-- Whether a command with MIG = 1 is a migration command (09 R198). -/
def migrationOk (b : CopyBlock) (sup : Bool) : Bool :=
  let ok (x : Int) : Bool := x % 128 == 0
  sup && ptrFmt (blkSrc b) == 0 && ptrFmt (blkDst b) == 0 && (ptrVa (blkSrc b)).toNat % 128 == 0 &&
    (ptrVa (blkDst b)).toNat % 128 == 0 && ok (blkStride b 3 0) && ok (blkStride b 3 32) && ok (blkStride b 4 0) &&
    ok (blkStride b 4 32) && blkN0 b % 128 == 0
/-- Whether a command is malformed (09 R197). -/
def malformed (b : CopyBlock) (sup : Bool) : Bool :=
  let fs := ptrFmt (blkSrc b)
  let fd := ptrFmt (blkDst b)
  fld (blkWord b 7) 32 32 != 0 || fld (blkWord b 6) 48 16 != 0 || fld (blkWord b 6) 5 27 != 0 || fld (blkWord b 6) 3 1 != 0 ||
    decide (5 ≤ blkRnd b) || ((fs == 0) != (fd == 0)) || fmtCheckFails fs (ptrBlog (blkSrc b)) ||
    fmtCheckFails fd (ptrBlog (blkDst b)) || !rowsAligned (blkSrc b) (elemAlign fs) (blkN1 b) (blkN2 b) (blkStride b 3 0) (blkStride b 3 32) ||
    !rowsAligned (blkDst b) (elemAlign fd) (blkN1 b) (blkN2 b) (blkStride b 4 0) (blkStride b 4 32) ||
    ((decide (11 ≤ fs) || decide (11 ≤ fd)) && blkN0 b % 32 != 0) || (blkMig b && !migrationOk b sup)

/-! ### Traversal (09 R196)

A command is a sequence of parts in traversal order: one element of an unblocked destination, one slot of an EC8 one, one block
with its scale of an MX one. -/

/-- Parts of a row of n elements; an MX row has whole superblocks. -/
def partsOf (f n : Nat) : Nat := if f < 11 then n else if f = 16 then n / 32 else 4 * ((n + 127) / 128)
/-- Parts of a command. -/
def blkParts (b : CopyBlock) : Nat := partsOf (ptrFmt (blkDst b)) (blkN0 b) * (blkN1 b * blkN2 b)
/-- Start of a row of a pointer. -/
def blkRow (b : CopyBlock) (p : Word) (i : Nat) (r : Nat) : Addr :=
  ptrVa p + BitVec.ofInt 56 (blkStride b i 0 * (r % blkN1 b : Nat) + blkStride b i 32 * (r / blkN1 b : Nat))
/-- Row and position of a part. -/
def blkPart (b : CopyBlock) (p : Nat) : Nat × Nat :=
  let a := partsOf (ptrFmt (blkDst b)) (blkN0 b)
  (p / a, p % a)
/-- The byte ranges of part i of a row of a format. -/
def partSpans (f : Nat) (row : Addr) (i : Nat) : List (Addr × Nat) :=
  if f < 11 then [(row + BitVec.ofNat 56 (elemBytes f * i), elemBytes f)]
  else if f = 16 then [(row + BitVec.ofNat 56 (28 * i), 28)]
  else
    let base := row + BitVec.ofNat 56 (blockBytes f * (i / 4))
    let n := mxBits f * 4
    [(base + BitVec.ofNat 56 (i % 4), 1), (base + BitVec.ofNat 56 (4 + n * (i % 4)), n)]
/-- Elements of a part that exist in its row; a part past the last one is padding. -/
def partElems (f n0 i : Nat) : List Nat :=
  if f < 11 then [i] else if 32 * i < n0 then (List.range 32).map fun j => 32 * i + j else []
/-- The byte ranges of the source that a part is made of. -/
def srcSpans (b : CopyBlock) (p : Nat) : List (Addr × Nat) :=
  let (r, i) := blkPart b p
  let fs := ptrFmt (blkSrc b)
  let fd := ptrFmt (blkDst b)
  let row := blkRow b (blkSrc b) 3 r
  let ks := partElems fd (blkN0 b) i
  if fs = fd then (if ks.isEmpty then [] else partSpans fs row i)
  else ks.flatMap fun (k : Nat) =>
    let e := elemAt fs row k
    (e.va, e.n) :: (match e.scale with
      | some a => [(a, 1)]
      | none => [])
/-- The byte ranges of the destination that a part writes. -/
def dstSpans (b : CopyBlock) (p : Nat) : List (Addr × Nat) :=
  let (r, i) := blkPart b p
  partSpans (ptrFmt (blkDst b)) (blkRow b (blkDst b) 4 r) i

/-- Adds n bytes at a VA to a table of byte masks by VA / 128. -/
def addSpan (l : Assoc Nat) (sp : Addr × Nat) : Assoc Nat :=
  (List.range sp.2).foldl (fun l i =>
    let a := (sp.1 + BitVec.ofNat 56 i).toNat
    tset l (a / 128) (tget l (a / 128) 0 ||| 2 ^ (a % 128))) l
/-- The units of a byte range, by VA / 128. -/
def spanUnits (sp : Addr × Nat) : List Nat :=
  (List.range sp.2).foldl (fun l i => addOnce l ((sp.1 + BitVec.ofNat 56 i).toNat / 128)) []
/-- The next window (09 R199): the next 64 distinct destination units in traversal order, of those not written yet. -/
def windowFrom (b : CopyBlock) (written : List Nat) : Nat → Nat → List Nat → List Nat
  | 0, _, l => l
  | n + 1, p, l =>
    let l := ((dstSpans b p).flatMap spanUnits).foldl (fun l u => if 64 ≤ l.length ∨ written.contains u then l else addOnce l u) l
    if 64 ≤ l.length then l else windowFrom b written n (p + 1) l
/-- The parts that write to a window, in traversal order: every byte of a unit is written in its window (06 R135). -/
def windowParts (b : CopyBlock) (w : List Nat) : List Nat :=
  (List.range (blkParts b)).filter fun p => ((dstSpans b p).flatMap spanUnits).any w.contains
/-- The destination units of a window, each with the mask of its bytes that are written. -/
def windowDsts (b : CopyBlock) (w : List Nat) : List (Nat × Nat) :=
  let spans := ((windowParts b w).flatMap (dstSpans b)).foldl addSpan []
  w.map fun u => (u, tget spans u 0)
/-- The source units of a window, each with the mask of its bytes that are used. -/
def windowNeed (b : CopyBlock) (w : List Nat) : Assoc Nat := ((windowParts b w).flatMap (srcSpans b)).foldl addSpan []
/-- Elements that a command has converted before a part (09 R196). -/
def convBefore (b : CopyBlock) (p : Nat) : Nat :=
  if ptrFmt (blkSrc b) = ptrFmt (blkDst b) then 0
  else (List.range p).foldl (fun n q => n + (partElems (ptrFmt (blkDst b)) (blkN0 b) (blkPart b q).2).length) 0

/-! ### Converting (09 R196, 02 R43 to R56) -/

/-- Whether a conversion to an element of a saturating float format saturated. -/
def satFloat (g : FFmt) (r : Rm) (v : FVal) : Bool :=
  match v with
  | .nan => false
  | .inf _ => true
  | .fin s m e => (g.round .saturate r s m e false).2
/-- Whether a conversion to an unblocked format saturated (02 R56); a format that keeps infinities does not saturate them. -/
def satCode (c : Nat) (r : Rm) (v : FVal) : Bool :=
  match floatCode c, intCode c with
  | some g, _ => decide (codeOver c = .saturate) && (match v with
      | .inf _ => (match codeValue c (codeEncode c r v) with
        | .inf _ => false
        | _ => true)
      | v => satFloat g r v)
  | none, some (n, sg) =>
    let (lo, hi) := intRange n sg
    (match v with
      | .nan => false
      | .inf _ => true
      | .fin s m e =>
        let x : Int := roundInt r s m e
        let x := if s then -x else x
        decide (x < lo) || decide (hi < x))
  | none, none => false
/-- Whether an element of a block saturated under its scale (02 R44). -/
def satBlock (f s : Nat) (r : Rm) (x : FVal) : Bool :=
  if s = 255 then false else
  let v := x.scale (127 - (s : Int))
  match mxFmt f with
  | some g => satFloat g r v
  | none => match v.scale 6 with
    | .fin sg m e => decide (127 < roundInt r sg m e)
    | _ => false

/-- Bytes at a VA through a reader of single bytes. -/
def readBytes (rd : Nat → Nat) (va : Addr) (n : Nat) : Nat := packLanes 8 (fun i => rd (va + BitVec.ofNat 56 i).toNat) n
/-- The exact value of source element k of a row, its block scale included. -/
def copyElem (rd : Nat → Nat) (f : Nat) (row : Addr) (k : Nat) : FVal :=
  let e := elemAt f row k
  let raw := readBytes rd e.va e.n
  if f < 11 then codeValue f raw
  else if f = 16 then applyScale (raw % 256) (mxElem 16 ((ec8Codes raw).getD e.bit 0))
  else applyScale (match e.scale with
    | some a => readBytes rd a 1
    | none => 127) (mxElem f (bitsOf raw e.bit (mxBits f)))

/-- NAN and SAT of a channel. -/
structure Conv where
  nan : Bool
  sat : Bool
/-- A part of a command: the bytes of each range it writes, and the flags after it. `seed` is the LFSR as the command starts. -/
def copyPart (b : CopyBlock) (seed : BitVec 32) (rd : Nat → Nat) (p : Nat) (st : Conv) : List (Addr × Nat × Nat) × Conv :=
  let (r, i) := blkPart b p
  let fs := ptrFmt (blkSrc b)
  let fd := ptrFmt (blkDst b)
  let row := blkRow b (blkSrc b) 3 r
  let ks := partElems fd (blkN0 b) i
  let dst := dstSpans b p
  if fs = fd then
    ((dst.zip (partSpans fs row i)).map fun q => (q.1.1, q.1.2, if ks.isEmpty then 0 else readBytes rd q.2.1 q.1.2), st)
  else if ks.isEmpty then (dst.map fun q => (q.1, q.2, 0), st)
  else
    let xs := ks.map (copyElem rd fs row)
    let rm (j : Nat) : Rm := Rm.ofMode (blkRnd b) (if blkRnd b = 4 then (lfsrAt seed (convBefore b p + j)).toNat else 0)
    if fd < 11 then
      let x := xs.headD .zero
      (dst.map fun q => (q.1, q.2, codeEncode fd (rm 0) x),
        { nan := st.nan || ((floatCode fd).isSome && x.isNan), sat := st.sat || satCode fd (rm 0) x })
    else
      let s := chooseScale fd xs
      let q (j : Nat) : Nat := mxConvert fd s (rm j) (xs.getD j .zero)
      let st := { nan := st.nan || s == 255,
                  sat := st.sat || (List.range 32).any fun j => satBlock fd s (rm j) (xs.getD j .zero) }
      if fd = 16 then (dst.map fun d => (d.1, d.2, ec8Pack s ((List.range 32).map q)), st)
      else (match dst with
        | [a, e] => [(a.1, a.2, s), (e.1, e.2, packLanes (mxBits fd) q 32)]
        | _ => [], st)
/-- Puts the bytes of a range that fall into a window into a table of units by VA / 128: data and a mask of bytes. -/
def putSpan (w : List Nat) (l : Assoc (Nat × Nat)) (x : Addr × Nat × Nat) : Assoc (Nat × Nat) :=
  (List.range x.2.1).foldl (fun l i =>
    let a := (x.1 + BitVec.ofNat 56 i).toNat
    if !w.contains (a / 128) then l else
    let (d, m) := tget l (a / 128) (0, 0)
    tset l (a / 128) (setBits d (8 * (a % 128)) 8 (bitsOf x.2.2 (8 * i) 8), m ||| 2 ^ (a % 128))) l
/-- The data of a window: of each unit its bytes and which of them are written. -/
def copyParts (b : CopyBlock) (seed : BitVec 32) (rd : Nat → Nat) (w : List Nat) : List Nat → Conv → Assoc (Nat × Nat) → Assoc (Nat × Nat) × Conv
  | [], st, l => (l, st)
  | p :: ps, st, l =>
    let (ws, st) := copyPart b seed rd p st
    copyParts b seed rd w ps st (ws.foldl (putSpan w) l)

/-! ### Channels -/

def State.channel (s : State) (n : Nat) : Channel := tget s.channels n Channel.reset
def State.modChannel (s : State) (n : Nat) (f : Channel → Channel) : State := { s with channels := tset s.channels n (f (s.channel n)) }
/-- The context number that a channel's own memory operations carry among those of its core. -/
def chanCtx (n : Nat) : Nat := 16384 + n
/-- The core that a channel translates and sends for (09 R202). -/
def State.chanCore (s : State) (n : Nat) : Nat := s.forwarded (s.channel n).core
def State.chanOps (s : State) (n : Nat) : List Op := (s.core (s.chanCore n)).opsOf (chanCtx n)
/-- Removes a channel's memory operations that a test names. -/
def State.dropChanOps (s : State) (n : Nat) (p : Op → Bool) : State :=
  s.modCore (s.chanCore n) fun k => { k with ops := k.ops.filter fun o => !(o.ctx == chanCtx n && p o) }
/-- A channel fails: the first failure stands, and a cancelled or malformed command does not fail (09 R200, R201). -/
def State.failCopy (s : State) (n : Nat) (cause : Nat) : State :=
  s.modChannel n fun ch => if ch.cancel || ch.malf then ch else { ch with fail := ch.fail.or (some cause) }
/-- The failures of a channel's packets (09 R201); what they were for is left out of their operations. A poisoned source of a migration command
is no failure (09 R198). -/
def State.copyFaults (s : State) (n : Nat) : State :=
  let bad (o : Op) : Bool := o.fault.any fun f => !(blkMig (s.channel n).blk && o.isLoad && decide (f.cause = .poison))
  match ((s.chanOps n).filter bad).findSome? fun o => o.fault with
  | some f => (s.modCore (s.chanCore n) fun k => { k with
      ops := mapIf (fun o => o.ctx == chanCtx n && bad o) (fun o => { o with fault := none }) k.ops }).failCopy n f.cause.code
  | none => s

/-- Where a byte of local space lies for the copy engine: the TCM and the scratch views only (09 R201). -/
def State.localByte (s : State) (c : Nat) (sup : Bool) (a : Nat) (write : Bool) : Except Nat Place :=
  if 2 ^ 55 + 0x20000000 ≤ a then .error Cause.xlate.code else
  match s.localPlace c sup (BitVec.ofNat 56 a) 1 write false with
  | .ok (.tcm c o) => .ok (.tcm c o)
  | .ok (.scratch c o) => .ok (.scratch c o)
  | .ok _ => .error Cause.xlate.code
  | .error f => .error (if f.cause = .vcFault then f.cause.code else Cause.xlate.code)
/-- A lane of a channel or another agent. -/
def chanLane (va : Addr) (n : Nat) (place : Place) (op : LaneOp) : Lane :=
  { ix := 0, va := va, n := n, place := place, op := op, done := false, data := 0, age := none, srcs := [] }

/-- The target of a unit of a command: local space, or a translation. -/
inductive CopyAt where
  | loc
  | at (t : Target)
/-- Translates the units of a table, each named by VA / 128 with the bytes used. -/
def State.copyTargets (s : State) (n : Nat) (acc : Acc) : List (Nat × Nat) → (Except (Option Nat) (List (Nat × CopyAt))) × State
  | [] => (.ok [], s)
  | (u, m) :: us =>
    let ch := s.channel n
    let c := s.chanCore n
    let sup := decide (ch.mode = .supervisor)
    let one : (Except (Option Nat) CopyAt) × State :=
      if 2 ^ 55 ≤ 128 * u then
        match ((List.range 128).filter m.testBit).findSome? fun i => match s.localByte c sup (128 * u + i) (decide (acc ≠ .read)) with
          | .error e => some e
          | .ok _ => none with
        | some e => (.error (some e), s)
        | none => (.ok .loc, s)
      else match s.engineXlate c ch.domain 1 n sup acc (BitVec.ofNat 56 (128 * u)) with
        | (.wait, s) => (.error none, s)
        | (.bad f, s) => (.error (some f.cause.code), s)
        | (.hit (.ctrl _ _), s) => (.error (some Cause.xlate.code), s)
        | (.hit t, s) => (.ok (.at t), s)
    match one with
    | (.error e, s) => (.error e, s)
    | (.ok t, s) => match s.copyTargets n acc us with
      | (.ok l, s) => (.ok ((u, t) :: l), s)
      | r => r

/-- Whether the packet of a group of an operation is unanswered: it keeps the number of the core that sent it (17 R365, 09 R202). -/
def State.asks (s : State) (c id group : Nat) : Bool := s.fabReqs.any fun r => s.forwarded r.core == c && r.op == id && r.group == group
/-- Sends the packets of a channel's operations that have not been sent, as far as its core has free tags (08 R191). -/
def State.sendCopy (s : State) (n : Nat) : State :=
  let c := s.chanCore n
  (s.chanOps n).foldl (fun s o =>
    (unitsOf o.lanes o.groupOf).foldl (fun s g =>
      if s.asks c o.id g then s else
      match s.freeTag c with
      | none => s
      | some t =>
        let ls := o.lanes.filter fun l => !l.done && o.groupOf l == some g
        s.sendPacket c (packetFor o ls) o g (ls.any fun l => l.op.writes) none t) s) s
/-- A channel writes lanes outside the module: they leave for the host window or as packets, with a stamp (09 R199). -/
def State.startCopyOp (s : State) (n : Nat) (stamp : BitVec 16) (lanes : List Lane) : State :=
  let id := s.nextId
  let o : Op := { s.opOf (s.chanCore n) (chanCtx n) with
    sup := decide ((s.channel n).mode = .supervisor), iter := stamp, rep := none, fin := .block, isStore := true, lanes := lanes }
  let s := s.addOp (s.chanCore n) o
  let s := (unitsOf lanes Lane.hostWord).foldl (fun s w => s.send (.hostStore (s.chanCore n) id w)) s
  s.sendCopy n

/-! ### A channel at the homes (09 R198, R199; 04 R102, R104) -/

/-- Runs a step of a channel at a unit whose page may not be OPEN. A command with MIG acts there at once; any other takes its place in the
page's queue, or is refused when 64 wait, and acts when its slot is the next. A unit that the channel comes to own settles its slot then
(assumption 60, DEDUCED). -/
def State.chanGate {α : Type} (s : State) (n u va : Nat) (act : State → AtHome α) : AtHome α :=
  if blkMig (s.channel n).blk then act s else
  let mine := s.net.find? fun f => match f.pkt with
    | .copyTurn n' _ va' => n' == n && va' == va
    | _ => false
  let settle (s : State) : State := match mine with
    | some f => s.acted f.id
    | none => s
  let go (s : State) : AtHome α := match act s with
    | .busy s => .busy s
    | .done s a => .done (settle s) a
  match s.blockOf (128 * u), mine with
  | none, _ => go s
  | some p, some f =>
    if p.slots.contains f.id then (if p.st = .replaying ∧ p.slots.head? = some f.id then go s else .busy s)
    else if p.queue.contains f.id then .busy s
    else .busy (settle s)
  | some p, none =>
    if 64 ≤ p.queue.length - p.moved.length then .busy s
    else
      let id := s.nextId
      let t := s.send (.copyTurn n u va)
      .busy ((t.holdAll [id] .queued).setPage { p with queue := p.queue ++ [id] })
/-- Takes M ownership of a TRACKED destination unit, as a caching agent (06 R135). -/
def State.ownUnit (s : State) (n vcid u : Nat) : AtHome Unit :=
  match s.seizeRaw (.chan n) vcid u true with
  | .busy s => .busy s
  | .done s _ =>
    .done ((s.modHome vcid u fun h => { h with dir := .m, sharers := [24576 + n] }).modChannel n fun ch => { ch with own := ch.own ++ [(vcid, u)] }) ()
/-- Takes the TRACKED units of a window in ascending PA order, each named with its VA / 128. -/
def State.ownUnits (s : State) (n : Nat) : List (Nat × TlbEnt × Nat) → AtHome Unit
  | [] => .done s ()
  | (va, e, pa) :: ts =>
    if (s.channel n).own.contains (e.vcid, pa / 128) then s.ownUnits n ts
    else match s.chanGate n (pa / 128) va fun s => s.ownUnit n e.vcid (pa / 128) with
      | .busy s => .busy s
      | .done s _ => s.ownUnits n ts
/-- Releases units that a channel owns: requests that waited for them go on. -/
def State.disown (s : State) (n : Nat) (us : List (Nat × Nat)) : State :=
  us.foldl (fun s p => (s.modChannel n fun ch => { ch with own := ch.own.filter fun q => q != p }).release p.1 p.2 (24576 + n)) s

/-- What a source unit gives: the unit, or the cause of a failure. -/
inductive CopyRead where
  | got (v : VUnit)
  | bad (cause : Nat)
/-- A source unit as it was found: under MIG it is carried as it stands, and a poisoned one is no failure (09 R198). -/
def copyGot (mig : Bool) (v : VUnit) : CopyRead := if v.poison && !mig then .bad Cause.poison.code else .got v
/-- Reads a source unit of this module (09 R199, 06 R135, R136): TRACKED units whole, as one S read, others as they stand at the home. -/
def State.copyUnit (s : State) (n va : Nat) (e : TlbEnt) (pa : Nat) : AtHome CopyRead :=
  let u := pa / 128
  let w : Writer := .chan n
  let mig := blkMig (s.channel n).blk
  s.chanGate n u va fun s =>
    match (if e.cls = .tracked then s.seizeRaw w e.vcid u false else s.plainGate w e.vcid u) with
    | .busy s => .busy s
    | .done s _ => match s.fillFor e.vcid u (some (s.chanCore n)) false with
      | .busy s => .busy (s.waitAt w e.vcid u false)
      | .done s _ =>
        let v := s.peekVc e.vcid u (some (s.chanCore n))
        .done s (copyGot mig (if mig then v else { v.under e.key with poison := v.poisonFor e.key }))
/-- A byte of local space that a channel reads, with the poison of its unit of bank scratch (17 R364). -/
def State.copyByte (s : State) (n a : Nat) : Nat × Bool :=
  match s.localByte (s.chanCore n) (decide ((s.channel n).mode = .supervisor)) a false with
  | .ok p => ((s.storageLane (chanLane 0 1 p .read)).2.data.toNat, s.scratchPoison p 1)
  | .error _ => (0, false)
/-- Reads a source unit (09 R199): `m` is the mask of the bytes that are used. Units outside the module carry no key tag, and those of local space
and of the host no stamp (assumption 84, DESIGN CHOICE, unsafe). -/
def State.copyRead (s : State) (n : Nat) (u m : Nat) (t : CopyAt) : AtHome CopyRead :=
  let mig := blkMig (s.channel n).blk
  let plain (d : Unit128) (p : Bool) : VUnit := { data := d, tag := none, stamp := 0, poison := p }
  match t with
  | .loc =>
    let byte (i : Nat) : Nat × Bool := if m.testBit i then s.copyByte n (128 * u + i) else (0, false)
    .done s (copyGot mig (plain (BitVec.ofNat 1024 (packLanes 8 (fun i => (byte i).1) 128)) ((List.range 128).any fun i => (byte i).2)))
  | .at (.unit e pa) => s.copyUnit n u e pa
  | .at (.host _ pa) => .done s (.got (plain (BitVec.ofNat 1024 (s.hostMem.read pa 128)) false))
  | .at (.remote e pa) => match s.readByPacket (s.chanCore n) (chanCtx n) e pa (128 * u) with
    | (s, none) => .busy s
    | (s, some (.ok v)) => .done s (.got { v with tag := some e.key })
    | (s, some (.error f)) => .done s (if mig ∧ f = .poison then .got { plain 0 true with tag := some e.key } else .bad f.code)
  | .at _ => .busy s
/-- The remote source units of a window are asked for together. -/
def State.askRemote (s : State) (n : Nat) (ts : List (Nat × CopyAt)) : State :=
  ts.foldl (fun s p => match p.2 with
    | .at (.remote e pa) => (s.readByPacket (s.chanCore n) (chanCtx n) e pa (128 * p.1)).1
    | _ => s) s
/-- Reads the source units of a window: the units, or the cause of the first that fails. -/
def State.copyReads (s : State) (n : Nat) (need : Assoc Nat) : List (Nat × CopyAt) → AtHome (Except Nat (List (Nat × VUnit)))
  | [] => .done s (.ok [])
  | (u, t) :: ts => match s.copyRead n u (tget need u 0) t with
    | .busy s => .busy s
    | .done s (.bad c) => .done s (.error c)
    | .done s (.got v) => match s.copyReads n need ts with
      | .done s (.ok l) => .done s (.ok ((u, v) :: l))
      | r => r

/-- The bits of a byte mask of n bytes. -/
def maskBits (m n : Nat) : Nat := packLanes 8 (fun i => if m.testBit i then 255 else 0) n
/-- The aligned 8-byte words that a mask of bytes touches. -/
def wordsOf (m : Nat) : BitVec 16 := BitVec.ofNat 16 (packLanes 1 (fun i => if bitsOf m (8 * i) 8 = 0 then 0 else 1) 16)
/-- Notes that a unit is written; a whole one counts (09 R200). -/
def State.countUnits (s : State) (n k : Nat) : State := s.modChannel n fun ch => { ch with units := ch.units + k }
/-- The number of a unit that its mask covers: 1 when it is written whole. -/
def wholeUnit (m : Nat) : Nat := if m = 2 ^ 128 - 1 then 1 else 0
/-- The unit of a core's bank scratch that a byte of local space lies in. -/
def State.scratchOf (s : State) (c : Nat) (sup : Bool) (a : Nat) : Option (Nat × Nat) :=
  match s.localByte c sup a true with
  | .ok (.scratch d o) => some (d, o / 128)
  | _ => none
/-- A write of a whole unit of bank scratch clears its poison (08 R176, 17 R364). -/
def State.clearScratch (s : State) (c : Nat) (sup : Bool) (u : Nat) : State :=
  match s.scratchOf c sup (128 * u), s.scratchOf c sup (128 * u + 127) with
  | some p, some q => if p = q then s.modCore p.1 fun k => { k with scratchBad := k.scratchBad.filter fun x => x != p.2 } else s
  | _, _ => s
/-- Begins to write a destination unit: an owned one and local storage at once, a STAMPED or UNTRACKED one in beats; what goes to the host or
the fabric is given back as lanes, the first of which counts for a whole unit; `key` is the key tag that a migration command sends. -/
def State.copyWrite (s : State) (n : Nat) (u m d : Nat) (key : Option Nat) (t : CopyAt) : State × List Lane :=
  let c := s.chanCore n
  let sup := decide ((s.channel n).mode = .supervisor)
  let lanes (e : TlbEnt) (f : Nat → Place) : List Lane := (([0, 1].filter fun h => bitsOf m (64 * h) 64 != 0).map fun h =>
    { chanLane (BitVec.ofNat 56 (128 * u + 64 * h)) 64 (f (64 * h))
        (.write (BitVec.ofNat 512 (bitsOf d (512 * h) 512)) (BitVec.ofNat 512 (maskBits (bitsOf m (64 * h) 64) 64))) with
      srcs := e.srcs, ix := if h = 0 then wholeUnit m else 0 })
  match t with
  | .loc =>
    let s := ((List.range 128).filter m.testBit).foldl (fun s i => match s.localByte c sup (128 * u + i) true with
      | .ok p => (s.storageLane (chanLane 0 1 p (.write (BitVec.ofNat 512 (bitsOf d (8 * i) 8)) 255))).1
      | .error _ => s) s
    ((if wholeUnit m = 1 then s.clearScratch c sup u else s).countUnits n (wholeUnit m), [])
  | .at (.unit e pa) =>
    if e.cls = .tracked then
      let bits := BitVec.ofNat 1024 (maskBits m 128)
      ((s.performAtHome e.vcid e.key (pa / 128) (fun x => (x &&& ~~~bits) ||| (BitVec.ofNat 1024 d &&& bits)) none (wholeUnit m == 1)).countUnits n
        (wholeUnit m), [])
    else
      (s.modChannel n fun ch => { ch with beats := ch.beats ++ [{ va := u, cls := e.cls, vcid := e.vcid, key := e.key, pa := pa, words := wordsOf m,
                                                                  mask := BitVec.ofNat 128 m, data := BitVec.ofNat 1024 d, srcs := e.srcs }] }, [])
  | .at (.host e pa) => (s, lanes e fun o => .hostw (pa + o))
  | .at (.remote e pa) => (s, lanes e fun o => .remote e.cls (key.getD e.key) (pa + o))
  | .at _ => (s, [])

/-- Whether a beat has written words. -/
def Beat.begun (b : Beat) : Bool := b.words != wordsOf b.mask.toNat
/-- Writes words of a unit that the channel does not own. A STAMPED unit is written in one step and takes STAMP; of an UNTRACKED one some
words may be written before others (06 R139). -/
def State.beatWords (s : State) (n : Nat) (b : Beat) (words : BitVec 16) : AtHome Unit :=
  let u := b.pa / 128
  s.chanGate n u b.va fun s =>
    match s.seizeRaw (.chan n) b.vcid u true with
    | .busy s => .busy s
    | .done s _ =>
      let bits := BitVec.ofNat 1024 (maskBits b.mask.toNat 128) &&& wordBits words
      let whole : Bool := b.mask == BitVec.allOnes 128
      .done (s.performAtHome b.vcid b.key u (fun x => (x &&& ~~~bits) ||| (b.data &&& bits))
        (if b.cls = .stamped then some (blkStamp (s.channel n).blk) else none) (whole && (b.words &&& ~~~words) == 0)) ()
/-- One beat of a unit: which words go together in an UNTRACKED one is open (06 R139; assumption 22, DESIGN CHOICE, safe). -/
def State.beatStep (s : State) (n : Nat) (b : Beat) (bs : List Beat) : State :=
  let s : State := { s with nextId := s.nextId + 1 }
  let some_ := Config.copyWords s.nextId &&& b.words
  let words := if b.cls = .stamped ∨ some_ = 0 then b.words else some_
  match s.beatWords n b words with
  | .busy s => s
  | .done s _ =>
    let left := b.words &&& ~~~words
    if left = 0 then (s.modChannel n fun ch => { ch with beats := bs }).countUnits n (wholeUnit b.mask.toNat)
    else s.modChannel n fun ch => { ch with beats := { b with words := left } :: bs }
/-- The turn that a beat has taken at a blocked page. -/
def State.beatTurn (s : State) (n : Nat) (b : Beat) : Option Flight :=
  s.net.find? fun f => match f.pkt with
    | .copyTurn n' _ va => n' == n && va == b.va
    | _ => false
/-- The first unit that waits to be written goes on. While it is held at a blocked page it waits; when it is replayed its address is translated
afresh, which may take it to another place (04 R96, R102). -/
def State.copyBeat (s : State) (n : Nat) : State :=
  match (s.channel n).beats with
  | [] => s
  | b :: bs => match s.beatTurn n b with
    | none => s.beatStep n b bs
    | some f =>
      if s.pages.any fun p => p.queue.contains f.id then s else
      let drop (s : State) : State := (s.acted f.id).modChannel n fun ch => { ch with beats := bs }
      match s.copyTargets n .write [(b.va, b.mask.toNat)] with
      | (.error none, s) => s
      | (.error (some e), s) => (drop s).failCopy n e
      | (.ok [(_, .at (.unit e pa))], s) =>
        let b := { b with cls := e.cls, vcid := e.vcid, key := e.key, pa := pa, srcs := e.srcs }
        (s.modChannel n fun ch => { ch with beats := b :: bs }).beatStep n b bs
      | (.ok ts, s) => ts.foldl (fun s p =>
          let m := b.mask.toNat &&& packLanes 8 (fun i => if b.words.getLsbD i then 255 else 0) 16
          let (s, ls) := s.copyWrite n b.va m b.data.toNat none p.2
          if ls.isEmpty then s else s.startCopyOp n (blkStamp (s.channel n).blk) ls) (drop s)

/-- The source unit of a destination unit of a migration command, by VA / 128: of several, the last in traversal order stands. -/
def migSource (b : CopyBlock) (u : Nat) : Option Nat :=
  ((List.range (blkParts b / 128)).map fun i => 128 * i).reverse.findSome? fun p =>
    match dstSpans b p, srcSpans b p with
    | d :: _, x :: _ => if d.1.toNat / 128 = u then some (x.1.toNat / 128) else none
    | _, _ => none
/-- A migration command's unit of the module: data, stamp, poison and key tag (09 R198). Its waiters are answered when the stamp does not fall
(06 R150). -/
def State.migrateUnit (s : State) (n : Nat) (v : VUnit) (e : TlbEnt) (pa : Nat) : State :=
  let u := pa / 128
  let s := (s.fillFor e.vcid u none true).after
  let old := s.baseVc e.vcid u
  let s := s.writeVc e.vcid u v
  ((if ageOf v.stamp old.stamp < 0 then s else s.answerWaiters e.vcid u v).answerAborted u v.data).countUnits n 1
/-- Takes alone, at their homes, the destination units of a migration command that it does not own. -/
def State.seizeUnits (s : State) (n : Nat) : List (TlbEnt × Nat) → AtHome Unit
  | [] => .done s ()
  | (e, pa) :: l => match s.seizeRaw (.chan n) e.vcid (pa / 128) true with
    | .busy s => .busy s
    | .done s _ => s.seizeUnits n l

/-- The units of this module among targets. -/
def ownTargets (ts : List (Nat × CopyAt)) : List (Nat × TlbEnt × Nat) :=
  ts.filterMap fun p => match p.2 with
    | .at (.unit e pa) => some (p.1, e, pa)
    | _ => none
/-- Inserts by ascending PA. -/
def insertPa (x : Nat × TlbEnt × Nat) : List (Nat × TlbEnt × Nat) → List (Nat × TlbEnt × Nat)
  | [] => [x]
  | y :: l => if x.2.2 ≤ y.2.2 then x :: y :: l else y :: insertPa x l
/-- Whether a source unit has a key tag: it is a unit of a device's memory. -/
def CopyAt.tagged (t : CopyAt) : Bool :=
  match t with
  | .at (.unit _ _) => true
  | .at (.remote _ _) => true
  | _ => false
/-- What a migration command writes into a destination unit: its source's data, stamp, poison and key tag. A source of local space or of the host
has no tag, and its unit takes that of its destination's translation (09 R198; assumption 84, DESIGN CHOICE, unsafe). -/
def migUnit (b : CopyBlock) (st : List (Nat × CopyAt)) (got : List (Nat × VUnit)) (u : Nat) (t : CopyAt) : VUnit :=
  let none_ : VUnit := { data := 0, tag := none, stamp := 0, poison := false }
  match migSource b u with
  | none => none_
  | some x =>
    let v := ((got.find? fun p => p.1 == x).map fun p => p.2).getD none_
    let tagged := (st.find? fun p => p.1 == x).any fun p => p.2.tagged
    match t with
    | .at (.unit e _) => { v with tag := if tagged then v.tag else some e.key }
    | _ => v
/-- Writes the destination units of a migration command's window: those of the module whole, others as data with their stamps and tags. A poison
bit does not leave the module (assumption 84, DESIGN CHOICE, unsafe). -/
def State.writeMig (s : State) (n : Nat) (st : List (Nat × CopyAt)) (got : List (Nat × VUnit)) (dt : List (Nat × CopyAt)) : State :=
  let b := (s.channel n).blk
  dt.foldl (fun s p =>
    let v := migUnit b st got p.1 p.2
    match p.2 with
    | .at (.unit e pa) => s.migrateUnit n v e pa
    | t =>
      let (s, ls) := s.copyWrite n p.1 (2 ^ 128 - 1) v.data.toNat v.tag t
      if ls.isEmpty then s else s.startCopyOp n v.stamp ls) s
/-- Writes the destination units of another command's window: each takes its bytes, and STAMPED ones STAMP (09 R198). -/
def State.writeData (s : State) (n : Nat) (data : Assoc (Nat × Nat)) (dt : List (Nat × CopyAt)) : State :=
  dt.foldl (fun s p =>
    let (d, m) := tget data p.1 (0, 0)
    let (s, ls) := s.copyWrite n p.1 m d none p.2
    if ls.isEmpty then s else s.startCopyOp n (blkStamp (s.channel n).blk) ls) s
/-- The writes of a window, once its units are owned and its sources read (09 R199): the owned units are released as they are whole. -/
def State.writeWindow (s : State) (n : Nat) (w ps : List Nat) (dt st : List (Nat × CopyAt)) (got : List (Nat × VUnit)) : State :=
  let ch := s.channel n
  let b := ch.blk
  let rd (a : Nat) : Nat := match got.find? fun p => p.1 == a / 128 with
    | some p => unitGet p.2.data (a % 128) 1
    | none => 0
  let (data, cv) := copyParts b ch.lfsr rd w ps { nan := ch.nan, sat := ch.sat } []
  let s := (s.dropChanOps n fun o => o.isLoad).modChannel n fun ch => { ch with written := ch.written ++ w, nan := cv.nan, sat := cv.sat }
  let s := if blkMig b then s.writeMig n st got dt else s.writeData n data dt
  s.disown n (s.channel n).own
/-- The next window (09 R199): its addresses are translated, its TRACKED destination units taken, then every source unit read, remote ones by
packets, and only then is anything written. -/
def State.copyStep (s : State) (n : Nat) : State :=
  let ch := s.channel n
  let b := ch.blk
  let w := windowFrom b ch.written (blkParts b) 0 []
  if w.isEmpty then s else
  let need := windowNeed b w
  match s.copyTargets n .write (windowDsts b w) with
  | (.error none, s) => s
  | (.error (some e), s) => s.failCopy n e
  | (.ok dt, s) => match s.copyTargets n .read need with
    | (.error none, s) => s
    | (.error (some e), s) => s.failCopy n e
    | (.ok st, s) =>
      let own := ((ownTargets dt).filter fun p => decide (p.2.1.cls = .tracked)).foldr insertPa []
      -- a unit that the window no longer reaches, after a remap, is let go (04 R96)
      let s := s.disown n ((s.channel n).own.filter fun q => !own.any fun p => (p.2.1.vcid, p.2.2 / 128) == q)
      match s.ownUnits n own with
      | .busy s => s
      | .done s _ =>
        let loose := if blkMig b then (ownTargets dt).filter fun p => decide (p.2.1.cls ≠ .tracked) else []
        match s.seizeUnits n (loose.map fun p => p.2) with
        | .busy s => s
        | .done s _ => match (s.askRemote n st).copyReads n need st with
          | .busy s => s
          | .done s (.error e) => s.failCopy n e
          | .done s (.ok got) => s.writeWindow n w (windowParts b w) dt st got

/-- Whole units among the acknowledged writes of a channel outside the module are counted, and operations that are over leave. -/
def State.copyAcks (s : State) (n : Nat) : State :=
  let ended := (s.chanOps n).filter fun o => o.isStore && o.allDone
  (s.dropChanOps n fun o => o.isStore && o.allDone).countUnits n (ended.foldl (fun k o => o.lanes.foldl (fun k l => k + l.ix) k) 0)
/-- A command that has failed or been cancelled, or is malformed: it lets go the units whose writing has not begun, and its reads, and only
finishes what it has begun (09 R201, R205). -/
def State.copyStop (s : State) (n : Nat) : State :=
  let c := s.chanCore n
  let s := (s.dropChanOps n fun o => o.isLoad).disown n (s.channel n).own
  let sent (o : Op) (l : Lane) : Bool := l.done || (match o.groupOf l with
    | some g => s.asks c o.id g
    | none => true)
  let s := s.modCore c fun k => { k with ops := mapIf (fun o => o.ctx == chanCtx n) (fun o => { o with lanes := o.lanes.filter (sent o) }) k.ops }
  let s := s.modChannel n fun ch => { ch with beats := ch.beats.filter Beat.begun }
  let turns := s.net.filter fun f => match f.pkt with
    | .copyTurn n' _ va => n' == n && !(s.channel n).beats.any fun b => b.va == va
    | _ => false
  turns.foldl (fun s f => s.acted f.id) s
/-- Whether a command starts no further window. -/
def Channel.stopping (c : Channel) : Bool := c.malf || c.fail.isSome || c.cancel
/-- Whether a command has nothing left to do. -/
def State.copyDone (s : State) (n : Nat) : Bool :=
  let c := s.channel n
  (c.stopping || (windowFrom c.blk c.written (blkParts c.blk) 0 []).isEmpty) && c.beats.isEmpty && (s.chanOps n).isEmpty

/-! ### Instructions (09 R203 to R206) -/

/-- Reads n bytes as a load of the issuing context, which waits for them (09 R204). What has been read stays until the instruction leaves:
it is read once (endBlockM). -/
def blockReadM (va : Addr) (n : Nat) : M Nat := do
  let mine (o : Op) (s : State) : Bool := decide (o.fin = .block) && o.seq == s.me.seq
  if (← getM fun s => (s.mine.opsOf s.curCtx).find? fun o => mine o s).isNone then
    watchM va n true false
    acquireM
    modM fun s => s.modCore s.curCore fun k => { k with ops := k.ops.filter fun o => !(o.ctx == s.curCtx && decide (o.fin = .block)) }
    let ls ← resolveM true .read 1 (splitParts (granule va) 0 va n .read n)
    let o ← getM fun s => { s.newOp with isLoad := true, fin := .block, lanes := ls }
    issueM o none
  match ← getM fun s => (s.mine.opsOf s.curCtx).find? fun o => mine o s with
  | none => parkM
  | some o =>
    if !o.allDone then parkM
    else match o.fault with
      | some f => stop (.fault f)
      | none => return (o.lanes.foldl (fun (a : Nat × Nat) l => (a.1 + (l.data.toNat % 2 ^ (8 * l.n)) * 2 ^ (8 * a.2), a.2 + l.n)) (0, 0)).1
/-- The instruction that has read a block leaves. -/
def endBlockM : M Unit := modM fun s =>
  s.modCore s.curCore fun k => { k with ops := k.ops.filter fun o => !(o.ctx == s.curCtx && decide (o.fin = .block)) }

/-- The cluster's channel that a register names. -/
def State.chanOf (s : State) (w : Word) : Nat := 32 * clusterOf s.curCore + fld w 0 5
/-- Whether the issuer acts on a busy channel as such (09 R202). -/
def State.chanSeen (s : State) (ch : Channel) : Bool :=
  ch.busy && (decide (s.me.mode = .supervisor) || ch.domain == s.mine.domain)
/-- ce.start (09 R204): the block is read and checked once, before the channel is waited for. -/
def execCeStart (m : Bool) (a b : BitVec 5) (s : State) : Out :=
  let va := ptrVa (s.reg a)
  let n := s.chanOf (s.reg b)
  let sup := decide (s.me.mode = .supervisor)
  let blkOf (raw : Nat) : CopyBlock := (List.range 8).map fun i => BitVec.ofNat 64 (bitsOf raw (64 * i) 64)
  runM (do
    let kept ← getM fun s => s.me.keptNow
    if kept.isNone then
      engineM
      alignM va 64
      let raw ← blockReadM va 64
      let blk := blkOf raw
      if blkMig blk && !sup then faultM .priv 0 0
      if blkBar blk ≠ 0 then
        alignM (blkBar blk) 32
        let _ ← trackedM .write 32 (blkBar blk)
      endBlockM
      let _ ← keepM fun _ => [raw, n]
    let vals ← getM fun s => s.me.keptNow.getD []
    let blk := blkOf (vals.getD 0 0)
    let n := vals.getD 1 0
    if ← getM fun s => (s.channel n).busy then holdM
    modM fun s => s.modChannel n fun ch => { Channel.reset with
      busy := true
      blk := blk
      core := s.curCore
      domain := s.mine.domain
      queue := s.mine.queue
      mode := s.me.mode
      lfsr := blkSeed blk
      malf := malformed blk sup
      last := ch.last
      lastDomain := ch.lastDomain }
    retireM m) s
/-- ce.cancel (09 R205). -/
def execCeCancel (m : Bool) (a : BitVec 5) (s : State) : Out :=
  let n := s.chanOf (s.reg a)
  let s := if s.chanSeen (s.channel n) then s.modChannel n fun ch => { ch with cancel := ch.fail.isNone && !ch.malf } else s
  .next (s.retire m)
/-- The word of ce.stat (09 R206). -/
def State.chanStat (s : State) (ch : Channel) : Word :=
  let sup := decide (s.me.mode = .supervisor)
  let last := if sup || ch.lastDomain == s.mine.domain then ch.last.toNat else 0
  if ch.busy then
    (if s.chanSeen ch then BitVec.ofNat 64 (ch.last.toNat + ch.units % 2 ^ 32 * 2 ^ 16 + ch.domain % 1024 * 2 ^ 52 + (blkMig ch.blk).toNat * 2 ^ 62 + 2 ^ 63)
     else 0)
  else BitVec.ofNat 64 last
/-- ce.stat (09 R206). -/
def execCeStat (m : Bool) (a b : BitVec 5) (s : State) : Out :=
  .next (s.issueResult m [.scalar (s.dst a) (s.chanStat (s.channel (s.chanOf (s.reg b))))])

/-! ### Events -/

/-- COPY_WINDOW (09 R199): a channel of a cluster whose copy engine is not frozen goes on with its command; a frozen one finishes the unit
that it has begun (24 R421). -/
def execCopyWindow (cluster ch : Nat) (s : State) : Out :=
  let n := 32 * cluster + ch % 32
  if !(s.channel n).busy then .next s else
  let s := (s.copyFaults n).copyAcks n
  let frozen := (s.dbgOf cluster).frozen
  let s := if (s.channel n).stopping && !frozen then s.copyStop n else s
  if !(s.channel n).beats.isEmpty then
    .next (if frozen && !((s.channel n).beats.head?.any Beat.begun) then s else s.copyBeat n)
  else if frozen then .next s
  else if (s.chanOps n).any fun o => o.isStore then .next (s.sendCopy n)
  else if (s.channel n).stopping then .next s
  else .next (s.copyStep n)
/-- The status word of a command (09 R200). -/
def Channel.status (ch : Channel) : Word :=
  BitVec.ofNat 64 (1 + ch.malf.toNat * 2 + ch.fail.isSome.toNat * 8 + ch.nan.toNat * 16 + ch.sat.toNat * 32 + ch.cancel.toNat * 128
    + ch.fail.getD 0 % 256 * 256 + ch.units % 2 ^ 32 * 65536)
/-- COPY_COMPLETE (09 R200): a command that has finished, failed, been cancelled or is malformed completes once its writes
outside the module are acknowledged. -/
def execCopyComplete (cluster ch : Nat) (s : State) : Out :=
  let n := 32 * cluster + ch % 32
  if !(s.channel n).busy ∨ (s.dbgOf cluster).frozen then .next s else
  let s := (s.copyFaults n).copyAcks n
  let s := if (s.channel n).stopping then s.copyStop n else s
  let c := s.channel n
  if !s.copyDone n then .next s
  else
    let fin (s : State) : State := (s.dropChanOps n fun _ => true).modChannel n fun c =>
      { Channel.reset with last := c.status.setWidth 16, lastDomain := c.domain }
    if blkBar c.blk = 0 then .next (fin s)
    else match s.completeVa (.chan n) (s.chanCore n) c.domain 1 n (decide (c.mode = .supervisor)) (blkBar c.blk) (some c.status) false .arrive with
      | .busy s => .next s
      | .done s _ => .next (fin s)

end Sys2Proof.Machine
end

