-- ==== Sys2Proof/Machine/Fabric.lean ====
section
/-! DEFINITION. Operation packets of other devices performed at the homes of this module (18 R368, R376, R377; 08 R187 to R189). -/

namespace Sys2Proof

open Machine

/-- The local HBM address that a packet names. -/
def Packet.loc (p : Packet) : Nat := p.pa.toNat % 2 ^ 42
/-- The stamp that a write of a packet sets (18 R377). -/
def Packet.setsStamp (p : Packet) : Option (BitVec 16) := if p.cls = 1 then some p.stamp else none
/-- The bits that a STORE writes, from its first unit on: data and mask (assumption 7, DESIGN CHOICE, unsafe). -/
def Packet.storeBits (p : Packet) : Nat × Nat :=
  let m := p.payload.toNat / 2 ^ 1024
  let mask := if p.len ≤ 128 ∧ m ≠ 0 then m else 2 ^ (8 * p.len) - 1
  ((p.payload.toNat % 2 ^ (8 * p.len)) <<< (8 * (p.loc % 128)), mask <<< (8 * (p.loc % 128)))
/-- The operation of an ATOMIC (08 R185, 18 R376). -/
def Packet.atomicOp (p : Packet) : Nat × LaneOp :=
  let f := p.aop.toNat
  let n := if f.testBit 2 then 8 else 4
  let b := BitVec.ofNat 64 (bitsOf p.payload.toNat 0 64)
  (n, if f / 8 = 10 then .cas n (BitVec.ofNat 64 (bitsOf p.payload.toNat 64 64)) b else .amo (f / 8) n b)
/-- The operand register that a CAS2, ENQ or CHASE carries. -/
def Packet.operand (p : Packet) : Vec := BitVec.ofNat 512 p.payload.toNat
/-- Whether two packets are of one request. -/
def Packet.sameRequest (p q : Packet) : Bool := p.dev == q.dev && p.core == q.core && p.tag == q.tag && p.inc == q.inc

end Sys2Proof

namespace Sys2Proof.Machine

/-! ### Admission (18 R368) -/

/-- The virtual cache that serves a packet at a local address, when an entry of the export table permits it (18 R368). -/
def State.permit (s : State) (p : Packet) (pa : Nat) (write : Bool) : Option Nat :=
  if 2 ^ 40 ≤ pa then none else s.exportVc p.domain pa fun w => w.getLsbD 60 && (!write || w.getLsbD 62)
/-- Each unit of an access with the cache that serves it; `none` when one is not admitted. -/
def State.admitAll (s : State) (p : Packet) (write : Bool) (us : List Nat) : Option (List (Nat × Nat)) :=
  us.mapM fun u => (s.permit p (max (128 * u) p.loc) write).map fun v => (v, u)
/-- Whether an earlier packet of the same core for a unit, by its number in the whole physical space, is still on its way (07 R160, R169). -/
def State.unitBehind (s : State) (id : Nat) (p : Packet) (u : Nat) : Bool :=
  (s.net.takeWhile fun g => g.id != id).any fun g => match g.pkt with
    | .pktIn q => decide (g.hold = .flying) && decide (q.opc < 6) && q.dev == p.dev && q.core == p.core && q.units.contains u
    | _ => false
/-- Whether no earlier packet of the same core for one of its units is still on its way; the later hops of a CHASE ask as they are reached. -/
def State.packetNext (s : State) (f : Flight) (p : Packet) : Bool := !p.units.any (s.unitBehind f.id p)

/-- What a memory stack agent makes of a packet. -/
inductive Msa where
  | wait (s : State)
  | reject
  | hold (s : State)
  | reply (s : State) (q : Packet)
/-- Serves an arrived packet of an operation code: it acts, is rejected without a reply, or waits (18 R377). -/
def State.serve (s : State) (id opc : Nat) (f : State → Nat → Packet → Msa) : Out :=
  match s.flight? id with
  | some g => match g.pkt with
    | .pktIn p =>
      if p.opc ≠ opc ∨ !s.pageLets g ∨ !s.packetNext g p then .next s
      else match f s id p with
        | .wait t => .next t
        | .reject =>
          let t : State := { s with dev := { s.dev with rejf := satInc s.dev.rejf } }
          .next (t.acted id)
        | .hold t => .next (t.acted id)
        | .reply t q => .next ((t.transmit p.dev q).acted id)
    | _ => .next s
  | none => .next s

/-- Takes units in ascending order for the packet of a message. -/
def State.seizeAll (s : State) (id : Nat) (excl : Bool) : List (Nat × Nat) → AtHome Unit
  | [] => .done s ()
  | (v, u) :: us => match s.seize (.msg id) v u excl with
    | .busy s => .busy s
    | .done s _ => s.seizeAll id excl us
/-- Reads a unit for a packet under its key: coherently, or a STAMPED one as it stands at the home (06 R149, R137). -/
def State.msaRead (s : State) (id : Nat) (p : Packet) (v u : Nat) : AtHome VUnit :=
  if p.cls = 1 then s.readPlain (.msg id) v p.domain u none else s.readAtHome (.msg id) v p.domain u
/-- Reads units in ascending order. -/
def State.msaReads (s : State) (id : Nat) (p : Packet) : List (Nat × Nat) → AtHome (List VUnit)
  | [] => .done s []
  | (v, u) :: us => match s.msaRead id p v u with
    | .busy s => .busy s
    | .done s x => match s.msaReads id p us with
      | .busy s => .busy s
      | .done s l => .done s (x :: l)

/-- Several units as one number, lowest first. -/
def unitsNat (l : List VUnit) : Nat := l.foldr (fun v a => v.data.toNat + a * 2 ^ 1024) 0
/-- DATA with STATUS 1 in place of n bytes of poisoned data (18 R377). -/
def poisonReply (p : Packet) (n : Nat) : Packet := replyTo p 8 1 n 0 false 0

/-! ### LOAD and STORE (18 R377) -/

/-- The stamp of the greatest age among units that a packet reads (06 R154). -/
def oldestStamp (i : BitVec 16) : List VUnit → BitVec 16
  | [] => i
  | [v] => v.stamp
  | v :: l => let t := oldestStamp i l; if ageOf i v.stamp < ageOf i t then t else v.stamp
/-- A LOAD at its home. -/
def msaLoad (s : State) (id : Nat) (p : Packet) : Msa :=
  match s.admitAll p false (unitsAt p.loc p.len) with
  | none => .reject
  | some us => match s.msaReads id p us with
    | .busy s => .wait s
    | .done s ws =>
      let st := oldestStamp p.stamp ws
      let fresh : Bool := p.cls != 1 || accepts p.lag p.stamp st
      if fresh || p.mode == 2 then
        .reply s (if ws.any fun v => v.poison then poisonReply p p.len
          else replyTo p 8 0 p.len st (!fresh) (bitsOf (unitsNat ws) (8 * (p.loc % 128)) (8 * p.len)))
      else if p.mode = 1 then .reply s (replyTo p 8 2 p.len st false 0)
      else match us with
        | (v, u) :: _ =>
          let home := s.homeCore v u
          if 32 ≤ s.bankWaiters home then .reply s (replyTo p 8 3 p.len 0 false 0)
          else .hold { s with stWaiters := s.stWaiters ++ [{
            home := home, unit := homeKey v u, core := p.core, op := 0, remote := some p, iter := p.stamp, lag := p.lag }] }
        | [] => .reject
/-- LOAD (18 R377). -/
def execLoad (id : Nat) (s : State) : Out := s.serve id 0 msaLoad

/-- Writes the bytes of a STORE in its units from number i on. -/
def State.storeUnits (s : State) (p : Packet) (us : List (Nat × Nat)) (i : Nat) : State :=
  let (d, m) := p.storeBits
  (us.zipIdx i).foldl (fun (s : State) (x : (Nat × Nat) × Nat) =>
    let w : Unit128 := BitVec.ofNat 1024 (bitsOf m (1024 * x.2) 1024)
    let v : Unit128 := BitVec.ofNat 1024 (bitsOf d (1024 * x.2) 1024)
    s.performAtHome x.1.1 p.domain x.1.2 (fun old => (old &&& ~~~w) ||| (v &&& w)) p.setsStamp (w == BitVec.allOnes 1024)) s
/-- A STORE at its home: of at most 128 bytes in one step, of more unit by unit. STATUS of a STORE that waits between its units counts those that
have performed. -/
def msaStore (s : State) (id : Nat) (p : Packet) : Msa :=
  let ack := replyTo p 9 0 0 0 false p.len
  match s.admitAll p true (unitsAt p.loc p.len) with
  | none => .reject
  | some us =>
    if p.len ≤ 128 then match s.seizeAll id true us with
      | .busy s => .wait s
      | .done s _ => .reply (s.storeUnits p us 0) ack
    else match us.drop p.status with
      | [] => .reply s ack
      | x :: l => match s.seize (.msg id) x.1 x.2 true with
        | .busy s => .wait s
        | .done s _ =>
          let s := s.storeUnits p [x] p.status
          if l.isEmpty then .reply s ack
          else .wait { s with net := mapIf (fun f => f.id == id) (fun f => { f with pkt := .pktIn { p with status := p.status + 1 } }) s.net }
/-- STORE (18 R377). -/
def execStore (id : Nat) (s : State) : Out := s.serve id 1 msaStore

/-! ### ATOMIC, CAS2 and ENQ (18 R377; 08 R186 to R188) -/

/-- An indivisible operation on n bytes of one unit; `res` gives the length and value of its reply. -/
def State.msaAtomic (s : State) (id : Nat) (p : Packet) (n : Nat) (op : LaneOp) (res : LaneRes → Nat × Nat) : Msa :=
  let pa := p.loc
  match s.permit p pa true with
  | none => .reject
  | some v => match s.seize (.msg id) v (pa / 128) true with
    | .busy s => .wait s
    | .done s _ =>
      let (s, x) := s.atomicBase v (pa / 128)
      let r := (chanLane p.pa n (.ctrl 0) op).on (pa % 128) (x.under p.domain).data (x.poisonFor p.domain)
      let (len, w) := res r
      if r.poison then .reply s (poisonReply p len)
      else
        let s := match r.new with
          | some d => s.performAtHome v p.domain (pa / 128) (fun _ => d) p.setsStamp false
          | none => s
        .reply s (replyTo p 8 0 len 0 false w)

/-- An ATOMIC at its home. -/
def msaAmo (s : State) (id : Nat) (p : Packet) : Msa :=
  let (n, op) := p.atomicOp
  s.msaAtomic id p n op fun r => (n, r.old.toNat)
/-- ATOMIC (18 R377). -/
def execAtomic (id : Nat) (s : State) : Out := s.serve id 2 msaAmo

/-- A CAS2 at its home: the bit after the operand register tells quad from pair (08 R187; assumption 7, DESIGN CHOICE, unsafe). -/
def msaCas2 (s : State) (id : Nat) (p : Packet) : Msa :=
  let quad := p.payload.getLsbD 512
  s.msaAtomic id p (if quad then 32 else 16) (.cas2 quad p.operand) fun r => (64, r.old.toNat + r.new.isSome.toNat * 2 ^ 256)
/-- CAS2 (08 R187). -/
def execCas2Packet (id : Nat) (s : State) : Out := s.serve id 3 msaCas2

/-- An ENQ at its home (08 R188): the link word takes the old head, and the head takes L. No alignment of the link word is checked; bytes of
it beyond the end of its unit are not written (assumption 56, DESIGN CHOICE, unsafe). -/
def msaEnq (s : State) (id : Nat) (p : Packet) : Msa :=
  let head := p.loc
  let link := bitsOf p.payload.toNat 512 42
  match s.permit p head true, s.permit p link true with
  | some v, some v' => match s.seizeAll id true [(v, head / 128), (v', link / 128)] with
    | .busy s => .wait s
    | .done s _ =>
      let (s, x) := s.atomicBase v (head / 128)
      if x.poisonFor p.domain then .reply s (poisonReply p 64)
      else
        let old := unitGet (x.under p.domain).data (head % 128) 8
        let s := s.performAtHome v' p.domain (link / 128) (fun d => unitPut d (link % 128) 8 old) p.setsStamp false
        let s := s.performAtHome v p.domain (head / 128) (fun d => unitPut d (head % 128) 8 (bitsOf p.payload.toNat 320 64)) p.setsStamp false
        .reply s (replyTo p 8 0 64 0 false old)
  | _, _ => .reject
/-- ENQ (08 R188). -/
def execEnq (id : Nat) (s : State) : Out := s.serve id 4 msaEnq

/-! ### CHASE (08 R189) -/

/-- Reads a doubleword for a packet, behind the earlier packets of its core for the unit (07 R169): `none` of a unit that is not admitted, an error
of poison. -/
def State.msaWord (s : State) (id : Nat) (p : Packet) (pa : Nat) : AtHome (Option (Option Nat)) :=
  if s.unitBehind id p ((p.pa.toNat / 2 ^ 42 * 2 ^ 42 + pa) / 128) then .busy s else
  match s.permit p pa false with
  | none => .done s none
  | some v => match s.msaRead id p v (pa / 128) with
    | .busy s => .busy s
    | .done s x => .done s (some (if x.poison then none else some (unitGet x.data (pa % 128) 8)))
/-- How a chase ends. -/
inductive Chased where
  | result (w : Nat)
  | poison
  | reject
/-- The result of a chase: p, the last key, the status and h (08 R189). -/
def chaseResult (ptr key status h : Nat) : Nat := ptr + key * 2 ^ 64 + status * 2 ^ 128 + h * 2 ^ 136
/-- The predicate of a chase on a key. -/
def chasePred (w : Vec) (key : Nat) : Bool :=
  let k := bitsOf w.toNat 256 64
  match bitsOf w.toNat 360 8 with
  | 0 => key == k
  | 1 => key != k
  | 2 => decide (key < k)
  | _ => decide (k ≤ key)
/-- The chase from a pointer, with the hops that are left. All of them perform in one step: no write of another agent falls between two (08 R189;
assumption 61, DESIGN CHOICE, unsafe). A key or next word that lies outside the first node's page is not read: the chase
ends with status 2 (assumption 61, DESIGN CHOICE, unsafe). -/
def State.chaseFrom (s : State) (id : Nat) (p : Packet) : Nat → Nat → Nat → Nat → AtHome Chased
  | 0, ptr, key, h => .done s (.result (chaseResult ptr key 3 h))
  | n + 1, ptr, key, h =>
    let w := p.operand
    let va := ptr % 2 ^ 56
    let first := bitsOf p.payload.toNat 512 56
    let size := 2 ^ bitsOf p.payload.toNat 576 6
    let at_ (off : Nat) : Nat := va + bitsOf w.toNat off 16
    let pa (a : Nat) : Nat := p.loc - first % size + a % size
    if ptr = 0 then .done s (.result (chaseResult ptr key 1 h))
    else if va / size ≠ first / size then .done s (.result (chaseResult ptr key 2 h))
    else if at_ 320 % 8 ≠ 0 ∨ at_ 336 % 8 ≠ 0 then .done s (.result (chaseResult ptr key 4 h))
    else if at_ 336 / size ≠ first / size then .done s (.result (chaseResult ptr key 2 h))
    else match s.msaWord id p (pa (at_ 336)) with
      | .busy s => .busy s
      | .done s none => .done s .reject
      | .done s (some none) => .done s .poison
      | .done s (some (some key)) =>
        if chasePred w key then .done s (.result (chaseResult ptr key 0 (h + 1)))
        else if n = 0 then .done s (.result (chaseResult ptr key 3 (h + 1)))
        else if at_ 320 / size ≠ first / size then .done s (.result (chaseResult ptr key 2 (h + 1)))
        else match s.msaWord id p (pa (at_ 320)) with
          | .busy s => .busy s
          | .done s none => .done s .reject
          | .done s (some none) => .done s .poison
          | .done s (some (some next)) => s.chaseFrom id p n next key (h + 1)
/-- A CHASE at its home. A poisoned word is answered with STATUS 1, as a load of it would be: its requester faults POISON when the answer
comes (assumption 61, DESIGN CHOICE, unsafe). -/
def msaChase (s : State) (id : Nat) (p : Packet) : Msa :=
  match s.permit p p.loc false with
  | none => .reject
  | some _ =>
    let n := bitsOf p.operand.toNat 352 8
    match s.chaseFrom id p (if n = 0 then 16 else n) (bitsOf p.payload.toNat 512 56) 0 0 with
    | .busy s => .wait s
    | .done _ .reject => .reject
    | .done s .poison => .reply s (poisonReply p 64)
    | .done s (.result w) => .reply s (replyTo p 8 0 64 0 false w)
/-- CHASE (08 R189). -/
def execChase (id : Nat) (s : State) : Out := s.serve id 5 msaChase

/-! ### WITHDRAW (18 R377) -/

/-- WITHDRAW (18 R377, 06 R151): the home removes the waiter of the load that timed out, or the load on its way to becoming one. -/
def execWithdraw (id : Nat) (s : State) : Out :=
  match s.flight? id with
  | some { pkt := .pktIn p, .. } =>
    if p.opc ≠ 6 then .next s
    else
      let ids := (s.net.filter fun f => match f.pkt with
        | .pktIn q => q.opc == 0 && q.sameRequest p
        | _ => false).map fun f => f.id
      let s := (s.drop id).withdraw ids
      .next { s with
        stWaiters := s.stWaiters.filter fun w => match w.remote with
          | some q => !q.sameRequest p
          | none => true }
  | _ => .next s

end Sys2Proof.Machine
end

