-- ==== Sys2Proof/Machine/Tile.lean ====
section
/-! DEFINITION. The tile instructions (13 R268 to R274). -/

namespace Sys2Proof.Machine

/-- A tile instruction waits while the tile is BUSY (13 R283). -/
def notBusyM (t : Nat) : M Unit := fun s => if s.mine.tileBusy t then holdM s else .ok ((), s)
/-- TILE_UNCONF for a tile without a shape (13 R274). -/
def configuredM (t : Nat) : M Unit := fun s =>
  if (s.mine.tile t).rows = 0 then faultM .tileUnconf (BitVec.ofNat 32 t) 0 s else .ok ((), s)
/-- Waits for the tile, checks its shape and loads it when it is LAZY. -/
def tileReadyM (t : Nat) : M Unit := do
  notBusyM t
  configuredM t
  let c ← getM fun s => s.curCore
  touchTileM c t
/-- POISON for an instruction that reads a poisoned tile (13 R272). -/
def unpoisonedM (t : Nat) : M Unit := fun s =>
  if (s.mine.tile t).psn then faultM .poison (BitVec.ofNat 32 t) 0 s else .ok ((), s)
/-- Replaces a tile of the issuing core. -/
def State.setTile (s : State) (t : Nat) (v : Tile) : State := s.modCore s.curCore fun k => k.setTile t v
/-- The memory part of a tile instruction: an access of the issuing context aligned to 4 (13 R274). -/
def tileAccessM (acc : Acc) (parts : List Part) (o : Op) : M Unit := do
  for p in parts do
    watchM p.va p.n (decide (acc = .read)) (decide (acc = .write))
  acquireM
  let ls ← resolveM true acc 4 parts
  issueM { o with lanes := ls } none

/-- tcfg (13 R274). -/
def execTcfg (m : Bool) (t : BitVec 3) (a : BitVec 5) (s : State) : Out :=
  let w := s.reg a
  let rows := fld w 0 5
  let rowb := fld w 8 7
  let fmt := fld w 16 5
  runM (do
    notBusyM t.toNat
    if rows = 0 ∨ shapeOk rows rowb fmt then
      modM fun s => s.setTile t.toNat { rows := rows, rowb := rowb, fmt := fmt, st := 0, psn := false, content := [] }
    else illegalM (encodeWord (.tcfg m t a))
    retireM m) s
/-- tzero (13 R274). -/
def execTzero (m : Bool) (t : BitVec 3) (s : State) : Out :=
  runM (do
    notBusyM t.toNat
    configuredM t.toNat
    modM fun s => s.setTile t.toNat { s.mine.tile t.toNat with st := 0, psn := false, content := [] }
    retireM m) s

/-- The bytes of a row that its shape holds. -/
def Tile.rowData (v : Tile) (i : Nat) : Vec := v.row i &&& v.rowMask i

/-- tldr (13 R274): the row is the result of a load. -/
def execTldr (m : Bool) (t : BitVec 3) (a : BitVec 5) (i : BitVec 6) (s : State) : Out :=
  runM (do
    tileReadyM t.toNat
    let v ← getM fun s => s.mine.tile t.toNat
    if v.rows ≤ i.toNat then retireM m
    else do
      let va ← getM fun s => ptrVa (s.reg a)
      let o ← getM fun s => { s.newOp with isLoad := true, fin := .tileRow t.toNat i.toNat }
      tileAccessM .read (splitParts (granule va) 0 va v.rowb .read 16) o
      retireM m) s
/-- The write of the bytes of a vector from an offset on. -/
def bytesOp (v : Vec) (off n : Nat) : LaneOp :=
  .write (BitVec.ofNat 512 (bitsOf v.toNat (8 * off) (8 * n))) (BitVec.ofNat 512 (2 ^ (8 * n) - 1))
/-- The parts of a store of a row's bytes. -/
def rowParts (g : Nat) (va : Addr) (n : Nat) (v : Vec) : List Part :=
  (splitParts g 0 va n .read 16).map fun p => { p with op := bytesOp v (p.va - va).toNat p.n }
/-- tstr (13 R274). -/
def execTstr (m : Bool) (t : BitVec 3) (a : BitVec 5) (i : BitVec 6) (s : State) : Out :=
  runM (do
    tileReadyM t.toNat
    unpoisonedM t.toNat
    let v ← getM fun s => s.mine.tile t.toNat
    if v.rows ≤ i.toNat then retireM m
    else do
      let va ← getM fun s => ptrVa (s.reg a)
      let o ← getM fun s => { s.newOp with isStore := true }
      tileAccessM .write (rowParts (granule va) va v.rowb (v.rowData i.toNat)) o
      retireM m) s
/-- tvrow (13 R274). -/
def execTvrow (m : Bool) (t : BitVec 3) (a : BitVec 5) (i : BitVec 6) (s : State) : Out :=
  runM (do
    tileReadyM t.toNat
    modM fun s =>
      let v := s.mine.tile t.toNat
      if v.rows ≤ i.toNat then s
      else s.setTile t.toNat { v.setRow i.toNat (s.vreg a &&& v.rowMask i.toNat) with st := 2 }
    retireM m) s
/-- trowv (13 R274): a result that returns later; zero beyond the shape. -/
def execTrowv (m : Bool) (t : BitVec 3) (a : BitVec 5) (i : BitVec 6) (s : State) : Out :=
  runM (do
    tileReadyM t.toNat
    unpoisonedM t.toNat
    modM fun s => s.issueResult m [.vec a.toNat ((s.mine.tile t.toNat).rowData i.toNat) (BitVec.allOnes 512)]) s
/-- tvcol (13 R274). -/
def execTvcol (m : Bool) (t : BitVec 3) (a : BitVec 5) (i : BitVec 6) (s : State) : Out :=
  runM (do
    tileReadyM t.toNat
    modM fun s =>
      let v := s.mine.tile t.toNat
      let e := fmtBytes v.fmt
      if v.rowb / e ≤ i.toNat then s
      else s.setTile t.toNat { (List.range v.rows).foldl (fun (v : Tile) r =>
        v.setRow r (lanes e (1#64 <<< i.toNat) (v.rowData r) fun _ => lane e (s.vreg a) r)) v with st := 2 }
    retireM m) s
/-- tcolv (13 R274): a result that returns later. -/
def execTcolv (m : Bool) (t : BitVec 3) (a : BitVec 5) (i : BitVec 6) (s : State) : Out :=
  runM (do
    tileReadyM t.toNat
    unpoisonedM t.toNat
    modM fun s =>
      let v := s.mine.tile t.toNat
      let e := fmtBytes v.fmt
      let col := lanes e (BitVec.allOnes 64) 0 fun r =>
        if r < v.rows ∧ i.toNat < v.rowb / e then lane e (v.rowData r) i.toNat else 0
      s.issueResult m [.vec a.toNat col (BitVec.allOnes 512)]) s
/-- tsave (13 R274): eight whole units at TSAVEP + 1024·m, with the tile's poison (13 R272). -/
def execTsave (m : Bool) (t : BitVec 3) (s : State) : Out :=
  runM (do
    tileReadyM t.toNat
    let v ← getM fun s => s.mine.tile t.toNat
    if v.st = 1 then retireM m
    else do
      let p ← getM fun s => s.mine.tsavep
      let base : Addr := BitVec.ofNat 56 (p.toNat % 2 ^ 56 + 1024 * t.toNat)
      let parts : List Part := (List.range 16).map fun i =>
        { ix := i, va := base + BitVec.ofNat 56 (64 * i), n := 64, op := .save (v.rowData i) v.psn }
      let o ← getM fun s => { s.newOp with isStore := true }
      tileAccessM .write parts o
      modM fun s => s.setTile t.toNat { s.mine.tile t.toNat with st := 1 }
      retireM m) s
/-- tstat (13 R274): no fault, no wait, no lazy load. -/
def execTstat (m : Bool) (t : BitVec 3) (a : BitVec 5) (s : State) : Out :=
  .next (s.issueResult m [.scalar (s.dst a) (BitVec.ofNat 64 (s.mine.tshape t.toNat))])

end Sys2Proof.Machine
end

