-- ==== Sys2Proof/Machine/Matrix.lean ====
section
/-! DEFINITION. The matrix unit: engine registers (13 R275, R276), mma and mmar (13 R277 to R288), the sequencer's steps (13
R281, 09 R210 to R212) and the tile fetch unit (09 R207). -/

namespace Sys2Proof.Machine

/-- mxw (13 R276): a user write of MXSTEP faults PRIV. -/
def execMxw (m : Bool) (a : BitVec 5) (r : BitVec 8) (s : State) : Out :=
  if r = 5 ∧ s.me.mode = .user then .next (s.faultHere (accFault .priv 0 0))
  else .next ((s.csrWrite s.curCore s.curCtx (0x200 + r.toNat) (s.reg a) none).retire m)
/-- mxr (13 R276). -/
def execMxr (m : Bool) (a : BitVec 5) (r : BitVec 8) (s : State) : Out :=
  .next (s.issueResult m [.scalar (s.dst a) (s.csrRead s.curCore s.curCtx (0x200 + r.toNat))])

/-! ### Checks at issue (13 R278 to R280) -/

/-- Whether a format belongs to the pairs of the 512 MAC/cycle row. -/
def mixFmt (f : Nat) : Bool := decide (9 ≤ f) && decide (f ≤ 16)
/-- The destination format of a supported pair (13 R278). -/
def pairDst (fa fb : Nat) : Option Nat :=
  if fa = 1 ∧ fb = 1 then some 4
  else if (fa = fb ∧ (fa = 6 ∨ fa = 7 ∨ fa = 8 ∨ fa = 17)) ∨ (mixFmt fa && mixFmt fb) then some 8
  else none
/-- Whether both operands and K agree with 13 R278 and R280: the destination format. -/
def pairOk (a b : Word) (k : Nat) : Option Nat :=
  let fa := ptrFmt a
  let fb := ptrFmt b
  if fmtCheckFails fa (ptrBlog a) || fmtCheckFails fb (ptrBlog b) || decide (65536 < k) ||
    ((decide (11 ≤ fa) || decide (11 ≤ fb)) && k % 32 != 0) then none
  else pairDst fa fb
/-- The tiles of a group that exist. -/
def groupTiles (g t : Nat) : List Nat :=
  if 6 ≤ g then [] else ((List.range ((grpShape g).1 * (grpShape g).2)).map fun i => t + i).filter fun i => decide (i < 8)
/-- Whether a group shape is legal at a first tile (13 R279). -/
def groupOk (g t : Nat) : Bool := decide (g < 6) && decide (t + (grpShape g).1 * (grpShape g).2 ≤ 8)
/-- Whether the tiles of a group agree in shape and hold a destination format (13 R280, order 3). -/
def Core.groupShapes (k : Core) (g t dst : Nat) : Bool :=
  let v := k.tile t
  (groupTiles g t).all fun i =>
    let u := k.tile i
    u.rows == v.rows && u.rowb == v.rowb && u.fmt == v.fmt && u.fmt == dst
/-- GRP, ACC, TARGET and TAG of MXCFG (13 R275). -/
def Core.mxGrp (k : Core) : Nat := fld k.mxcfg 1 3
def Core.mxAcc (k : Core) : Bool := k.mxcfg.getLsbD 0
def Core.mxTarget (k : Core) : Nat := fld k.mxcfg 16 13
def Core.mxTag (k : Core) : Nat := fld k.mxcfg 32 16
/-- VA of the barrier object of MXBAR. -/
def barVa (w : Word) : Addr := BitVec.ofNat 56 (w.toNat % 2 ^ 56 / 32 * 32)

/-- Captures the engine registers (13 R275). -/
def State.captureMx (s : State) (t : Nat) (neg : Bool) (a b : Word) : MxOp :=
  let k := s.mine
  { id := s.nextId, tile := t, neg := neg, a := a, b := b, k := k.mxk.toNat, sa := k.mxsa, sb := k.mxsb, grp := k.mxGrp,
    acc := k.mxAcc, bar := k.mxbar, mode := s.me.mode, launch := (s.launchOf s.curCore).map fun l => l.serial, issuer := some s.curCtx, origin := s.curCore,
    step := 0, begun := false, opErr := false, uncorr := false, ecc := false, nan := false, ovf := false, first := 0,
    abandoned := false }

/-- Orders 5 and 6 of 13 R280: alignment, local operands, and the barrier object. -/
def operandsM (o : MxOp) : M Unit := do
  let fa := ptrFmt o.a
  let fb := ptrFmt o.b
  alignM (ptrVa o.a) (elemAlign fa)
  alignM (ptrVa o.b) (elemAlign fb)
  if o.sa.toNat % elemAlign fa ≠ 0 ∨ o.sb.toNat % elemAlign fb ≠ 0 then faultM .misalign 0 0
  else if (ptrVa o.a).getLsbD 55 then faultM .xlate 0 (ptrVa o.a)
  else if (ptrVa o.b).getLsbD 55 then faultM .xlate 0 (ptrVa o.b)
  else if barVa o.bar = 0 then return ()
  else do
    let _ ← trackedPageM .write (barVa o.bar)
    return ()

/-- mma (13 R280): checked in order, then enqueued; it waits for BUSY tiles and for a place in the queue (13 R283). -/
def execMma (m : Bool) (t : BitVec 3) (a b : BitVec 5) (n : BitVec 1) (s : State) : Out :=
  let o := s.captureMx t.toNat (n = 1) (s.reg a) (s.reg b)
  let word := encodeWord (.mma m t a b n)
  let ts := groupTiles o.grp t.toNat
  runM (do
    engineM
    acquireM
    if ts.any (fun i => s.mine.tileBusy i) || decide (4 ≤ s.mine.mxq.length) then holdM
    match ts.find? fun i => (s.mine.tile i).rows == 0 with
    | some i => faultM .tileUnconf (BitVec.ofNat 32 i) 0
    | none =>
      if o.acc then
        for i in ts do
          touchTileM s.curCore i
      match pairOk o.a o.b o.k with
      | none => illegalM word
      | some dst =>
        if !groupOk o.grp t.toNat || !s.mine.groupShapes o.grp t.toNat dst then illegalM word
        else match (if o.acc then ts.find? fun i => (s.mine.tile i).psn else none) with
          | some i => faultM .poison (BitVec.ofNat 32 i) 0
          | none => do
            operandsM o
            modM fun s => { s.modCore s.curCore fun k => { k with mxq := k.mxq ++ [{ o with id := s.nextId }] } with nextId := s.nextId + 1 }
            retireM m) s

/-- mmar (13 R287): the issuer's checks, then one command message to the target. -/
def execMmar (m : Bool) (t : BitVec 3) (a b : BitVec 5) (n : BitVec 1) (s : State) : Out :=
  let o := s.captureMx t.toNat (n = 1) (s.reg a) (s.reg b)
  let word := encodeWord (.mmar m t a b n)
  let k := s.mine
  let groups := (List.range 4).filterMap fun i =>
    let g := tget k.grp i 0
    if g.getLsbD 8 then some (g.setWidth 8) else none
  runM (do
    engineM
    acquireM
    if (pairOk o.a o.b o.k).isNone || !groupOk o.grp t.toNat then illegalM word
    else do
      operandsM o
      modM fun s => s.send (.mmar k.mxTarget { o with issuer := none } (BitVec.ofNat 16 k.mxTag) groups)
      retireM m) s

/-! ### Operands (09 R207) -/

/-- What a read of an operand unit gives. -/
inductive Fetch where
  | got (q : OpUnit)
  | poison
  | refused
  | wait

/-- Reads an operand unit at its home: TRACKED ones coherently, and STAMPED and UNTRACKED ones as they stand there; the Boolean says that it may
be pinned. Where the line that would have to leave for it holds a pinned unit, it is read without one, and not pinned: a step runs whatever
number of units it needs, and no fetch waits for a pin (09 R208, R209; assumption 77, DESIGN CHOICE, unsafe). -/
def State.operandAt (s : State) (c : Nat) (e : TlbEnt) (u : Nat) : AtHome (VUnit × Bool) :=
  let w : Writer := .agent 3 c
  if s.pinBars e.vcid u (some c) then match s.pageGate w u with
    | (s, false) => .busy s
    | (s, true) =>
      if (s.home e.vcid u).asksHost false then .busy ((s.snoopHost e.vcid u false).waitAt w e.vcid u false)
      else let v := s.hbmUnit u; .done (s.turnOver w) ({ v.under e.key with poison := v.poisonFor e.key }, false)
  else match (if e.cls = .tracked then s.readFor w e.vcid e.key u (some c) else s.readPlain w e.vcid e.key u (some c)) with
    | .busy s => .busy s
    | .done s v => .done s (v, decide (e.cls = .tracked))
/-- Reads one operand unit: at its home, at the attachment in the host window, or from another device by a packet (09 R207, 01 R26). -/
def State.readOperand (s : State) (c : Nat) (sup : Bool) (u : Nat) : State × Fetch :=
  match s.engineXlate c (s.core c).domain 2 0 sup .read (BitVec.ofNat 56 (128 * u)) with
  | (.wait, s) => (s, .wait)
  | (.bad _, s) => (s, .refused)
  | (.hit (.unit e pa), s) => match s.operandAt c e (pa / 128) with
    | .busy s => (s, .wait)
    | .done s (v, pins) => (s, if v.poison then .poison else .got { va := u, data := v.data, pin := if pins then some (e.vcid, pa / 128) else none })
  | (.hit (.host _ pa), s) => (s, .got { va := u, data := BitVec.ofNat 1024 (s.hostMem.read pa 128), pin := none })
  | (.hit (.remote e pa), s) => match s.readByPacket c mxCtx e pa (128 * u) with
    | (s, none) => (s, .wait)
    | (s, some (.ok v)) => (s, .got { va := u, data := v.data, pin := none })
    | (s, some (.error f)) => (s, if f = .poison then .poison else .refused)
  | (.hit (.ctrl _ _), s) => (s, .refused)

/-- The units that a core's tile fetch unit has pinned, each once (09 R208). -/
def Core.pins (k : Core) : List (Nat × Nat) := (k.mxbuf.filterMap fun q => q.pin).eraseDups
/-- Keeps a unit that was read for the running step: a TRACKED one is pinned, in S at its home, while fewer than 64 units are (06 R136, 09
R208); beyond them it stays in the operand buffer alone. -/
def State.keepUnit (s : State) (c : Nat) (q : OpUnit) : State :=
  let keep (s : State) (q : OpUnit) : State := s.modCore c fun k => { k with mxbuf := k.mxbuf ++ [q] }
  match q.pin with
  | none => keep s q
  | some (v, u) =>
    let ps := (s.core c).pins
    if ps.contains (v, u) ∨ ps.length < 64 then
      keep (s.modHome v u fun h => { h with sharers := addSharer h.sharers (16384 + c), dir := .s }) q
    else keep s { q with pin := none }
/-- Releases every pin of a core and empties its operand buffer: what a pin held goes on, and a unit that it kept at its old home stands
under the layout in force (09 R208, R210, 05 R125). -/
def State.unpinAll (s : State) (c : Nat) : State :=
  let ps := (s.core c).pins
  let s := s.modCore c fun k => { k.dropAgentOps mxCtx with mxbuf := [] }
  ps.foldl (fun s p =>
    let s := s.release p.1 p.2 (16384 + c)
    if s.pinned p.1 p.2 then s else s.modCdr p.1 fun r => { r with stay := tdel r.stay p.2 }) s

/-- How the reads of a step have gone. -/
inductive Reads where
  | all
  | wait
  | refused
  | poison
  deriving DecidableEq, Repr
/-- Reads the units of a step in order, but for those that its buffer holds, until one cannot be used. -/
def State.fetchUnits (s : State) (c : Nat) (sup : Bool) : List Nat → State × Reads
  | [] => (s, .all)
  | u :: us =>
    if (s.core c).mxbuf.any fun q => q.va == u then s.fetchUnits c sup us
    else match s.readOperand c sup u with
      | (s, .got q) => (s.keepUnit c q).fetchUnits c sup us
      | (s, .poison) => (s, .poison)
      | (s, .refused) => (s, .refused)
      | (s, .wait) => (s, .wait)

/-- The bytes of an operand as the fetched units hold them. -/
def operandBytes (got : List OpUnit) (va n : Nat) : Nat :=
  packLanes 8 (fun i =>
    let a := (va + i) % 2 ^ 56
    match got.find? fun q => q.va == a / 128 with
    | some q => unitGet q.data (a % 128) 1
    | none => 0) n

/-- The units of VA / 128 that n bytes at an address touch. -/
def vaUnits (va : Addr) (n : Nat) : List Nat := [va.toNat / 128, (va + BitVec.ofNat 56 (n - 1)).toNat / 128]
/-- The units of element k of a row. -/
def elemUnits (f : Nat) (row : Addr) (k : Nat) : List Nat :=
  let e := elemAt f row k
  vaUnits e.va e.n ++ (match e.scale with
    | some a => vaUnits a 1
    | none => [])
/-- The value of element k of a row without its block scale, and the scale (02 R59: an unblocked operand has 2^0). -/
def elemValue (got : List OpUnit) (f : Nat) (row : Addr) (k : Nat) : FVal × Nat :=
  let e := elemAt f row k
  let raw := operandBytes got e.va.toNat e.n
  if f < 11 then (codeValue f raw, 127)
  else if f = 16 then (mxElem 16 ((ec8Codes raw).getD e.bit 0), raw % 256)
  else (mxElem f (bitsOf raw e.bit (mxBits f)), match e.scale with
    | some a => operandBytes got a.toNat 1
    | none => 127)

/-! ### One step (13 R281, 02 R59 to R61) -/

/-- A row of A, or a column of B, as the sequencer addresses it (13 R279). -/
def rowStart (base : Word) (stride : BitVec 32) (r : Nat) : Addr := ptrVa base + BitVec.ofInt 56 (stride.toInt * r)
/-- The exact sum of signed products over K indices; the products' zeros keep their signs (02 R59). -/
def dotExact (neg : Bool) (xs : List (FVal × FVal)) : FVal :=
  match xs.map (fun p => let v := p.1.mul p.2; if neg then v.neg else v) with
  | [] => .zero
  | v :: l => l.foldl (FVal.add .rne) v
/-- Rounds an accumulation to FP32: the code, whether a NaN was produced, and whether it overflowed (02 R61). -/
def accRound (v : FVal) : Nat × Bool × Bool :=
  match v with
  | .nan => (fp32.nan, true, false)
  | .inf s => (fp32.infCode s, false, false)
  | .fin s m e => let (c, o) := fp32.round .ieee .rne s m e false; (c, false, o)
/-- One accumulation C + p. -/
def accAdd (st : Nat × Bool × Bool) (p : FVal) : Nat × Bool × Bool :=
  let (c, n, o) := accRound ((fp32.decode st.1).add .rne p)
  (c, st.2.1 || n, st.2.2 || o)
/-- Splits a list into groups of n. -/
def chunks {α : Type} (n : Nat) : Nat → List α → List (List α)
  | 0, _ => []
  | fuel + 1, l => if l.isEmpty then [] else l.take n :: chunks n fuel (l.drop n)

/-- An accumulator element after the K indices ks of a step (02 R59, R60). -/
def accumulate (got : List OpUnit) (neg : Bool) (fa fb : Nat) (ra rb : Addr) (ks : List Nat) (c : Nat) : Nat × Bool × Bool :=
  let xs := ks.map fun k => (elemValue got fa ra k, elemValue got fb rb k)
  let vals := xs.map fun p => (p.1.1, p.2.1)
  if fa = 1 then
    let sum := vals.foldl (fun (t : Int) p => match p.1.mul p.2 with
      | .fin s m _ => t + (if s != neg then -(m : Int) else m)
      | _ => t) (signedOf 32 c)
    ((BitVec.ofInt 32 sum).toNat, false, false)
  else if fa = 8 then vals.foldl (fun st p => accAdd st (dotExact neg [p])) (c, false, false)
  else if fa = 6 ∨ fa = 7 then (chunks 8 4 vals).foldl (fun st g => accAdd st (dotExact neg g)) (c, false, false)
  else
    let scale (p : FVal) : FVal := match xs with
      | x :: _ => if x.1.2 = 255 ∨ x.2.2 = 255 then .nan else (p.scale ((x.1.2 : Int) - 127)).scale ((x.2.2 : Int) - 127)
      | [] => p
    accAdd (c, false, false) (scale (dotExact neg vals))

/-- Rows of A and columns of B of an operation on its core's tiles (13 R279). -/
def MxOp.dims (o : MxOp) (k : Core) : Nat × Nat :=
  let v := k.tile o.tile
  ((grpShape o.grp).1 * v.rows, (grpShape o.grp).2 * (v.rowb / 4))
/-- Number of steps. -/
def MxOp.steps (o : MxOp) : Nat := (o.k + 31) / 32
/-- K indices of step t. -/
def MxOp.ks (o : MxOp) (t : Nat) : List Nat := (List.range (min 32 (o.k - 32 * t))).map fun i => 32 * t + i
/-- The units of a step, in the order of its elements. -/
def MxOp.units (o : MxOp) (k : Core) (t : Nat) : List Nat :=
  let (mm, nn) := o.dims k
  let side (f : Nat) (base : Word) (stride : BitVec 32) (n : Nat) : List Nat :=
    (List.range n).flatMap fun r => (o.ks t).flatMap fun i => elemUnits f (rowStart base stride r) i
  (side (ptrFmt o.a) o.a o.sa mm ++ side (ptrFmt o.b) o.b o.sb nn).foldl addOnce []

/-- Element (r, c) of the group's tiles. -/
def Core.groupElem (k : Core) (o : MxOp) (r c : Nat) : Nat :=
  let v := k.tile o.tile
  let t := o.tile + (grpShape o.grp).2 * (r / v.rows) + c / (v.rowb / 4)
  lane 4 ((k.tile t).rowData (r % v.rows)) (c % (v.rowb / 4))
/-- Replaces every element of the group's tiles. -/
def Core.setGroup (k : Core) (o : MxOp) (f : Nat → Nat → Nat) : Core :=
  let v := k.tile o.tile
  let nt := v.rowb / 4
  o.tiles.foldl (fun k t =>
    let i := t - o.tile
    let gr := i / (grpShape o.grp).2
    let gc := i % (grpShape o.grp).2
    let tl := (List.range v.rows).foldl (fun (tl : Tile) r =>
      tl.setRow r (BitVec.ofNat 512 (packLanes 32 (fun c => f (gr * v.rows + r) (gc * nt + c)) nt))) (k.tile t)
    k.setTile t { tl with st := 2 }) k

/-- The elements of step t with the operand units at hand. -/
def Core.stepElems (k : Core) (o : MxOp) (t : Nat) (got : List OpUnit) (r c : Nat) : Nat × Bool × Bool :=
  accumulate got o.neg (ptrFmt o.a) (ptrFmt o.b) (rowStart o.a o.sa r) (rowStart o.b o.sb c) (o.ks t) (k.groupElem o r c)
/-- Every position of an output. -/
def positions (mm nn : Nat) : List (Nat × Nat) := (List.range mm).flatMap fun r => (List.range nn).map fun c => (r, c)

/-- The queue with its first operation replaced. -/
def Core.setMx (k : Core) (o : MxOp) : Core :=
  { k with mxq := match k.mxq with
      | _ :: l => o :: l
      | [] => [] }
/-- Starts an operation that has `begun`: with ACC = 0 the tiles are zero, DIRTY and no longer poisoned (13 R281, R282). -/
def Core.beginMx (k : Core) (o : MxOp) : Core :=
  let k := k.setMx o
  if o.acc then k else o.tiles.foldl (fun k t => k.setTile t { k.tile t with content := [], psn := false, st := 2 }) k

/-- Whether a tile instruction or window write issued earlier to the operation's tiles is still on its way (13 R283). -/
def State.tileWritesOut (s : State) (c : Nat) (ts : List Nat) : Bool :=
  s.cores.any fun p => p.2.ops.any fun o =>
    (p.1 == c && (match o.fin with
      | .tileRow t _ => ts.contains t
      | _ => false)) ||
    o.lanes.any fun l => !l.done && (match l.place with
      | .tile c' t _ => c' == c && ts.contains t
      | _ => false)

/-- The status word (13 R285). -/
def MxOp.status (o : MxOp) (denied : Bool) : Word :=
  let first := if o.opErr ∨ o.uncorr then min o.first 255 else 0
  BitVec.ofNat 64 (1 + o.opErr.toNat * 2 + o.ecc.toNat * 4 + o.uncorr.toNat * 8 + o.nan.toNat * 16 + o.ovf.toNat * 32
    + denied.toNat * 64 + o.abandoned.toNat * 128 + first * 256 + o.step * 65536)

/-- Writes the status word and completes at the operation's object, if it names one (13 R285). -/
def State.completeMxAt (s : State) (w : Writer) (c : Nat) (o : MxOp) (denied : Bool) : AtHome Unit :=
  if barVa o.bar = 0 then .done s () else
  match s.completeVa w c (s.core c).domain 2 0 (decide (o.mode = .supervisor)) (barVa o.bar) (some (o.status denied)) false
      (if o.bar.getLsbD 0 then .beat else .arrive) with
  | .busy s => .busy s
  | .done s _ => .done s ()

/-- Ends the core's first operation: its tiles cease to be BUSY and PEND clears, and STEP counts the steps of one that was killed (13 R285, 09
R212). The next one does not start while the core, or its issuing context, is halted. -/
def State.completeMx (s : State) (c : Nat) (o : MxOp) : State :=
  match s.completeMxAt (.agent 7 c) (s.forwarded o.origin) o false with
  | .busy s => s
  | .done s _ => s.modCore c fun k =>
    let k := { k.dropAgentOps mxCtx with
      mxq := k.mxq.drop 1, mxpend := false, mxstep := if o.abandoned && o.begun then BitVec.ofNat 32 o.step else k.mxstep }
    match k.mxq with
    | [] => { k with mxstop := 0 }
    | n :: _ =>
      let halted : Bool := match n.issuer with
        | some x => decide ((k.ctx x).st = .halted)
        | none => false
      { k with mxstop := k.mxstop / 2 * 2 + halted.toNat }

/-- A step is over, at an interrupt point: every pin is released, and an operation that was interrupted meanwhile stops there (09 R210, R212). -/
def State.stepped (s : State) (c : Nat) : State := (s.unpinAll c).modCore c Core.stopMx
/-- The step at which OPERR or UNCORR was set first, when step t sets one (13 R285). -/
def MxOp.firstAt (o : MxOp) (t : Nat) : Nat := if o.opErr || o.uncorr then o.first else t
/-- An operand unit that is poisoned or holds an uncorrectable error stops an operation at a step and poisons its tiles (13 R284). -/
def State.spoilMx (s : State) (c : Nat) (o : MxOp) (t : Nat) : State :=
  (s.modCore c fun k =>
    let k := k.setMx { o with opErr := true, uncorr := true, first := o.firstAt t, step := t }
    o.tiles.foldl (fun k i => k.setTile i { k.tile i with psn := true }) k).stepped c

/-- One step, or what stops it (13 R281, R284). One that waits for an operand keeps those that it has read (09 R208). -/
def State.stepMx (s : State) (c : Nat) (o : MxOp) (t : Nat) : State :=
  let us := o.units (s.core c) t
  let (s, f) := s.fetchUnits c (decide (o.mode = .supervisor)) us
  let k := s.core c
  let got := k.mxbuf
  let (mm, nn) := o.dims k
  let upd (s : State) (o : MxOp) (g : Nat → Nat → Nat) : State := s.modCore c fun k => (k.setMx o).setGroup o g
  match f with
  | .wait => s
  | .all =>
    let res := (positions mm nn).map fun p => k.stepElems o t got p.1 p.2
    let o := { o with step := t + 1, nan := o.nan || res.any (fun x => x.2.1), ovf := o.ovf || res.any (fun x => x.2.2) }
    (upd s o fun r c => (res.getD (r * nn + c) (0, false, false)).1).stepped c
  | .poison => s.spoilMx c o t
  | .refused =>
    -- elements whose operands were read before the refusal may already be updated
    let n := s.nextId
    let o := { o with opErr := true, first := o.firstAt t, step := t }
    let ready (r c : Nat) : Bool := (o.ks t).all fun i =>
      (elemUnits (ptrFmt o.a) (rowStart o.a o.sa r) i ++ elemUnits (ptrFmt o.b) (rowStart o.b o.sb c) i).all fun u =>
        got.any fun q => q.va == u
    (upd { s with nextId := n + 1 } o fun r c =>
      if ready r c && Config.partlyUpdated n (r * nn + c) then (k.stepElems o t got r c).1 else k.groupElem o r c).stepped c

/-- Reads units for a lazy load, in order and without pins. -/
def State.readUnitsOf (s : State) (c : Nat) (sup : Bool) : List Nat → List OpUnit → State × Reads × List OpUnit
  | [], acc => (s, .all, acc)
  | u :: us, acc => match s.readOperand c sup u with
    | (s, .got q) => s.readUnitsOf c sup us (acc ++ [q])
    | (s, .poison) => (s, .poison, acc)
    | (s, .refused) => (s, .refused, acc)
    | (s, .wait) => (s, .wait, acc)
/-- Reads a LAZY tile's image as the core's matrix unit (13 R270). -/
def State.lazyByUnit (s : State) (c : Nat) (sup : Bool) (t : Nat) : State × Reads :=
  let base := (s.core c).tsavep.toNat % 2 ^ 56 / 128 + 8 * t
  let (s, f, got) := s.readUnitsOf c sup ((List.range 8).map fun i => base + i) []
  if f = .all then
    (s.modCore c fun k => (k.dropAgentOps mxCtx).setTile t ((List.range 16).foldl (fun (v : Tile) i =>
      v.setRow i (BitVec.ofNat 512 (operandBytes got (128 * base + 64 * i) 64))) { k.tile t with st := 1, content := [] }), .all)
  else (s, f)
/-- Loads every LAZY tile of a list. -/
def State.lazyAll (s : State) (c : Nat) (sup : Bool) : List Nat → State × Reads
  | [] => (s, .all)
  | t :: ts =>
    if ((s.core c).tile t).st = 3 then match s.lazyByUnit c sup t with
      | (s, .all) => s.lazyAll c sup ts
      | r => r
    else s.lazyAll c sup ts

/-- MATRIX_STEP: the sequencer of a core goes on with a step of its first operation, or completes it. A step that has begun is finished
first. A halted or interrupted operation waits; one that was abandoned ends with bit 7 (09 R210 to R212, 13 R281). A tile that was poisoned
after the checks at issue is met when the operation reads its destination (13 R284). One that a migration made LAZY since then is loaded
first, as an operand is (13 R270; assumption 64, DESIGN CHOICE, unsafe). -/
def execMatrixStep (core : Nat) (s : State) : Out :=
  let k := s.core core
  match k.mxq with
  | [] => .next s
  | o :: _ =>
    if !k.mxbuf.isEmpty then .next (s.stepMx core o o.step)
    else if o.abandoned then .next (s.completeMx core o)
    else if k.mxstop ≠ 0 ∨ (!o.begun && s.tileWritesOut core o.tiles) then .next s
    else
      let (s, f) := if !o.begun ∧ o.acc then s.lazyAll core (decide (o.mode = .supervisor)) o.tiles else (s, .all)
      if f = .wait then .next s
      else
        let bad : Bool := !o.begun && o.acc && o.tiles.any fun t => ((s.core core).tile t).psn
        let o := { o with
          begun := true, step := if k.mxpend then k.mxstep.toNat else o.step
          opErr := o.opErr || decide (f ≠ .all), uncorr := o.uncorr || bad || decide (f = .poison) }
        let s := s.modCore core fun k => match k.mxq with
          | p :: _ => if p.begun then k.setMx o else k.beginMx o
          | [] => k
        if o.opErr ∨ o.steps ≤ o.step then .next (s.completeMx core o)
        else .next (s.stepMx core o o.step)

/-- An uncorrectable error in an operand unit of the operation that runs (13 R284). -/
def State.operandError (s : State) (c : Nat) : State :=
  match (s.core c).mxq with
  | o :: _ => if o.begun && !o.opErr then s.spoilMx c o o.step else s
  | [] => s
/-- An uncorrectable error in a tile poisons it; the operation that runs on the tile runs on (13 R272, R284). -/
def State.tileError (s : State) (c t : Nat) : State :=
  s.modCore c fun k =>
    let k := k.setTile t { k.tile t with psn := true }
    match k.mxq with
    | o :: _ => if o.begun && o.tiles.contains t then k.setMx { o with uncorr := true, first := o.firstAt o.step } else k
    | [] => k
/-- A corrected error in a tile of the operation that runs (13 R284). -/
def State.tileCorrected (s : State) (c t : Nat) : State :=
  s.modCore c fun k => match k.mxq with
    | o :: _ => if o.begun && o.tiles.contains t then k.setMx { o with ecc := true } else k
    | [] => k

/-! ### Remote commands (13 R287, R288) -/

/-- Whether one of CAPT0 to CAPT3 admits a tag and a group. -/
def Core.captures (k : Core) (tag : BitVec 16) (groups : List (BitVec 8)) : Bool :=
  (List.range 4).any fun i =>
    let w := tget k.capt i 0
    w.getLsbD 24 && w.setWidth 16 == tag && groups.any fun g => g == w.extractLsb' 16 8

/-- Orders 2 to 4 of 13 R280 on the target's tiles. -/
def Core.admits (k : Core) (o : MxOp) : Bool :=
  let ts := groupTiles o.grp o.tile
  ts.all (fun i => decide ((k.tile i).rows ≠ 0)) && groupOk o.grp o.tile &&
    (match pairOk o.a o.b o.k with
      | some dst => k.groupShapes o.grp o.tile dst
      | none => false) && (!o.acc || ts.all fun i => !(k.tile i).psn)

/-- A refused command completes at the issuer's object with DENIED (13 R287). -/
def State.denyMx (s : State) (id : Nat) (o : MxOp) : State :=
  match s.completeMxAt (.msg id) (s.forwarded o.origin) o true with
  | .busy s => s
  | .done s _ => s.drop id

/-- MMAR_COMMAND: a command is admitted or refused at its target; it waits for BUSY tiles and for a place in the queue
(13 R287, R283). A command for a migrated core follows its forwarding entry (17 R363). -/
def execMmarCommand (id : Nat) (s : State) : Out :=
  match s.flight? id with
  | some { pkt := .mmar dst o tag groups, .. } =>
    let c := s.forwarded dst
    let k := s.core c
    let runs : Bool := match o.launch, s.launchOf c with
      | some n, some l => l.serial == n
      | _, _ => false
    if k.moving then .next s
    else if !s.isCompute c || !runs || !k.captures tag groups then .next (s.denyMx id o)
    else if (groupTiles o.grp o.tile).any (fun i => k.tileBusy i) ∨ 4 ≤ k.mxq.length then .next s
    else
      let (s, f) := if o.acc ∧ (groupTiles o.grp o.tile).all (fun i => decide ((k.tile i).rows ≠ 0))
        then s.lazyAll c (decide (o.mode = .supervisor)) (groupTiles o.grp o.tile) else (s, .all)
      match f with
      | .wait => .next s
      | .all =>
        if !(s.core c).admits o then .next (s.denyMx id o)
        else .next ((s.drop id).modCore c fun k => { k with mxq := k.mxq ++ [o] })
      | _ => .next (s.denyMx id { o with opErr := true })
  | _ => .next s

end Sys2Proof.Machine
end

