-- ==== Sys2Proof/Machine/Ecc.lean ====
section
/-! DEFINITION. Errors that SECDED finds (17 R364): where they strike is the environment's choice (Turn.ecc), what follows is the spec's. -/

namespace Sys2Proof.Machine

/-- Sets the poison bit of a unit where its cache or HBM holds it (17 R364, 08 R176); the line then has it to write back, as
far as its policy writes back dirty lines (05 R118). -/
def State.poisonUnit (s : State) (vcid u : Nat) : State :=
  let p := s.spot vcid u none
  let v := { s.peekVc vcid u none with poison := true }
  match s.vline? vcid p with
  | some l => s.setLine { l with units := tset l.units (u % (p.geo.line / 128)) v, dirty := l.dirty || (p.geo.policy != 1 && p.geo.policy != 3) }
  | none => s.setHbm u v
/-- An error in a copy that an L1 holds: a clean one is dropped and fetched again, a dirty one leaves its unit poisoned at its home. -/
def State.l1Error (s : State) (c : Nat) (cp : Copy) : State :=
  if cp.st = .m ∨ cp.dirty ≠ 0 then
    let cp := { cp with poison := true }
    ((s.modCore c fun k => k.putCopy cp).castOut c cp).poisonUnit cp.vcid cp.unit
  else s.castOut c cp
/-- A double-bit error in a register that an instruction reads at issue: the reading context faults precisely (17 R350, R364). -/
def State.registerError (s : State) (c x source : Nat) : State :=
  let y := s.ctx c x
  s.raiseFault c x { f := { cause := .eccUncorr, info := BitVec.ofNat 32 source, addr := 0, undeliv := false }, pc := y.pc, seq := y.seq,
                     deferred := false, rep := y.rep }
/-- A corrected error is counted by the cluster's debug module (24 R419). -/
def State.countCorrected (s : State) (c : Nat) : State :=
  s.modDbg (clusterOf c) fun d => { d with cecnt := min (d.cecnt + 1) (2 ^ 64 - 1) }
/-- An error strikes. One in an instruction cache is refetched; `may` says whether a context may issue. -/
def State.eccStrikes (s : State) (may : Nat → Nat → Bool) : EccSite → State
  | .home vcid u => s.poisonUnit vcid u
  | .scratch c u => s.modCore c fun k => { k with scratchBad := addOnce k.scratchBad u }
  | .l1 c u =>
    let s := match (s.core c).copyOf u with
      | some cp => s.l1Error c cp
      | none => s
    s.modCore c fun k => { k with icache := k.icache.filter fun i => i.unit != u }
  | .tile c t => s.tileError c t
  | .operand c => s.operandError c
  | .register c x source => if may c x then s.registerError c x source else s
  | .corrected c tile =>
    let s := s.countCorrected c
    match tile with
    | some t => s.tileCorrected c t
    | none => s

end Sys2Proof.Machine
end

