-- ==== Sys2Proof/Machine/Fetch.lean ====
section
/-! DEFINITION. Fetching an instruction's bytes (03 R62, 01 R438): local space, the instruction cache by class, what a context
has fetched ahead, and the repetition buffer (10 R227). -/

namespace Sys2Proof.Machine

/-- Puts a unit in the instruction cache, whose least recently used way of a full set leaves (01 R437, R438). -/
def State.putCode (s : State) (c : Nat) (i : ICopy) (vcid : Nat) : State :=
  let s := s.modCore c fun k => { k with icache := i :: k.icache.filter fun j => j.unit != i.unit }
  let here := (s.core c).icache.filter fun j => j.unit % 64 == i.unit % 64
  if here.length ≤ 4 then s else
  match here.getLast? with
  | some v => (s.modCore c fun k => { k with icache := k.icache.filter fun j => j.unit != v.unit }).modHome vcid v.unit fun h =>
      if h.sharers.contains (8192 + c) then h.leave (8192 + c) else h
  | none => s

/-- The agent that fetches for the issuing context. -/
def State.fetchAgent (s : State) : Writer := .agent 1 (s.curCtx + 16 * s.curCore + 2 ^ 17 * s.me.seq)
/-- A unit of code for the issuing context: from the instruction cache, or as its home holds it, or the requester's replica under LOCAL placement. A TRACKED unit
makes the instruction cache a sharer (01 R438); `none` says that it is poisoned (08 R176). -/
def State.codeUnit (s : State) (vcid : Nat) (cls : Cls) (key u : Nat) : AtHome (Option Unit128) :=
  let c := s.curCore
  match (s.core c).icache.find? fun i => i.unit == u && decide (i.cls = cls) && i.key == key with
  | some i => .done (s.modCore c fun k => { k with icache := i :: k.icache.filter fun j => j.unit != u }) (some i.data)
  | none =>
    match (if cls = .tracked then s.readFor s.fetchAgent vcid key u (some c) else s.readPlain s.fetchAgent vcid key u (some c)) with
    | .busy s => .busy s
    | .done s v =>
      if v.poison then .done s none else
      let s := if cls = .tracked then s.modHome vcid u fun h => { h with dir := .s, sharers := addSharer h.sharers (8192 + c) } else s
      .done (s.putCode c { unit := u, cls := cls, key := key, data := v.data } vcid) (some v.data)

/-- The word at a fetch address of the issuing context: it faults or waits as a read of kind fetch does (04 R86, R88). A
fetch reaches no register of control space and sends no packet (01 R29, 08 R191; assumption 9, DEDUCED, safe). -/
def fetchM (va : Addr) : M (BitVec 32) := do
  if va.getLsbD 55 then
    let p ← getM fun s => s.localPlace s.curCore (decide (s.me.mode = .supervisor)) va 4 false false
    match p with
    | .error f => stop (.fault f)
    | .ok p => do
      windowGuard .read 4 p
      let l : Lane := { ix := 0, va := va, n := 4, place := p, op := .read, done := false, data := 0, age := none, srcs := [] }
      return (← getM fun s => (s.storageLane l).2.data).setWidth 32
  else
    match ← xlateM .fetch va with
    | .unit e pa => do
      match ← atHomeM fun s => s.codeUnit e.vcid e.cls e.key (pa / 128) with
      | some u => return BitVec.ofNat 32 (unitGet u (pa % 128) 4)
      | none => faultM .poison 0 va
    | .host _ pa => return BitVec.ofNat 32 (← getM fun s => s.hostMem.read pa 4)
    | _ => faultM .xlate 0 va

/-- Fetches up to n words from va on, as far as they can be had now (01 R438). -/
def State.fetchList (s : State) (va : Addr) : Nat → State × List (Nat × BitVec 32)
  | 0 => (s, [])
  | n + 1 => match fetchM va s with
    | .error _ => (s, [])
    | .ok (w, t) =>
      let (t, l) := t.fetchList (va + 4) n
      (t, (va.toNat, w) :: l)

/-- Fetches ahead of the words that the issuing context holds. -/
def State.fetchAhead (s : State) (n : Nat) : State :=
  match s.me.fetched.getLast? with
  | none => s
  | some p =>
    let (s, l) := s.fetchList (BitVec.ofNat 56 (p.1 + 4)) n
    s.modMe fun y => { y with fetched := y.fetched ++ l }

/-- The words of a repetition body, which fill its buffer before its first instruction issues (10 R227, 01 R438). One that cannot be had
faults or waits here (assumption 86, DEDUCED, unsafe). -/
def bodyM (va : Addr) : Nat → M (List (BitVec 32))
  | 0 => return []
  | n + 1 => do
    let w ← match ← getM fun s => s.me.fetched.find? fun p => p.1 == va.toNat with
      | some p => pure p.2
      | none => fetchM va
    let l ← bodyM (va + 4) n
    return w :: l

/-- The instruction word that the issuing context issues next: from the repetition buffer inside a body, which a
restart has left to be filled, else from what it fetched ahead, else by a fetch at its PC. -/
def nextWordM : M (BitVec 32) := do
  let y ← getM State.me
  match y.rep with
  | some r => do
    let buf ← if r.buf.length < r.len then bodyM r.base r.len else pure r.buf
    modM fun s => s.modMe fun y => { y with rep := some { r with buf := buf } }
    match buf[r.pos]? with
    | some w => return w
    | none => fetchM y.pc
  | none => match y.fetched.dropWhile fun p => p.1 != y.pc.toNat with
    | p :: l => do
      modM fun s => s.modMe fun y => { y with fetched := p :: l }
      return p.2
    | [] => do
      let w ← fetchM y.pc
      modM fun s => s.modMe fun y => { y with fetched := [(y.pc.toNat, w)] }
      return w

end Sys2Proof.Machine
end

