-- ==== Sys2Proof/Machine/Links.lean ====
section
/-! DEFINITION. The requester's side of the fabric and its links: replies (18 R377, R378), failures and timeouts (08 R193, 17
R365), and the tag groups of ports (18 R379, R380). -/

namespace Sys2Proof.Machine

/-! ### Packets and groups on a link (18 R376, R379) -/

end Sys2Proof.Machine
namespace Sys2Proof

open Machine

/-- The header of a packet, its first 32 bytes (18 R376). -/
def Packet.header (p : Packet) : BitVec 256 :=
  let w0 := p.pa.toNat
  let w1 := p.len % 2 ^ 9 * 2 ^ 8 + p.core % 2 ^ 13 * 2 ^ 17 + p.dev % 2 ^ 14 * 2 ^ 30 + p.tag % 2 ^ 8 * 2 ^ 48 + p.inc % 2 ^ 4 * 2 ^ 56
    + p.opc % 2 ^ 4 * 2 ^ 60
  let w2 := p.status % 2 ^ 6 * 2 ^ 8 + p.stale.toNat * 2 ^ 14 + p.aop.toNat * 2 ^ 18 + p.domain % 2 ^ 10 * 2 ^ 28 + p.cls % 2 ^ 2 * 2 ^ 38
    + p.mode % 2 ^ 2 * 2 ^ 40 + p.lag % 2 ^ 6 * 2 ^ 42 + p.stamp.toNat * 2 ^ 48
  BitVec.ofNat 256 (w0 + w1 * 2 ^ 64 + w2 * 2 ^ 128)
/-- Flit i of a packet: the header, then the payload from byte 32 on (18 R376). -/
def Packet.flit (p : Packet) (i : Nat) : BitVec 512 :=
  BitVec.ofNat 512 (bitsOf (p.header.toNat + p.payload.toNat % 2 ^ (8 * p.bytes) * 2 ^ 256) (512 * i) 512)
/-- The nonce of a tag group: the sending device, its port, a direction and a global-port bit, zeros up to 32 bits, and the counter (18 R379);
the first of them lies lowest (assumption 85, DEDUCED). -/
def linkNonce (dev port : Nat) (inward : Bool) (counter : Nat) : BitVec 96 :=
  BitVec.ofNat 96 (dev % 2 ^ 14 + port % 2 ^ 6 * 2 ^ 14 + inward.toNat * 2 ^ 20 + (decide (31 ≤ port)).toNat * 2 ^ 21 + counter % 2 ^ 64 * 2 ^ 32)
/-- The control flit that closes a tag group: its 64-bit counter and its 16-byte tag (18 R379). -/
structure ControlFlit where
  counter : BitVec 64
  tag : BitVec 128
  deriving DecidableEq, Repr
/-- The control flit of a group of flits that a device's port sends under a job key (18 R379). -/
def controlFlit (key : BitVec 256) (dev port counter : Nat) (flits : List (BitVec 512)) : ControlFlit :=
  { counter := BitVec.ofNat 64 counter, tag := Config.linkTag key (linkNonce dev port false counter) flits }

end Sys2Proof
namespace Sys2Proof.Machine

/-! ### Replies (18 R377, R378) -/

/-- The unanswered request that a reply is for (17 R365). -/
def State.requestOf (s : State) (p : Packet) : Option FabReq :=
  s.fabReqs.find? fun r => r.core == p.core && r.tag == p.tag && r.inc == p.inc
/-- A reply that no request awaits is dropped; one of another incarnation is counted (17 R365). -/
def State.lateReply (s : State) (p : Packet) : State :=
  if tget (s.core p.core).tagInc p.tag 0 = p.inc then s
  else s.modCore p.core fun k => { k with lateReplies := k.lateReplies + 1 }
/-- The packet of an answered request is no longer on its way: the packets that follow it for its unit choose a route again (18 R375). -/
def State.unsend (s : State) (r : FabReq) : State :=
  { s with net := s.net.filter fun f => match f.pkt with
      | .pktOut p _ _ => !(p.dev == s.devNum && p.core == r.core && p.tag == r.tag && p.inc == r.inc && decide (p.opc < 7))
      | _ => true }
/-- A request is answered: its tag is free. -/
def State.closeReq (s : State) (r : FabReq) : State :=
  { s.unsend r with fabReqs := s.fabReqs.filter fun q => !(q.core == r.core && q.tag == r.tag) }
/-- Beats or aborts the object that a write named (08 R192, R193; 18 R378). -/
def State.finishBar (s : State) (w : Writer) (r : FabReq) (d : Done) : AtHome Unit :=
  match r.bar with
  | none => .done s ()
  | some (v, key, pa) => s.completeAt w v key pa none false d
/-- A lane with what its reply brings. -/
def Lane.answered (l : Lane) (p : Packet) (i : BitVec 16) : Lane :=
  let here : Vec := BitVec.ofNat 512 (bitsOf p.payload.toNat (8 * (l.remotePa - p.pa.toNat)) (8 * l.n))
  let stamped : Bool := match l.place with
    | .remote .stamped _ _ => true
    | _ => false
  { l with
    done := true
    data := match l.op with
      | .enq _ _ => BitVec.ofNat 512 p.payload.toNat
      | .chase _ _ _ => BitVec.ofNat 512 p.payload.toNat
      | .write _ _ => 0
      | .save _ _ => 0
      | .later => 0
      | _ => here
    age := if stamped && decide (l.op = .read) then some (i - p.stamp) else l.age }
/-- Whether a lane belongs to a request. -/
def Op.asked (o : Op) (r : FabReq) (l : Lane) : Bool := !l.done && o.groupOf l == some r.group
/-- What a reply to a STAMPED read of another device leaves in the L1 (06 R155): a whole unit is held, under its whole PA and cache 0, and a part
of one drops the copy, which may be older; the replies to earlier requests for the unit, whose data is older, are not kept (06 R146). -/
def State.installRemote (s : State) (c : Nat) (o : Op) (r : FabReq) (p : Packet) : State :=
  match o.lanes.find? fun l => o.groupOf l == some r.group with
  | some l => match l.place, l.op with
    | .remote .stamped key _, .read =>
      if p.opc ≠ 8 ∨ p.status ≠ 0 then s else
      let u := remoteUnit p.pa.toNat
      let prior := ((s.core c).ops.takeWhile fun q => q.id != o.id).map fun q => q.id
      let older (q : Op) : Bool := prior.contains q.id && q.lanes.any fun m => !m.done && sameUnit m l
      let s := s.modCore c fun k => { k with ops := mapIf older (fun q => { q with noInstall := true }) k.ops }
      if p.len = 128 ∧ p.pa.toNat % 128 = 0 then
        s.installStamped c o u 0 key { data := BitVec.ofNat 1024 p.payload.toNat, tag := some key, stamp := p.stamp, poison := false }
      else s.modCore c fun k => k.dropCopy u .stamped
    | _, _ => s
  | none => s
/-- Whether a failure of an operation's packet faults it: a prefetch's does not (08 R180). -/
def Op.mayFault (o : Op) : Bool := decide (o.fin ≠ .none) || o.isStore
/-- What a reply does to its operation: data, poison, a refused bound or stale data (18 R376). A DATA reply after the due cycle
of its load is discarded (06 R151). -/
def State.answerReq (s : State) (r : FabReq) (p : Packet) : State :=
  let c := s.forwarded r.core
  match (s.core c).op? r.op with
  | none => s
  | some o =>
    let late : Bool := match o.due with
      | some d => decide (d < s.clock)
      | none => false
    if late then s
    else
      let va : Addr := match o.lanes.find? (o.asked r) with
        | some l => l.va
        | none => 0
      ((s.installRemote c o r p).setOp c { o with
        lanes := mapIf (o.asked r) (fun l => l.answered p o.iter) o.lanes
        stale := o.stale || p.stale
        lagTrap := o.lagTrap || decide (p.status = 2)
        fault := if p.status = 1 && o.mayFault then o.lower o.fault (some (accFault .poison 0 va)) else o.fault }).sweep c
/-- Sends a refused request again after its backoff (06 R155, 18 R377). -/
def State.requeue (s : State) (r : FabReq) : State :=
  match (s.core (s.forwarded r.core)).op? r.op with
  | none => s.closeReq r
  | some o =>
    let p := { packetFor o (o.lanes.filter (o.asked r)) with core := r.core, dev := s.devNum, tag := r.tag, inc := r.inc }
    let s := s.unsend r
    { s with net := s.net ++ [{ id := s.nextId, hold := .refused, pkt := .pktOut p s.clock 0 }], nextId := s.nextId + 1 }
/-- A reply of a code that has reached the module, when none that came before it for the same core and unit is left (18 R375). -/
def State.replyAt (s : State) (id opc : Nat) : Option Packet :=
  let next (p : Packet) : Bool := (s.net.takeWhile fun f => f.id != id).all fun f => match f.pkt with
    | .pktIn q => !(decide (8 ≤ q.opc) && p.follows q)
    | _ => true
  match s.flight? id with
  | some { pkt := .pktIn p, .. } => if p.opc = opc ∧ next p then some p else none
  | _ => none
/-- A reply ends its request: the object it named is beaten in the same step. -/
def State.complete (s : State) (id : Nat) (p : Packet) : Out :=
  match s.requestOf p with
  | none => .next ((s.drop id).lateReply p)
  | some r =>
    if p.status = 3 then .next ((s.drop id).requeue r)
    else match s.finishBar (.msg id) r .beat with
      | .busy s => .next s
      | .done s _ => .next (((s.drop id).closeReq r).answerReq r p)
/-- DATA (18 R377, R378). -/
def execData (id : Nat) (s : State) : Out :=
  match s.replyAt id 8 with
  | some p => s.complete id p
  | none => .next s
/-- ACK (18 R378): the write has performed, and its object is beaten. -/
def execAck (id : Nat) (s : State) : Out :=
  match s.replyAt id 9 with
  | some p => s.complete id p
  | none => .next s

/-! ### Failures (08 R193, 18 R380, 17 R365) -/

/-- What a request's failure does besides ABORT: a load, an atomic or a copy faults, and a write that names no object arms the next
fence of its context. -/
def State.failReq (s : State) (r : FabReq) (cause : Cause) : State :=
  let c := s.forwarded r.core
  match (s.core c).op? r.op with
  | none => s
  | some o =>
    let engine : Bool := decide (100 ≤ r.ctx)
    let faults : Bool := (!r.write || engine || o.isLoad) && o.mayFault
    let va : Addr := match o.lanes.find? (o.asked r) with
      | some l => l.va
      | none => 0
    let s := if faults || r.bar.isSome || !r.write then s
      else s.modCtx c r.ctx fun y => { y with fenceErr := y.fenceErr.or (some (cause, r.dev)) }
    (s.setOp c { o with
      lanes := if engine && r.write then o.lanes.filter fun l => !o.asked r l else mapIf (o.asked r) (fun l => { l with done := true }) o.lanes
      fault := if faults then o.lower o.fault (some (accFault cause r.dev va)) else o.fault }).sweep c
/-- NACK (18 R380): LINK_INTEGRITY, or ABORT of the object that a write named. -/
def execNack (id : Nat) (s : State) : Out :=
  match s.replyAt id 10 with
  | none => .next s
  | some p => match s.requestOf p with
    | none => .next ((s.drop id).lateReply p)
    | some r => match s.finishBar (.msg id) r .abort with
      | .busy s => .next s
      | .done s _ => .next (((s.drop id).closeReq r).failReq r .linkIntegrity)
/-- FABRIC_TIMEOUT (08 R193, 17 R365): the tag retires with its next incarnation. -/
def execFabricTimeout (core tag : Nat) (s : State) : Out :=
  match s.fabReqs.find? fun r => r.core == core && r.tag == tag with
  | none => .next s
  | some r =>
    if s.clock ≤ r.sentAt + 2 ^ 22 then .next s
    else match s.finishBar .other r .abort with
      | .busy s => .next s
      | .done s _ =>
        let s := (s.closeReq r).modCore core fun k => { k with tagInc := tset k.tagInc tag ((r.inc + 1) % 16) }
        .next (s.failReq r .fabricTimeout)
/-- The fabric discards a packet that has been in flight for 2^24 cycles (17 R365). -/
def execPacketDiscard (id : Nat) (s : State) : Out :=
  match s.flight? id with
  | some { pkt := .pktOut p sentAt _, .. } =>
    if s.clock < sentAt + 2 ^ 24 then .next s
    else
      let t : State := { s with ports := s.ports.map fun (q : Nat × Port) =>
        (q.1, { q.2 with tx := q.2.tx.filter (fun x => x != p), part := if q.2.tx.head? = some p then 0 else q.2.part }) }
      .next (t.drop id)
  | _ => .next s

/-! ### Tag groups (18 R379, R380) -/

/-- Takes up to n flits from the head of a queue whose first packet has sent some: the packets that begin among them, those that are left, and
how many flits of their first are sent. -/
def takeFlits (n sent : Nat) : List Packet → List Packet × List Packet × Nat
  | [] => ([], [], 0)
  | p :: ps =>
    let begun := if sent = 0 then [p] else []
    let left := p.flits - sent
    if left < n then let (a, b, k) := takeFlits (n - left) 0 ps; (begun ++ a, b, k)
    else if left = n then (begun, ps, 0)
    else (begun, p :: ps, sent + n)
def State.setPort (s : State) (i : Nat) (p : Port) : State := { s with ports := tset s.ports i p }
/-- TAG_GROUP_CLOSE (18 R379): 16 flits, or all that are ready, leave under the next counter, and stay in the replay buffer. -/
def execTagGroupClose (i : Nat) (s : State) : Out :=
  let p := s.port i
  if !s.fabricUp ∨ p.tx.isEmpty then .next s
  else
    let (g, rest, k) := takeFlits 16 p.part p.tx
    .next (s.setPort i { p with tx := rest, part := k, counter := p.counter + 1, replay := p.replay ++ [(p.counter, g)] })
/-- A packet released by a port: to this module, or onward to its device (18 R374); a code that is reserved is discarded. -/
def State.releasePacket (s : State) (p : Packet) : State :=
  let dev := if p.opc < 8 then p.pa.toNat / 2 ^ 42 else p.dev
  if p.opc = 7 ∨ 11 ≤ p.opc then { s with dev := { s.dev with rejf := satInc s.dev.rejf } }
  else if dev = s.devNum then s.send (.pktIn { p with via := none })
  else s.transmit dev p
/-- TAG_FLIT (18 R379, R380, R373): a group whose tag verifies is released; any other is discarded whole and asked for again. A
device without a partition and a key counts and discards every packet. -/
def execTagFlit (i : Nat) (group : List Packet) (verified : Bool) (s : State) : Out :=
  if !s.fabricUp then .next { s with dev := { s.dev with rejf := group.foldl (fun n _ => satInc n) s.dev.rejf } }
  else if verified then .next (group.foldl State.releasePacket s)
  else .next { s with hostOut := s.hostOut ++ [.retransmit i] }
/-- The NACK of a request packet goes to its requester (18 R380). -/
def State.nackPacket (s : State) (p : Packet) : State :=
  if 6 ≤ p.opc then s
  else
    let q := replyTo p 10 4 0 0 false 0
    if p.dev = s.devNum then s.send (.pktIn q) else s.transmit p.dev q
/-- RETRANSMIT_REQUEST (18 R380): the group is sent again; after four failures in a row its requests are answered by NACK, and the
port leaves adaptive routing. -/
def execRetransmitRequest (i group : Nat) (s : State) : Out :=
  let p := s.port i
  match p.replay.find? fun g => g.1 == group with
  | none => .next s
  | some g =>
    let n := tget p.fails group 0 + 1
    if n < 4 then .next (s.setPort i { p with fails := tset p.fails group n })
    else
      let s := s.setPort i { p with fails := tdel p.fails group, adaptiveOff := true, replay := p.replay.filter fun g => g.1 != group }
      .next (g.2.foldl State.nackPacket s)
/-- ADAPTIVE_ROUTING_REENABLE (18 R380). -/
def execAdaptiveRoutingReenable (i : Nat) (s : State) : Out := .next (s.setPort i { s.port i with adaptiveOff := false })
/-- KEYLOAD (18 R381). -/
def execKeyload (s : State) : Out := .next s.keyload
/-- A write of PEN = 0 (18 R382). -/
def execPartitionDissolve (s : State) : Out := .next (if s.dev.fabcfg.getLsbD 62 then s.dissolve else s)

end Sys2Proof.Machine
end

