-- ==== Sys2Proof/Machine/MulDiv.lean ====
section
/-! DEFINITION. Multiply and divide (11 R238, R239). A division runs in the core's divider for 20 cycles and writes the
entry it named at issue. -/

namespace Sys2Proof.Machine

/-- mull (11 R238). -/
def execMull (m : Bool) (d a b : BitVec 5) (s : State) : Out := s.finish m d (s.reg a * s.reg b)
/-- mulhs (11 R238). -/
def execMulhs (m : Bool) (d a b : BitVec 5) (s : State) : Out :=
  s.finish m d (BitVec.ofInt 64 ((s.reg a).toInt * (s.reg b).toInt / (2 ^ 64 : Nat)))
/-- mulhz (11 R238). -/
def execMulhz (m : Bool) (d a b : BitVec 5) (s : State) : Out :=
  s.finish m d (BitVec.ofNat 64 ((s.reg a).toNat * (s.reg b).toNat / 2 ^ 64))
/-- mulhsz (11 R238). -/
def execMulhsz (m : Bool) (d a b : BitVec 5) (s : State) : Out :=
  s.finish m d (BitVec.ofInt 64 ((s.reg a).toInt * (s.reg b).toNat / (2 ^ 64 : Nat)))

/-- Signed quotient toward zero, saturated (11 R238). -/
def quotS (a b : Word) : Word :=
  if b = 0 then (if 0 ≤ a.toInt then BitVec.ofNat 64 (2 ^ 63 - 1) else BitVec.ofNat 64 (2 ^ 63))
  else if a.toInt.tdiv b.toInt = 2 ^ 63 then BitVec.ofNat 64 (2 ^ 63 - 1)
  else BitVec.ofInt 64 (a.toInt.tdiv b.toInt)
/-- Signed remainder with the dividend's sign (11 R238). -/
def remS (a b : Word) : Word := if b = 0 then a else BitVec.ofInt 64 (a.toInt - a.toInt.tdiv b.toInt * b.toInt)
/-- Unsigned quotient (11 R238). -/
def quotU (a b : Word) : Word := if b = 0 then BitVec.allOnes 64 else BitVec.ofNat 64 (a.toNat / b.toNat)
/-- Unsigned remainder (11 R238). -/
def remU (a b : Word) : Word := if b = 0 then a else BitVec.ofNat 64 (a.toNat % b.toNat)

/-- Starts a division whose result is known to the divider alone until it writes it; the context is held while the divider
is busy (11 R239). -/
def State.startDivision (s : State) (m : Bool) (d : BitVec 5) (w : Word) : State :=
  let o : Op := { s.newOp with fin := .ready [.scalar (s.dst d) w], due := some (s.clock + 20) }
  let id := s.nextId
  ((s.addOp s.curCore o).modCore s.curCore fun k => { k with divider := some id }).retire m
/-- A division issues when the divider is free (11 R239). -/
def State.divide (s : State) (m : Bool) (d : BitVec 5) (w : Word) : Out :=
  if s.mine.divider.isSome then .next (s.modMe fun y => { y with st := .held, wait := .none })
  else .next (s.startDivision m d w)

/-- divq (11 R238). -/
def execDivq (m : Bool) (d a b : BitVec 5) (s : State) : Out := s.divide m d (quotS (s.reg a) (s.reg b))
/-- divqz (11 R238). -/
def execDivqz (m : Bool) (d a b : BitVec 5) (s : State) : Out := s.divide m d (quotU (s.reg a) (s.reg b))
/-- divr (11 R238). -/
def execDivr (m : Bool) (d a b : BitVec 5) (s : State) : Out := s.divide m d (remS (s.reg a) (s.reg b))
/-- divrz (11 R238). -/
def execDivrz (m : Bool) (d a b : BitVec 5) (s : State) : Out := s.divide m d (remU (s.reg a) (s.reg b))

/-- Writes an operation's register entries as they stand in its `fin`, and lets its context go on. -/
def State.writeReady (s : State) (c : Nat) (o : Op) (ws : List RegWrite) : State :=
  let s := ws.foldl (fun s w => match w with
    | .scalar d w => s.writeDst c o.ctx d w
    | .vec v data bits => s.modCtx c o.ctx fun y => y.setVec v ((y.vec v &&& ~~~bits) ||| (data &&& bits))
    | .tileRow t row data => s.modCore c fun k =>
        k.setTile t { (k.tile t).setRow row (data &&& (k.tile t).rowMask row) with st := 2 }
    | .age w => s.modCtx c o.ctx fun y => { y with age := w }) s
  (s.delOp c o.id).settle c o.ctx

/-- The divider writes its result, 20 cycles after the start, to the entry named at issue, and frees (11 R239). The result
of a killed context is dropped with its operation (17 R360). It is not written after a deposit in the same cycle (10 R225). -/
def execDivideComplete (core : Nat) (s : State) : Out :=
  if (s.core core).depAt = some s.clock then .next s else
  match (s.core core).divider with
  | none => .next s
  | some id => match (s.core core).op? id with
    | none => .next (s.modCore core fun k => { k with divider := none })
    | some o =>
      if (match o.due with | some d => decide (s.clock < d) | none => false) then .next s
      else match o.fin with
        | .ready ws => .next ((s.modCore core fun k => { k with divider := none }).writeReady core o ws)
        | _ => .next ((s.modCore core fun k => { k with divider := none }).delOp core id)

end Sys2Proof.Machine
end

