-- ==== Sys2Proof/Machine/Writeback.lean ====
section
/-! DEFINITION. RESULT_WRITEBACK (03 R66): an operation whose parts have performed writes its results to the entries named at
issue, or ends in its deferred fault (17 R350) or pending trap (06 R153). Accesses of register windows perform here, in the memory
stage (10 R222). -/

namespace Sys2Proof.Machine

/-- Data of a lane as a number. -/
def Lane.num (l : Lane) : Nat := l.data.toNat % 2 ^ (8 * l.n)
/-- The data of the lanes from index 1 on, in order: the body of an element (08 R182). -/
def Op.body (o : Op) : Nat :=
  ((o.lanes.filter fun l => 1 ≤ l.ix).foldl (fun (a : Nat × Nat) l => (a.1 + l.num * 2 ^ (8 * a.2), a.2 + l.n)) (0, 0)).1
/-- The data of all lanes, in order. -/
def Op.bytes (o : Op) : Nat :=
  (o.lanes.foldl (fun (a : Nat × Nat) l => (a.1 + l.num * 2 ^ (8 * a.2), a.2 + l.n)) (0, 0)).1
/-- The scale that an element access read (08 R182). -/
def Op.scale (o : Op) : Nat := match o.lanes.find? fun l => l.ix == 0 with
  | some l => l.num
  | none => 127
/-- n bytes in a register, sign- or zero-extended. -/
def extend (signed : Bool) (n v : Nat) : Word := if signed then BitVec.ofInt 64 (signedOf (8 * n) v) else BitVec.ofNat 64 (v % 2 ^ (8 * n))
/-- What lde writes (08 R183). -/
def elemResult (f sub mode : Nat) (lfsr : BitVec 32) (scale raw : Nat) : Word :=
  let r := Rm.ofMode mode lfsr.toNat
  if f = 0 then BitVec.ofNat 64 (raw % 256)
  else if f < 6 then BitVec.ofInt 64 (match codeValue f raw with
    | .fin s m _ => if s then -(m : Int) else m
    | _ => 0)
  else if f < 11 then BitVec.ofNat 64 (fp32.encode .ieee r (codeValue f raw))
  else if f = 16 then BitVec.ofNat 64 (fp32.encode .ieee r (applyScale (raw % 256) (mxElem 16 ((ec8Codes raw).getD sub 0))))
  else BitVec.ofNat 64 (fp32.encode .ieee r (applyScale scale (mxElem f (bitsOf raw sub (mxBits f)))))
/-- The greatest age of an operation's STAMPED reads (06 R154). -/
def Op.maxAge (o : Op) : Option (BitVec 16) :=
  o.lanes.foldl (fun a l => match a, l.age with
    | some x, some y => some (if x.toInt < y.toInt then y else x)
    | none, y => y
    | x, none => x) none
/-- AGE, written with the destination of a load other than ldl (06 R154). -/
def Op.ageWrite (o : Op) : List RegWrite :=
  match o.maxAge with
  | some a => [.age (ageWord a false)]
  | none => []
/-- The first lane. -/
def Op.first (o : Op) : Nat := match o.lanes with
  | l :: _ => l.num
  | [] => 0
/-- The register writes of an operation whose lanes have performed. -/
def Op.results (o : Op) : List RegWrite :=
  match o.fin with
  | .ready ws => ws
  | .load d n signed => .scalar d (extend signed n o.first) :: o.ageWrite
  | .ldl d b n signed => [.scalar d (extend signed n o.first), .scalar b (match o.maxAge with
      | some a => ageWord a o.stale
      | none => 0)]
  | .elem d f sub mode lfsr => .scalar d (elemResult f sub mode lfsr o.scale o.body) :: o.ageWrite
  | .amo d n => [.scalar d (extend true n o.first)]
  | .cas2 v quad =>
    let n := if quad then 32 else 16
    let ok := match o.lanes with
      | { op := .cas2 _ w, .. } :: _ => decide (o.first = bitsOf w.toNat 0 (8 * n))
      | _ => false
    [.vec v (BitVec.ofNat 512 (o.first + ok.toNat * 2 ^ 256)) (BitVec.allOnes 512)]
  | .remote64 v => [.vec v (match o.lanes with
      | l :: _ => l.data
      | [] => 0) (BitVec.allOnes 512)]
  | .vec v => .vec v
      (BitVec.ofNat 512 (o.lanes.foldl (fun a l => a + l.num * 2 ^ (8 * l.n * l.ix)) 0))
      (BitVec.ofNat 512 (o.lanes.foldl (fun a l => a + (2 ^ (8 * l.n) - 1) * 2 ^ (8 * l.n * l.ix)) 0)) :: o.ageWrite
  | .tileRow t row => .tileRow t row (BitVec.ofNat 512 o.bytes) :: o.ageWrite
  | _ => []

/-- The LFSR state before a step (02 R55). -/
def lfsrPrev (l : BitVec 32) : BitVec 32 := if l.getLsbD 31 then ((l ^^^ 0x80200003) <<< 1) ||| 1 else l <<< 1
/-- A deferred fault of an operation (17 R350): its destinations stay, an element that was not written has not advanced the
LFSR, unless LFSR was written after the instruction (02 R55), and its context stops. An SR conversion that has issued meanwhile has used the
state that the faulting one left (assumption 70, DESIGN CHOICE, unsafe). Nothing faults for an operation of a killed context (17 R360). -/
def State.deferFault (s : State) (c : Nat) (o : Op) (f : FaultInfo) : State :=
  if o.dead then (s.delOp c o.id).settle c o.ctx else
  let s := if o.conv then s.modCtx c o.ctx fun y => { y with lfsr := if y.lfsrSet ≤ o.seq then lfsrPrev y.lfsr else y.lfsr } else s
  (s.delOp c o.id).raiseFault c o.ctx { f := f, pc := o.pc, seq := o.seq, deferred := true, rep := o.rep }
/-- STALE_LAG and STALE_TIMEOUT wait in the context for its next park; the first in program order is kept (06 R153). -/
def State.pendTrap (s : State) (c : Nat) (o : Op) : State :=
  let l := o.lanes.headD { ix := 0, va := 0, n := 0, place := .ctrl 0, op := .read, done := true, data := 0, age := none, srcs := [] }
  let age : Nat := match l.age with
    | some a => (min (max a.toInt 0) 255).toNat
    | none => 0
  let t : Trap := { code := if o.stale then 4 else 3, epc := o.pc, wpend := 0,
                    einfo := BitVec.ofNat 64 (l.va.toNat + (if o.stale then 0 else age) * 2 ^ 56) }
  let s := s.modCtx c o.ctx fun y => { y with ptrap := match y.ptrap with
    | some (u, n) => if n ≤ o.seq then some (u, n) else some (t, o.seq)
    | none => some (t, o.seq) }
  (s.delOp c o.id).settle c o.ctx

/-! ### Window accesses (10 R222) -/

/-- Whether an operation has a window access left. -/
def Op.windowLeft (o : Op) : Bool := o.lanes.any fun l => !l.done && l.place.isWindow
/-- Whether a lane is a window access that can perform: the body of an MX element waits for the block's scale (08 R183). -/
def Lane.windowNow (l : Lane) : Bool := !l.done && l.place.isWindow && decide (l.op ≠ .later)
/-- A register window where its core now stands (17 R363). -/
def State.movedPlace (s : State) (p : Place) : Place :=
  match p with
  | .ramEntry c e => .ramEntry (s.forwarded c) e
  | .vreg c x off => .vreg (s.forwarded c) x off
  | .tile c t off => .tile (s.forwarded c) t off
  | .mask c x k => .mask (s.forwarded c) x k
  | .glob c x j => .glob (s.forwarded c) x j
  | .csr c off => .csr (s.forwarded c) off
  | p => p
/-- Whether a window access of an operation of core c waits for the migration of another core (17 R363). -/
def State.windowHeld (s : State) (c : Nat) (o : Op) : Bool :=
  o.lanes.any fun l => l.windowNow && (s.placeCore (s.movedPlace l.place)).any fun d => d != c && (s.core d).moving
/-- The LAZY tiles that a window access is about to reach, or whose TSHAPE or TSAVEP it is about to write, by core. -/
def State.lazyUnder (s : State) (l : Lane) : List (Nat × Nat) :=
  if !l.windowNow then [] else
  let p := s.movedPlace l.place
  (match p with
    | .tile c t _ => [(c, t)]
    | p => if l.op.writes then s.tilesFor p else []).filter fun q => decide (((s.core q.1).tile q.2).st = 3)
/-- Loads tiles that a migration has made LAZY since a window access to them issued, as their cores' matrix units do (13 R270; assumption 64,
DESIGN CHOICE, unsafe). -/
def State.loadWindows (s : State) (sup : Bool) : List (Nat × Nat) → State × Reads
  | [] => (s, .all)
  | (c, t) :: l => match s.lazyAll c sup [t] with
    | (s, .all) => s.loadWindows sup l
    | r => r
/-- The window accesses under which a tile's image cannot be read fault as loads of it do. -/
def State.spoilWindows (s : State) (o : Op) (f : Reads) : Op :=
  let bad (l : Lane) : Bool := !(s.lazyUnder l).isEmpty
  let cause : Cause := if f = .poison then .poison else .xlate
  { o with
    lanes := mapIf bad (fun l => l.finish 0) o.lanes
    fault := (o.lanes.filter bad).foldl (fun g l => o.lower g (some (accFault cause 0 l.va))) o.fault }
/-- Performs the window accesses of an operation in order. -/
def State.windowLanes (s : State) : List Lane → State × List Lane
  | [] => (s, [])
  | l :: ls =>
    let (s, l) := if l.windowNow then s.storageLane { l with place := s.movedPlace l.place } else (s, l)
    let (s, ls) := s.windowLanes ls
    (s, l :: ls)

/-! ### Elements of MX blocks (08 R183) -/

/-- The body lanes of a ste whose scale has been read, as bit-masked writes. -/
def mxBody (f bit : Nat) (code : Nat) : Nat → List Lane → List Lane
  | _, [] => []
  | off, l :: ls =>
    let cut (v : Nat) : Vec := BitVec.ofNat 512 (bitsOf (v <<< bit) (8 * off) (8 * l.n))
    { l with done := false, op := .write (cut code) (cut (2 ^ mxBits f - 1)) } :: mxBody f bit code (off + l.n) ls
/-- A ste writes its element once it has the block's scale. -/
def State.storeElem (s : State) (c : Nat) (o : Op) (f bit : Nat) (x : Word) (mode : Nat) (lfsr : BitVec 32) : State :=
  let code := mxStoreCode f o.scale (Rm.ofMode mode lfsr.toNat) (fp32.decode (x.toNat % 2 ^ 32))
  let body := mxBody f bit code 0 (o.lanes.filter fun l => 1 ≤ l.ix)
  let head := o.lanes.filter fun l => l.ix == 0
  let o := { o with fin := .none, lanes := [] }
  match (s.setOp c o).issueLanes c o body with
  | .busy t => t.setOp c { o with fin := .mxStore f bit x mode lfsr, lanes := head ++ body.map fun l => { l with op := .later } }
  | .done s (ls, g) =>
    let o := { o with lanes := head ++ ls, fault := g }
    ((s.setOp c o).launchLanes c o none []).sweep c

/-! ### RESULT_WRITEBACK -/

/-- Loads a LAZY tile from the image read (13 R270); one that has been loaded or written meanwhile stays. -/
def State.fillTile (s : State) (c t : Nat) (o : Op) : State :=
  s.modCore c fun k => if (k.tile t).st ≠ 3 then k else k.setTile t (o.lanes.foldl (fun (v : Tile) l => v.setRow l.ix l.data) { k.tile t with st := 1, content := [] })

/-- The fault of data that came with a double-bit error, from source n mod 256 into lane n / 256 (17 R353, R364, 12 R257). An atomic whose
write stands has performed: no error of its data comes after it (17 R352 step 3). -/
def Op.eccFault (o : Op) (ecc : Option Nat) : Option FaultInfo :=
  if !o.isLoad || o.lanes.any (fun l => l.op.writes) then none else
  ecc.map fun n => accFault .eccUncorr (n % 256) (match o.lanes.drop (n / 256) with
    | l :: _ => l.va
    | [] => (o.lanes.map fun l => l.va).headD 0)
/-- The window accesses of an operation perform, when no earlier one of its context waits (10 R222). `none` says that they wait. -/
def State.windowsOf (s : State) (c : Nat) (o : Op) : State × Option Op :=
  if !o.lanes.any Lane.windowNow then (s, some o)
  else if ((s.core c).opsOf o.ctx).find? Op.windowLeft ≠ some o ∨ s.windowHeld c o then (s, none)
  else match s.loadWindows o.sup (o.lanes.flatMap s.lazyUnder) with
    | (s, .wait) => (s, none)
    | (s, f) =>
      let o := if f = .all then o else s.spoilWindows o f
      let (s, lanes) := s.windowLanes o.lanes
      let o := { o with lanes := lanes }
      (s.setOp c o, some o)

/-- RESULT_WRITEBACK of one operation of a context. `ecc` says that the data came with a double-bit error, and where
(17 R353, R364). A division writes through the divider alone. Nothing is written after a deposit in the same cycle, which stands (10 R225). -/
def execResultWriteback (core ctx tag : Nat) (ecc : Option Nat) (s : State) : Out :=
  match (s.core core).op? tag with
  | none => .next s
  | some o =>
    if o.ctx ≠ ctx ∨ (s.core core).divider = some tag ∨ (s.core core).depAt = some s.clock then .next s
    else match s.windowsOf core o with
      | (s, none) => .next s
      | (s, some o) =>
        if o.fin = .block then .next s
        else match o.lower o.fault (o.eccFault ecc) with
          | some f =>
            if o.lanes.all fun l => l.done || decide (l.op = .later) then .next (s.deferFault core o f) else .next s
          | none =>
            match o.fin with
            | .mxStore f bit x mode lfsr =>
              if o.lanes.all fun l => l.done || decide (1 ≤ l.ix) then .next (s.storeElem core o f bit x mode lfsr) else .next s
            | .lazy c t =>
              if o.allDone then .next ((s.fillTile c t o).writeReady core o o.ageWrite) else .next s
            | .none => .next (s.sweep core)
            | _ =>
              if !o.allDone then .next s
              else if o.lagTrap then .next (s.pendTrap core o)
              else .next (s.writeReady core o o.results)

end Sys2Proof.Machine
end

