-- ==== Sys2Proof/Machine/Registers.lean ====
section
/-! DEFINITION. Writes of registers by the host and by window accesses, as events of their own (01 R31, 03 R80, R81; 06 R141; 09 R212;
13 R269, R271; 18 R368; 24 R419). -/

namespace Sys2Proof.Machine

/-- A write of TSAVEP or of a TSHAPE that no context makes: the LAZY tiles that it would lose load first, through the translations of the core
that has them, in supervisor mode; it is tried again while they have not, and one whose image is refused or poisoned is discarded (13 R271,
R269; assumptions 65 and 79, DESIGN CHOICE, unsafe). -/
def State.writeLazy (s : State) (c n : Nat) (v : Word) : State :=
  match s.lazyAll c true (if n = 0x128 then List.range 8 else [n - 0x120]) with
  | (s, .all) => if n = 0x128 then s.setTsavep c v else s.writeTshape c (n - 0x120) v
  | (s, .wait) => s.retryWrite (csrOffset c 0 n) v
  | (s, _) => s
/-- A write at an offset of device control space (01 R31, 18 R366): at a core that is being migrated it is held (17 R363). -/
def State.registerWrite (s : State) (off : Nat) (v : Word) : State :=
  match s.ctrlCore off with
  | some (c, o) =>
    if (s.core c).moving then s.retryWrite off v
    else match windowCsr o with
      | some (_, n) => if 0x120 ≤ n ∧ n ≤ 0x128 then s.writeLazy c n v else s.hostWrite off v
      | none => s.hostWrite off v
  | none => s.hostWrite off v
/-- A read at an offset of device control space (18 R366); while it waits for a migrating core it comes again (17 R363). -/
def State.registerRead (s : State) (off : Nat) : State :=
  match s.ctrlCore off with
  | some (c, _) => if (s.core c).moving then { s with agenda := s.agenda ++ [.hostRead off 1] } else s.hostRead off
  | none => s.hostRead off
/-- REGISTER_WRITE. -/
def execRegisterWrite (off : Nat) (v : BitVec 64) (s : State) : Out := .next (s.registerWrite off v)
/-- A write of REJH or REJF clears it (18 R368). -/
def execRejCounterClear (fabric : Bool) (s : State) : Out :=
  .next { s with dev := if fabric then { s.dev with rejf := 0 } else { s.dev with rejh := 0 } }
/-- A CSR write of ITER acts as itset does (06 R141). -/
def execIterWrite (core ctx : Nat) (v : BitVec 64) (s : State) : Out :=
  s.whenStill core ctx 0x001 v fun s => s.setIter core ctx (v.setWidth 16)
/-- A supervisor write of TSHAPE (13 R269). -/
def execTshapeWrite (core : Nat) (t : BitVec 3) (v : BitVec 64) (s : State) : Out :=
  s.whenStill core 0 (0x120 + t.toNat) v fun s => s.writeLazy core (0x120 + t.toNat) v
/-- A write of the issuing core's TSAVEP (13 R271). -/
def execTsavepWrite (v : BitVec 64) (s : State) : Out :=
  s.whenStill s.curCore 0 0x128 v fun s => s.writeLazy s.curCore 0x128 v
/-- A supervisor write of MXSTEP (09 R211, R212). -/
def execMxstepWrite (core : Nat) (v : BitVec 64) (s : State) : Out :=
  s.whenStill core 0 0x205 v fun s => s.writeMxstep core v
/-- A write of CECNT or LATE clears it (24 R419). -/
def execCounterClear (cluster : Nat) (late : Bool) (s : State) : Out :=
  .next (s.debugWrite cluster (if late then 0x70 else 0x18) 0)
/-- A read of TRCDATA gives the entry at RD and advances RD (24 R419). -/
def execTrcdataRead (cluster : Nat) (s : State) : Out :=
  let (s, w) := s.debugRead cluster 0x80
  .next { s with hostOut := s.hostOut ++ [.trace w] }

end Sys2Proof.Machine
end

