-- ==== Sys2Proof/Machine/Stamped.lean ====
section
/-! DEFINITION. Lagged loads (06 R147 to R155) and the iteration counter (06 R156, R157). -/

namespace Sys2Proof.Machine

/-- Whether a lane is on a STAMPED page, of this module or of another device. -/
def Lane.stamped (l : Lane) : Bool := l.place.cls? == some .stamped
/-- ldl of n bytes (06 R149): on a page that is not STAMPED it is an ordinary load with an age word of zero. The iteration and the due
cycle are fixed at issue, and stay while a translation is awaited; with lag 63 it never waits, and has no due cycle (06 R149, R151). -/
def ldlM (m : Bool) (d a b : BitVec 5) (lag : BitVec 6) (mode : BitVec 2) (n : Nat) (signed : Bool) : M Unit := do
  let va ← getM fun s => ptrVa (s.reg a)
  alignM va n
  watchM va n true false
  acquireM
  let k ← keepM fun s => [s.me.iter.toNat, if s.mine.staletmo = 0 ∨ lag = 63 then 0 else s.clock + s.mine.staletmo.toNat + 1]
  let ls ← resolveM false .read 1 [{ ix := 0, va := va, n := n, op := .read }]
  let due := k.getD 1 0
  let o ← getM fun s => { s.newOp with
    isLoad := true
    iter := BitVec.ofNat 16 (k.getD 0 0)
    lag := lag.toNat
    ldlMode := mode.toNat
    due := if due ≠ 0 ∧ ls.any Lane.stamped then some (due - 1) else none
    lanes := ls
    fin := .ldl (s.dst d) (s.dst b) n signed }
  issueM o none
  retireM m
/-- ldl.w (06 R147). -/
def execLdlW (m : Bool) (d a b : BitVec 5) (l : BitVec 6) (mode : BitVec 2) (s : State) : Out :=
  runM (ldlM m d a b l mode 4 true) s
/-- ldl.wu (06 R147). -/
def execLdlWu (m : Bool) (d a b : BitVec 5) (l : BitVec 6) (mode : BitVec 2) (s : State) : Out :=
  runM (ldlM m d a b l mode 4 false) s
/-- ldl.d (06 R147). -/
def execLdlD (m : Bool) (d a b : BitVec 5) (l : BitVec 6) (mode : BitVec 2) (s : State) : Out :=
  runM (ldlM m d a b l mode 8 false) s

/-- itadv and itset: they wait for the acknowledgements, then set ITER (06 R157). -/
def State.advanceIter (s : State) (m : Bool) (i : BitVec 16) : Out :=
  if s.stampedAcked then .next ((s.setIter s.curCore s.curCtx i).retire m)
  else .next (s.modMe fun y => { y with st := .parked, wait := .none })
/-- itadv (06 R157). -/
def execItadv (m : Bool) (i : BitVec 12) (s : State) : Out := s.advanceIter m (s.me.iter + i.setWidth 16)
/-- itset (06 R157). -/
def execItset (m : Bool) (a : BitVec 5) (i : BitVec 12) (s : State) : Out :=
  s.advanceIter m ((s.reg a).setWidth 16 + i.setWidth 16)
/-- itget (06 R157). -/
def execItget (m : Bool) (d : BitVec 5) (s : State) : Out := s.finish m d (s.me.iter.setWidth 64)

end Sys2Proof.Machine
end

