-- ==== Sys2Proof/Machine/Deque.lean ====
section
/-! DEFINITION. Deques and their spill rings in memory (14 R299, R302). Entry k of a ring, counted without end, stands at the origin
core's 8 KiB of the spill region, at doubleword k mod 1,024 (assumption 23, DESIGN CHOICE, unsafe). -/

namespace Sys2Proof.Machine

/-- Entries a deque can hold (14 R299, R300). -/
def dequeCap : Nat := 1088
/-- Entries in the ring. -/
def Core.ringLen (k : Core) : Nat := k.ringHi - k.ringLo
/-- Entries of a deque. -/
def Core.entries (k : Core) : Nat := k.deque.length + k.ringLen

/-- What an operation on a deque comes to: done, to be tried again once a translation or a home has answered, or refused the ring's
memory. -/
inductive RingAns (α : Type) where
  | ok (s : State) (a : α)
  | wait (s : State)
  | bad (s : State) (f : FaultInfo)

/-- The address of a ring entry (14 R299). -/
def State.ringVa (s : State) (c k : Nat) : Addr :=
  let base := match s.launchOf c with
    | some l => l.spill
    | none => 0
  base + BitVec.ofNat 56 (8192 * (s.core c).origin.getD c + 8 * (k % 1024))
/-- A ring entry's place: TRACKED memory that the core reaches in supervisor mode through translation requests of its own (14 R299). -/
def State.ringPlace (s : State) (c : Nat) (acc : Acc) (va : Addr) : RingAns (Nat × Nat × Nat) :=
  let bad (s : State) : RingAns (Nat × Nat × Nat) := .bad s { cause := .xlate, info := 0, addr := va, undeliv := false }
  match s.engineXlate c (s.core c).domain 5 0 true acc va with
  | (.wait, s) => .wait s
  | (.bad f, s) => .bad s f
  | (.hit t, s) => match t.tracked? with
    | some p => .ok s p
    | none => bad s
/-- Reads a ring entry for an agent; a poisoned one faults (08 R176). -/
def State.ringRead (s : State) (w : Writer) (c k : Nat) : RingAns Nat :=
  let va := s.ringVa c k
  match s.ringPlace c .read va with
  | .wait s => .wait s
  | .bad s f => .bad s f
  | .ok s (vcid, key, pa) => match s.readAtHome w vcid key (pa / 128) with
    | .busy s => .wait s
    | .done s v =>
      if v.poison then .bad s { cause := .poison, info := 0, addr := va, undeliv := false }
      else .ok s (unitGet v.data (pa % 128) 8)
/-- Writes a ring entry. -/
def State.ringWrite (s : State) (w : Writer) (c k e : Nat) : RingAns Unit :=
  match s.ringPlace c .write (s.ringVa c k) with
  | .wait s => .wait s
  | .bad s f => .bad s f
  | .ok s (vcid, key, pa) => match s.writeAtHome w vcid key (pa / 128) (fun u => unitPut u (pa % 128) 8 e) false with
    | .busy s => .wait s
    | .done s _ => .ok s ()
/-- Writes entries into the ring's slots from slot k on; they join the ring only when all of them are written. -/
def State.ringStore (s : State) (w : Writer) (c k : Nat) : List Nat → RingAns Unit
  | [] => .ok s ()
  | e :: es => match s.ringWrite w c k e with
    | .ok s _ => s.ringStore w c (k + 1) es
    | r => r
/-- Reads n entries from slot k on, oldest first. -/
def State.ringLoad (s : State) (w : Writer) (c k : Nat) : Nat → RingAns (List Nat)
  | 0 => .ok s []
  | n + 1 => match s.ringRead w c k with
    | .wait s => .wait s
    | .bad s f => .bad s f
    | .ok s e => match s.ringLoad w c (k + 1) n with
      | .ok s l => .ok s (e :: l)
      | r => r

/-- Pushes at the bottom; full hardware entries first move their oldest 32, or as many as the ring has room for, to the bottom of the
ring (14 R299). -/
def State.pushEntry (s : State) (w : Writer) (c va : Nat) : RingAns Unit :=
  let k := s.core c
  if k.deque.length < 64 then .ok (s.modCore c fun k => { k with deque := va :: k.deque }) () else
  let n := min 32 (1024 - k.ringLen)
  match s.ringStore w c k.ringHi (k.deque.drop (64 - n)).reverse with
  | .ok s _ => .ok (s.modCore c fun k => { k with deque := va :: k.deque.take (64 - n), ringHi := k.ringHi + n }) ()
  | r => r
/-- The bottom entry, which stays there. When the hardware entries are empty the newest 32 of the ring, or all of them, move back first
(14 R299). -/
def State.bottomEntry (s : State) (w : Writer) (c : Nat) : RingAns (Option Nat) :=
  let k := s.core c
  match k.deque with
  | e :: _ => .ok s (some e)
  | [] =>
    let n := min 32 k.ringLen
    match s.ringLoad w c (k.ringHi - n) n with
    | .wait s => .wait s
    | .bad s f => .bad s f
    | .ok s l => .ok (s.modCore c fun k => { k with deque := l.reverse, ringHi := k.ringHi - n }) l.getLast?
/-- The top entry, from the ring while it holds entries (14 R299). -/
def State.topEntry (s : State) (w : Writer) (c : Nat) : RingAns (Option Nat) :=
  let k := s.core c
  if k.ringLen = 0 then .ok s k.deque.getLast? else
  match s.ringRead w c k.ringLo with
  | .wait s => .wait s
  | .bad s f => .bad s f
  | .ok s e => .ok s (some e)

/-! In one cycle a push comes before a pop, a pop before a steal, and a steal of a lower thief before one of a higher (14 R302). -/

/-- The rank of a pop, of a steal of thief t, and of a push, among what happens to a deque in one cycle. -/
def rankPush : Nat := 0
def rankPop : Nat := 1
def rankSteal (t : Nat) : Nat := t + 2
/-- Whether something of a rank may still happen to a deque in this cycle: nothing of a later rank has. -/
def Core.inOrder (k : Core) (now rank : Nat) : Bool :=
  match k.takenAt with
  | some (t, r) => decide (t ≠ now) || decide (r ≤ rank)
  | none => true
/-- An agent of a rank has found an entry, or none: what comes before it in the order may not happen in this cycle any more. -/
def Core.dequeUsed (k : Core) (now rank : Nat) : Core := { k with takenAt := some (now, rank) }
/-- Removes the bottom entry. -/
def Core.popBottom (k : Core) (now : Nat) : Core := { k.dequeUsed now rankPop with deque := k.deque.drop 1 }
/-- Removes the top entry for a thief. -/
def Core.popTop (k : Core) (now t : Nat) : Core :=
  let k := k.dequeUsed now (rankSteal t)
  if k.ringLen = 0 then { k with deque := k.deque.dropLast } else { k with ringLo := k.ringLo + 1 }

end Sys2Proof.Machine
end

