-- ==== Sys2Proof/Machine/Tasks.lean ====
section
/-! DEFINITION. Helpers (14 R292, R293), task records and their claims (14 R294 to R297), deques, dispatch and stealing (14 R299
to R302), cancel, poll and identity (14 R303, R304). -/

namespace Sys2Proof.Machine

/-! ### Slots and the start and end of a context -/

/-- Frees a message slot. -/
def State.freeSlot (s : State) (c n : Nat) : State := s.modCore c fun k => { k with slotOwner := tdel k.slotOwner n }
/-- Frees the directed slot that a context holds (14 R307, R310). -/
def State.releaseDirected (s : State) (c x : Nat) : State :=
  let y := s.ctx c x
  if y.mpend then (s.freeSlot c y.mslot.toNat).modCtx c x fun y => { y with mpend := false, mseen := false } else s
/-- A context starts at a PC with WB reset (10 R230). -/
def Ctx.begin (y : Ctx) (pc : Addr) (mode : Mode) : Ctx :=
  { y with st := .ready, wait := .none, mode := mode, pc := pc, base := y.rslo, low := y.rslo, wpend := 0, rep := none,
           fetched := [], gonged := none, ranged := false, stepOver := false, ptrap := none, kept := none }
/-- Ends a helper with an exit value (14 R293). -/
def State.endHelper (s : State) (c h : Nat) (v : Word) : State :=
  let s := match (s.ctx c h).msgSlot with
    | some n => s.freeSlot c n
    | none => s
  (s.releaseDirected c h).modCtx c h fun y =>
    { y.discard with exitVal := v, msgSlot := none, creator := none }

/-- hstart (14 R292). -/
def execHstart (m : Bool) (a b : BitVec 5) (h : BitVec 4) (s : State) : Out :=
  let pc := s.reg a
  let v := s.reg b
  runM (do
    if h.toNat = s.curCtx then illegalM (encodeWord (.hstart m a b h))
    else do
      alignM (ptrVa pc) 4
      let y ← getM fun s => s.ctx s.curCore h.toNat
      if y.st ≠ .dormant then holdM
      else do
        modM fun s =>
          let c := s.curCore
          let me := s.me
          let s := s.modCtx c h.toNat fun y => { y.begin (ptrVa pc) me.mode with msgStarted := false, creator := some s.curCtx }
          ((s.setRegOf c h.toNat 8 v).setIter c h.toNat me.iter)
        retireM m) s

/-- Whether a context's results are written and its earlier writes performed at core scope (14 R293). -/
def State.quiet (s : State) (c x : Nat) : Bool :=
  ((s.core c).opsOf x).all fun o => !o.hasResult && (!o.isStore || o.performed false)
/-- hexit (14 R293). -/
def execHexit (m : Bool) (a : BitVec 5) (s : State) : Out :=
  runM (do
    if s.curCtx = 0 then illegalM (encodeWord (.hexit m a))
    else if !s.quiet s.curCore s.curCtx then parkM
    else modM fun t => t.endHelper t.curCore t.curCtx (s.reg a)) s
/-- hjoin (14 R293): a result that returns later. -/
def execHjoin (m : Bool) (d : BitVec 5) (h : BitVec 4) (s : State) : Out :=
  runM (do
    let y ← getM fun s => s.ctx s.curCore h.toNat
    if h.toNat = s.curCtx then illegalM (encodeWord (.hjoin m d h))
    else if y.st ≠ .dormant then waitM .join
    else modM fun s => s.issueResult m [.scalar (s.dst d) y.exitVal]) s

/-! ### Claims (14 R295) -/

/-- One indivisible operation on n bytes of a unit at its home: the value before it, and whether the unit is poisoned. -/
def State.rmwAtHome (s : State) (w : Writer) (vcid key pa n : Nat) (f : Nat → Option Nat) : AtHome (Nat × Bool) :=
  match s.seize w vcid (pa / 128) true with
  | .busy s => .busy s
  | .done s _ =>
    let (s, v) := s.readVc vcid (pa / 128) none
    if v.poisonFor key then .done s (0, true) else
    let old := unitGet (v.under key).data (pa % 128) n
    match f old with
    | some v => .done (s.performAtHome vcid key (pa / 128) (fun d => unitPut d (pa % 128) n v) none false) (old, false)
    | none => .done s (old, false)
/-- What a claim writes: CLAIMED, unless the record is CANCELLED. -/
def claimRule (f : Nat) : Option Nat := if f.testBit 3 then none else some (f ||| 4)

/-- What a claim comes to. -/
inductive Claimed where
  | ok (record : Nat)
  | cancelled
  | wait
  | fault (f : FaultInfo)

/-- Claims the record whose flags word a translation gives, and reads the record, which lies in the same unit. In the cycle in which a
tcancel has acted on the word a claim comes too late to be performed first, and waits for the next (14 R303, 16 R344). -/
def State.claimAt (s : State) (w : Writer) (rec : Addr) (t : Nat × Nat × Nat) : State × Claimed :=
  let (vcid, key, pa) := t
  if s.cancelled.contains (s.clock, pa) then (s, .wait) else
  match s.rmwAtHome w vcid key pa 8 claimRule with
  | .busy s => (s, .wait)
  | .done s (f, poison) =>
    if poison then (s, .fault (accFault .poison 0 rec))
    else if f.testBit 3 then (s, .cancelled)
    else
      let (s, v) := s.readVc vcid (pa / 128) none
      (s, .ok (unitGet (v.under key).data (pa % 128 / 64 * 64) 64))
/-- A claim of c0 in dispatch, through its translations; device control space faults XLATE before the mode is judged (14 R295). -/
def State.claimByC0 (s : State) (c : Nat) (rec : Addr) : State × Claimed :=
  match s.engineXlate c (s.core c).domain 3 100000 false .atomic (rec + 56) with
  | (.wait, s) => (s, .wait)
  | (.bad f, s) => (s, .fault (if s.toControl c (s.core c).domain false (rec + 56) then accFault .xlate 0 rec else f))
  | (.hit t, s) => match t.tracked? with
    | some t => s.claimAt (.agent 5 c) rec t
    | none => (s, .fault (accFault .xlate 0 rec))
/-- A claim by an instruction: it waits for a translation or a busy home, and its fault names the record (17 R353). -/
def claimM (rec : Addr) : M Claimed := fun s =>
  match (noControlM (rec + 56) >>= fun _ => trackedM .atomic 8 (rec + 56)) s with
  | .error (.fault f) => .ok (.fault { f with addr := rec }, s)
  | .error e => .error e
  | .ok (t, s) => match s.claimAt s.myAgent rec t with
    | (s, .wait) => holdM s
    | (s, r) => .ok (r, s)

/-! ### Starting and ending tasks (14 R296 to R298) -/

/-- A record of the core's launch has ended: the launch's count falls by one (14 R298). -/
def State.taskEnded (s : State) (c : Nat) : State :=
  match (s.core c).queue with
  | some q => s.modLaunch q fun l => { l with count := l.count - 1 }
  | none => s
/-- A remote fault of c0 before a task's first instruction: the record's VA in the address field and EPC zero (14 R296). -/
def State.faultStart (s : State) (c : Nat) (rec : Addr) (f : FaultInfo) : State :=
  let y := s.ctx c 0
  s.haltFault c 0 { f := { f with addr := rec }, pc := 0, seq := y.seq - 1, deferred := false, rep := none }
/-- Starts the task of a record on c0 (14 R296): unless it is a successor, tiles and CAPT registers are reset (13 R269). -/
def State.startTask (s : State) (c : Nat) (rec : Addr) (record : Nat) (succ : Bool) : State :=
  let w (i : Nat) : Word := BitVec.ofNat 64 (bitsOf record (64 * i) 64)
  let s := s.modCore c fun k => { k with task := some rec.toNat, taskLid := (w 5).setWidth 32, exitSucc := none, idleSince := none }
  let entry : Addr := (w 0).setWidth 56
  if entry.toNat % 4 ≠ 0 then s.faultStart c rec (accFault .misalign 0 rec) else
  let s := s.modCore c fun k => { k with
    tiles := if succ then k.tiles else []
    capt := if succ then k.capt else [] }
  let s := s.modCtx c 0 fun y => y.begin entry .user
  let s := (List.range 4).foldl (fun s i => s.setRegOf c 0 (8 + i) (w (1 + i))) s
  (s.setRegOf c 0 12 (rec.setWidth 64)).setRegOf c 0 13 (w 5)
/-- A claimed record that is not a successor starts once no tile of the core is BUSY (14 R296): until then it is c0's task
and c0 is DORMANT. -/
def State.startPending (s : State) (c : Nat) (rec : Addr) : State :=
  if !(s.core c).mxq.isEmpty then s else
  match s.engineXlate c (s.core c).domain 3 100000 false .read rec with
  | (.wait, s) => s
  | (.bad f, s) => s.faultStart c rec f
  | (.hit t, s) => match t.tracked? with
    | none => s.faultStart c rec (accFault .xlate 0 rec)
    | some (vcid, key, pa) => match s.readAtHome (.agent 5 c) vcid key (pa / 128) with
      | .busy s => s
      | .done s v =>
        if v.poison then s.faultStart c rec (accFault .poison 0 rec)
        else s.startTask c rec (unitGet v.data (pa % 128) 64) false

/-! ### Deques (14 R299 to R302) -/

/-- An operation on the deque of the issuing core; one whose ring memory is refused or poisoned faults at the instruction (assumption 23,
DESIGN CHOICE, unsafe). -/
def ringM {α : Type} (f : State → RingAns α) : M α := fun s =>
  match f s with
  | .ok t a => .ok (a, t)
  | .wait t => holdM t
  | .bad t g => .error (.wait (t.faultHere g))

/-- pusht (14 R300). -/
def execPusht (m : Bool) (a : BitVec 5) (s : State) : Out :=
  let va := ptrVa (s.reg a)
  runM (do
    alignM va 64
    if va.getLsbD 55 then faultM .xlate 0 va
    writesM
    if dequeCap ≤ s.mine.entries ∨ !s.mine.inOrder s.clock rankPush then holdM
    ringM fun s => s.pushEntry s.myAgent s.curCore va.toNat
    modM fun s => match s.mine.queue with
      | some q => s.modLaunch q fun l => { l with count := l.count + 1 }
      | none => s
    retireM m) s

/-- n cores of a cluster in ring order from core a of it. -/
def ringOf (d c a n : Nat) : List Nat := (List.range n).map fun i => 1024 * d + 256 * c + (a + i) % 256
/-- The order in which a thief tries victims (14 R301). -/
def victimOrder (t : Nat) : List Nat :=
  let d := dieOf t
  let c := clusterOf t % 4
  let n := posOf t
  ringOf d c (n + 1) 255 ++ ((List.range 3).flatMap fun j => ringOf d ((c + 1 + j) % 4) n 256) ++
    (List.range 7).flatMap fun e => (List.range 4).flatMap fun j => ringOf ((d + 1 + e) % 8) j n 256
/-- The first of some victims that the thief's launch may use and whose deque shows non-empty, and the rest (14 R301). -/
def State.nextVictim (s : State) (c : Nat) : List Nat → Option (Nat × List Nat)
  | [] => none
  | v :: l =>
    let ok : Bool := match (s.core c).queue with
      | some q => s.inMask (s.queue q) v && decide ((s.core (s.forwarded v)).entries ≠ 0)
      | none => false
    if ok then some (v, l) else s.nextVictim c l
/-- Sends a round's next request, or ends the round: a dispatch then parks, a popt goes on to its result. -/
def State.stealNext (s : State) (c : Nat) (r : StealRound) : State :=
  match s.nextVictim c r.victims with
  | some (v, l) => (s.modCore c fun k => { k with steal := some { r with victims := l, waiting := true } }).send (.steal v c)
  | none => match r.forCtx with
    | none => s.modCore c fun k => { k with steal := none, idleSince := some s.clock }
    | some x => (s.modCore c fun k => { k with steal := some { r with victims := [], waiting := false } }).modCtx c x fun y =>
        if y.wait = .steal then y.wake else y
/-- Begins a round (14 R301). -/
def State.beginSteal (s : State) (c : Nat) (forCtx : Option Nat) : State :=
  s.stealNext c { victims := victimOrder c, forCtx := forCtx, waiting := false, got := none }

/-- Whether a round belongs to dispatch. -/
def StealRound.mine (r : StealRound) (x : Option Nat) : Bool := decide (r.forCtx = x)

/-- The bottom entry of a core's own deque, with its removal. -/
def State.ownEntry (s : State) (w : Writer) (c : Nat) : RingAns (Option (Nat × (Core → Core))) :=
  if !(s.core c).inOrder s.clock rankPop then .wait s else
  match s.bottomEntry w c with
  | .ok s none => .ok (s.modCore c fun k => k.dequeUsed s.clock rankPop) none
  | .ok s (some e) => .ok s (some (e, fun k => k.popBottom s.clock))
  | .wait s => .wait s
  | .bad s f => .bad s f
/-- What Take finds for c0: the entry that a round received, nothing while a round runs, or the bottom of its own deque. -/
def State.nextEntry (s : State) (c : Nat) : RingAns (Option (Nat × (Core → Core))) :=
  match (s.core c).steal with
  | some r => if r.mine none then .ok s (r.got.map fun e => (e, fun k => { k with steal := none })) else s.ownEntry (.agent 5 c) c
  | none => s.ownEntry (.agent 5 c) c
/-- Whether a core's launch drains: what a Take removes is discarded, without a claim (16 R345; assumption 62, DEDUCED). -/
def State.draining (s : State) (c : Nat) : Bool :=
  match s.launchOf c with
  | some l => l.drained
  | none => false
/-- Take for c0 (14 R300): the next entry, then a round when `round` says so. A CANCELLED record, or one of a draining launch, counts as ended
and the next is taken; one whose claim faults halts c0, and so does a refused or poisoned ring (assumption 23, DESIGN CHOICE, unsafe). -/
def State.dispatchOn (s : State) (c : Nat) (round : Bool) : Nat → State
  | 0 => s
  | n + 1 => match s.nextEntry c with
    | .wait s => s
    | .bad s f => s.faultStart c f.addr f
    | .ok s (some (e, remove)) =>
      let rec' : Addr := BitVec.ofNat 56 e
      let discard (s : State) : State := (s.modCore c remove).taskEnded c
      if s.draining c then (discard s).dispatchOn c round n else
      match s.claimByC0 c rec' with
      | (s, .wait) => s
      | (s, .fault f) => (discard s).faultStart c rec' f
      | (s, .cancelled) => (discard s).dispatchOn c round n
      | (s, .ok record) =>
        let s := s.modCore c remove
        if (s.core c).mxq.isEmpty then s.startTask c rec' record false
        else s.modCore c fun k => { k with task := some e, taskLid := BitVec.ofNat 32 (bitsOf record 320 32), idleSince := none }
    | .ok s none => if round && (s.core c).steal.isNone then s.beginSteal c none else s

/-- Whether a launch's records may be taken: all of them are written (16 R337). -/
def Launch.takes (l : Launch) : Bool := decide (l.st = .running) || (decide (l.st = .preparing) && decide (8 ≤ l.step))
/-- Whether c0 of a core dispatches: the core runs a live launch and c0 runs no task (14 R289, R300). -/
def State.dispatches (s : State) (c : Nat) : Bool :=
  decide ((s.ctx c 0).st = .dormant) && !(s.core c).treeHalted && !(s.core c).moving && (match s.launchOf c with
    | some l => l.takes
    | none => false)
/-- DISPATCH: c0 without a task takes a record and starts it; after an empty round it waits until its own deque
receives one (14 R300). -/
def execDispatch (core : Nat) (s : State) : Out :=
  if !s.dispatches core then .next s else
  match (s.core core).task with
  | some rec => .next (s.startPending core (BitVec.ofNat 56 rec))
  | none => .next (s.dispatchOn core ((s.core core).idleSince.isNone || decide ((s.core core).entries ≠ 0)) ((s.core core).entries + 2))
/-- DISPATCH_ROUND_TIMER: 1,024 cycles after an empty round, a new one runs (14 R300). -/
def execDispatchRoundTimer (core : Nat) (s : State) : Out :=
  if !s.dispatches core ∨ (s.core core).task.isSome then .next s else
  match (s.core core).idleSince with
  | some t =>
    if s.clock < t + 1024 then .next s
    else .next ((s.modCore core fun k => { k with idleSince := none }).dispatchOn core true ((s.core core).entries + 2))
  | none => .next s

/-- STEAL_REQUEST: the victim hands over its top entry, or answers empty (14 R301); a thief of another launch gets
nothing, and so does one that asks during a migration (17 R363), or whose entry's ring memory is refused or poisoned (assumption 23, DESIGN
CHOICE, unsafe). -/
def execStealRequest (id : Nat) (s : State) : Out :=
  match s.flight? id with
  | some { pkt := .steal v t, .. } =>
    let c := s.forwarded v
    let k := s.core c
    let empty (s : State) : Out := .next ((s.drop id).send (.stealReply t none))
    if k.queue ≠ (s.core (s.forwarded t)).queue ∨ k.queue = none ∨ k.moving then empty s
    else if !k.inOrder s.clock (rankSteal t) then .next s
    else match s.topEntry (.msg id) c with
      | .wait s => .next s
      | .bad s _ => empty s
      | .ok s none => empty (s.modCore c fun k => k.dequeUsed s.clock (rankSteal t))
      | .ok s (some e) => .next (((s.drop id).modCore c fun k => k.popTop s.clock t).send (.stealReply t (some e)))
  | _ => .next s
/-- STEAL_REPLY: the thief has an entry to claim, or tries its next victim (14 R301). An entry whose round is gone goes to
the thief's own deque, once it has room for it (14 R302). -/
def execStealReply (id : Nat) (s : State) : Out :=
  match s.flight? id with
  | some { pkt := .stealReply t entry, .. } =>
    let c := s.forwarded t
    let k := s.core c
    if k.moving then .next s else
    match k.steal.filter (fun r => r.waiting), entry with
    | some r, some e =>
      let s := (s.drop id).modCore c fun k => { k with steal := some { r with waiting := false, got := some e } }
      match r.forCtx with
      | some x => .next (s.modCtx c x fun y => if y.wait = .steal then y.wake else y)
      | none => if s.dispatches c then .next (s.dispatchOn c true (k.entries + 2)) else .next s
    | some r, none => .next ((s.drop id).stealNext c { r with waiting := false })
    | none, some e =>
      if dequeCap ≤ k.entries ∨ !k.inOrder s.clock rankPush then .next s
      else match s.pushEntry (.msg id) c e with
        | .ok s _ => .next (s.drop id)
        | .wait s => .next s
        | .bad s _ => .next s
    | none, none => .next (s.drop id)
  | _ => .next s

/-! ### popt (14 R300) -/

/-- Pops and claims the core's own entries until one is claimed (14 R300). An entry whose claim faults has ended, and the
fault is the popt's (14 R295). What a draining launch still holds is discarded (16 R345). -/
def popOwnM : Nat → M (Option Nat)
  | 0 => return none
  | n + 1 => do
    match ← ringM fun s => s.ownEntry s.myAgent s.curCore with
    | none => return none
    | some (e, remove) => do
      let discard (s : State) : State := (s.modCore s.curCore remove).taskEnded s.curCore
      if ← getM fun s => s.draining s.curCore then do
        modM discard
        popOwnM n
      else match ← claimM (BitVec.ofNat 56 e) with
        | .ok _ => do
          modM fun s => s.modCore s.curCore remove
          return some e
        | .cancelled => do
          modM discard
          popOwnM n
        | .fault f => stopWith fun s => (discard s).faultHere f
        | .wait => holdM
/-- popt (14 R300): a result that returns later, 0 when nothing is left to take. -/
def execPopt (m : Bool) (d : BitVec 5) (s : State) : Out :=
  let me := some s.curCtx
  let clear (s : State) : State := s.modCore s.curCore fun k => { k with steal := none }
  let give (w : Word) : M Unit := modM fun s => s.issueResult m [.scalar (s.dst d) w]
  let take : M Unit := do
    let n ← getM fun s => s.mine.entries
    match ← popOwnM (n + 1) with
    | some e => give (BitVec.ofNat 64 e)
    | none => do
      if (← getM fun s => s.mine.steal).isSome then parkM
      else do
        modM fun s => s.beginSteal s.curCore me
        match ← getM fun s => s.mine.steal with
        | some r =>
          if r.waiting then waitM .steal
          else do
            modM clear
            give 0
        | none => give 0
  runM (do
    acquireM
    releaseM
    match s.mine.steal with
    | some r =>
      if !r.mine me then take
      else match r.got with
        | some e => do
          if ← getM fun s => s.draining s.curCore then do
            modM fun s => (clear s).taskEnded s.curCore
            take
          else match ← claimM (BitVec.ofNat 56 e) with
          | .ok _ => do
            modM clear
            give (BitVec.ofNat 64 e)
          | .cancelled => do
            modM fun s => (clear s).taskEnded s.curCore
            take
          | .fault f => stopWith fun s => ((clear s).taskEnded s.curCore).faultHere f
          | .wait => holdM
        | none =>
          if r.waiting then waitM .steal
          else do
            modM clear
            give 0
    | none => take) s

/-! ### exit, tcancel, tpoll, ctxid -/

/-- A word of c0's current record, read at its home with acquire, in the order of the context's accesses (14 R297, R303; 07 R160, R161). -/
def recordWordM (off : Nat) : M (Option Word) := do
  match ← getM fun s => s.mine.task with
  | none => return none
  | some rec => do
    let va : Addr := BitVec.ofNat 56 (rec + off)
    acquireM
    let (vcid, key, pa) ← trackedM .read 8 va
    unitOrderM vcid key pa
    let v ← atHomeM fun s => s.readAtHome s.myAgent vcid key (pa / 128)
    if v.poison then faultM .poison 0 va
    else return some (BitVec.ofNat 64 (unitGet v.data (pa % 128) 8))
/-- Ends the task on c0: its record ends, and c0 is DORMANT until it dispatches (14 R297). -/
def State.endTask (s : State) (c : Nat) : State :=
  let s := if (s.core c).task.isSome then s.taskEnded c else s
  (s.modCore c fun k => { k with task := none, exitSucc := none, idleSince := none }).modCtx c 0 fun y =>
    { y with st := .dormant, wait := .none, ptrap := none, rep := none, fetched := [], seq := y.seq + 1 }
/-- SUCC of c0's record, read once for an exit: an exit that waits keeps what it read (14 R297). -/
def succM : M Addr := do
  let (seq, pc) ← getM fun s => (s.me.seq, s.me.pc)
  match ← getM fun s => s.mine.exitSucc.bind fun k => if k.1 = seq ∧ k.2.1 = pc then some k.2.2 else none with
  | some v => return v
  | none => do
    let v := match ← recordWordM 48 with
      | some w => ptrVa w
      | none => 0
    modM fun s => s.modCore s.curCore fun k => { k with exitSucc := some (seq, pc, v) }
    return v
/-- exit (14 R297): register a is read as it issues. A service core takes no task, so its exit claims no successor (01 R16; assumption 82,
DEDUCED). -/
def execExit (m : Bool) (a : BitVec 5) (s : State) : Out :=
  let c := s.curCore
  runM (do
    noRepM
    if s.curCtx ≠ 0 then illegalM (encodeWord (.exit m a))
    else do
      let k ← keepM fun s => [(s.reg a).toNat]
      let w : Word := BitVec.ofNat 64 (k.getD 0 0)
      let succ ← if w ≠ 0 then pure (ptrVa w) else succM
      if succ ≠ 0 ∧ (succ.toNat % 64 ≠ 0 ∨ succ.getLsbD 55) then faultM .misalign 0 succ
      if ← getM fun s => (List.range 10).any fun i =>
          let y := s.ctx c (i + 1)
          y.creator.isSome && decide (y.st ≠ .dormant) then parkM
      if ← getM fun s => s.mine.resultsOut 0 || !s.writesDone c 0 then parkM
      if succ = 0 ∨ s.isService c then modM fun s => (s.releaseDirected c 0).endTask c
      else do
        match ← claimM succ with
        | .ok record => modM fun s => (s.releaseDirected c 0).startTask c succ record true
        | .cancelled => modM fun s => (s.releaseDirected c 0).endTask c
        | .fault f => stop (.fault f)
        | .wait => holdM) s

/-- tcancel (14 R303): an atomic on the flags word that writes no register, with the rules of amoor.d.rlx (08 R186): on a page of another
device it is an ATOMIC packet (assumption 14, PRESUMED). -/
def execTcancel (m : Bool) (a : BitVec 5) (s : State) : Out :=
  let va : Addr := ptrVa (s.reg a) + 56
  runM (do
    let o ← getM fun s => { s.newOp with isLoad := true, isStore := true }
    accessM .atomic false 8 [{ ix := 0, va := va, n := 8, op := .amo 12 8 0 }] o
    retireM m) s
/-- tpoll (14 R303): a result that returns later. -/
def execTpoll (m : Bool) (d : BitVec 5) (s : State) : Out :=
  runM (do
    acquireM
    afterReleasesM
    let w ← if (s.ctx s.curCore 0).st = .dormant then pure none else recordWordM 56
    modM fun s => s.issueResult m [.scalar (s.dst d) (w.getD 0)]) s
/-- ctxid (14 R304): the launch id is that of c0's current record. -/
def execCtxid (m : Bool) (d : BitVec 5) (s : State) : Out :=
  let k := s.mine
  s.finish m d (BitVec.ofNat 64 (s.curCtx + s.curCore * 16 + (if k.task.isSome then k.taskLid.toNat else 0) * 2 ^ 32))

end Sys2Proof.Machine
end

