-- ==== Sys2Proof/Machine/System.lean ====
section
/-! DEFINITION. CSR forms (10 R232, 03 R79, R80), trap, rtt and bkpt (17 R358), halt, resume, kill (17 R357 to R360), migr (17
R361 to R363), tmark (24 R424) and the illegal encoding (03 R78). -/

namespace Sys2Proof.Machine

/-! ### CSR forms -/

/-- csrr (10 R232). -/
def execCsrr (m : Bool) (d : BitVec 5) (c : BitVec 12) (s : State) : Out :=
  s.finish m d (s.csrRead s.curCore s.curCtx c.toNat)

/-- Whether the table denies the issuing mode a write (03 R79). -/
def State.csrDenied (s : State) (n : Nat) : Bool := !csrWritable n (decide (s.me.mode = .supervisor))
/-- Loads the LAZY tiles of a list in order, as loads of the issuing context (13 R271). -/
def lazyTilesM : List Nat → M Unit
  | [] => return ()
  | t :: ts => do
    let c ← getM fun s => s.curCore
    touchTileM c t
    lazyTilesM ts
/-- Writes a CSR and gives `d` the old value (10 R232). ITER acts as itset (06 R141), TSAVEP loads LAZY tiles first (13
R271), and a change of DOMAIN or BSPLIT holds the context until its scrubs are done (05 R108, R109). -/
def csrWriteM (m : Bool) (d : RegDst) (n : Nat) (v old : Word) : M Unit := do
  if n = 0x001 then do
    if !(← getM State.stampedAcked) then parkM
    modM fun s => (((s.setIter s.curCore s.curCtx (v.setWidth 16)).writeDst s.curCore s.curCtx d old).retire m)
  else do
    if n = 0x128 then lazyTilesM (List.range 8)
    modM fun s =>
      let s := s.modMe Ctx.advance
      let s := s.csrWrite s.curCore s.curCtx n v (some (s.curCtx, m, d, old))
      match s.me.wait with
      | .scrub _ _ _ _ => s
      | _ =>
        let s := s.writeDst s.curCore s.curCtx d old
        if m then s.park s.curCore s.curCtx else s
/-- A CSR form that writes when `writes` says so (10 R232): a denied user write faults PRIV, a denied supervisor write is
discarded (03 R80). -/
def csrFormM (m : Bool) (d : RegDst) (n : Nat) (writes : Bool) (f : Word → Word) : M Unit := fun s =>
  let old := s.csrRead s.curCore s.curCtx n
  if writes && s.csrDenied n && decide (s.me.mode = .user) then faultM .priv 0 0 s
  else if writes && !s.csrDenied n then csrWriteM m d n (f old) old s
  else .ok ((), (s.writeDst s.curCore s.curCtx d old).retire m)
/-- csrw (10 R232). -/
def execCsrw (m : Bool) (a : BitVec 5) (c : BitVec 12) (s : State) : Out :=
  runM (csrFormM m .none c.toNat true fun _ => s.reg a) s
/-- csrs (10 R232). -/
def execCsrs (m : Bool) (d a : BitVec 5) (c : BitVec 12) (s : State) : Out :=
  runM (csrFormM m (s.dst d) c.toNat (decide (a ≠ 0)) fun old => old ||| s.reg a) s
/-- csrc (10 R232). -/
def execCsrc (m : Bool) (d a : BitVec 5) (c : BitVec 12) (s : State) : Out :=
  runM (csrFormM m (s.dst d) c.toNat (decide (a ≠ 0)) fun old => old &&& ~~~ s.reg a) s

/-! ### trap, rtt, bkpt, tmark -/

/-- trap (17 R358): the local trap SOFT, with EPC at the next instruction. -/
def execTrap (_m : Bool) (imm : BitVec 12) (s : State) : Out :=
  if s.me.rep.isSome then .next (s.localTrap s.curCore s.curCtx { code := 5, epc := s.me.pc, einfo := 0, wpend := 0 })
  else .next ((s.modMe fun y => { y with seq := y.seq + 1 }).localTrap s.curCore s.curCtx
    { code := 6, epc := s.me.pc + 4, einfo := imm.setWidth 64, wpend := 0 })
/-- rtt (17 R358). -/
def execRtt (m : Bool) (s : State) : Out :=
  if s.me.rep.isSome then .next (s.localTrap s.curCore s.curCtx { code := 5, epc := s.me.pc, einfo := 0, wpend := 0 })
  else .next (s.returnTrap m)
/-- bkpt (17 R358): with breakpoints enabled its context halts as under halt, its resume point the next instruction, and
the hit is recorded (24 R419); otherwise it is ILLEGAL. -/
def execBkpt (m : Bool) (s : State) : Out :=
  if (s.dbgOf (clusterOf s.curCore)).bken then .next ((s.retire m).debugHit s.curCore s.curCtx 3 false)
  else .next (s.faultHere (accFault .illegal (encodeWord (.bkpt m)).toNat 0))
/-- tmark (24 R424): the state entry of a core that becomes running comes first. -/
def execTmark (m : Bool) (a : BitVec 5) (s : State) : Out :=
  let s := s.traceIssue s.curCore
  let s := if s.tracing s.curCore then s.modCore s.curCore fun k => k.traceEntry s.clock 1 0 (fld (s.reg a) 0 32) else s
  .next (s.retire m)
/-- ILLEGAL_ENCODING (03 R78). -/
def execIllegalEncoding (w : BitVec 32) (s : State) : Out := .next (s.faultHere (accFault .illegal w.toNat 0))

/-! ### halt and resume (17 R357, R359) -/

/-- CTX of a supervisor descriptor. -/
def supCtx (a : Word) : Nat := fld a 13 4
/-- The contexts that CTX names. -/
def supCtxs (a : Word) : List Nat := if supCtx a = 15 then allCtx else [supCtx a]
/-- CTX 11 to 14 (17 R357). -/
def badCtx (a : Word) : Bool := decide (11 ≤ supCtx a) && decide (supCtx a ≤ 14)
/-- CORE of a supervisor descriptor, through forwarding (17 R357). -/
def State.supCore (s : State) (a : Word) : Nat := s.forwarded (fld a 0 13)
/-- Whether every context that a descriptor names satisfies a test. -/
def State.supAll (s : State) (a : Word) (p : CtxState → Bool) : Bool :=
  (supCtxs a).all fun x => p (s.ctx (s.supCore a) x).st

/-- The cores that run a queue's launch. -/
def State.treeCores (s : State) (q : Nat) : List Nat := allCores.filter fun c => (s.core c).queue == some q
/-- The halt tree (17 R359): every core of a launch stops and latches its halt record. Its matrix operation waits for the first resume of any
context of the core (09 R212). -/
def State.haltTree (s : State) (q : Nat) : State :=
  (s.treeCores q).foldl (fun s c =>
    let s := allCtx.foldl (fun s x => s.stopCtx c x) s
    s.modCore c fun k => { (k.interruptMx mxHaltCore).latch s.clock with treeHalted := true }) s
/-- Parks the issuer, which issues again later. -/
def State.parkMe (s : State) : Out := .next (s.modMe fun y => { y with st := .parked, wait := .none })
/-- Whether what a descriptor names is being migrated, its whole launch where `tree` says so: its arrivals are held (17 R363). -/
def State.supMoving (s : State) (a : Word) (tree : Bool) : Bool :=
  let k := s.core (s.supCore a)
  k.moving || (tree && k.queue.isSome && s.cores.any fun p => p.2.moving && p.2.queue == k.queue)
/-- Writes a status and completes; the effect on the named contexts follows, so that an issuer that names itself stops at
its next instruction. -/
def State.supervise (s : State) (m : Bool) (d : BitVec 5) (status : Nat) (f : State → State) : Out :=
  let t := (s.setReg d (BitVec.ofNat 64 status)).retire m
  .next (if status = 0 then f t else t)
/-- PRIV in user mode (03 R77). -/
def State.supervisorOnly (s : State) (k : Out) : Out :=
  if s.me.mode = .supervisor then k else .next (s.faultHere (accFault .priv 0 0))

/-- halt (17 R359). -/
def execHalt (m : Bool) (d a : BitVec 5) (s : State) : Out :=
  let w := s.reg a
  let c := s.supCore w
  s.supervisorOnly <|
    if badCtx w then s.supervise m d 2 id
    else if s.supMoving w (w.getLsbD 33) then s.parkMe
    else if w.getLsbD 33 then match (s.core c).queue with
      | some q => s.supervise m d 0 fun s => s.haltTree q
      | none => s.supervise m d 1 id
    else s.supervise m d 0 fun s => (supCtxs w).foldl (fun s x => s.haltCtx c x) s

/-! ### kill (17 R360) -/

/-- Drops a steal round that a killed context ran; an entry that it had received goes to the core's own deque, as one that arrives later
does (14 R302). -/
def State.dropSteal (s : State) (c : Nat) (p : Option Nat → Bool) : State :=
  match (s.core c).steal with
  | some r =>
    if !p r.forCtx then s else
    let s := s.modCore c fun k => { k with steal := none }
    match r.got with
    | some e => s.send (.stealReply c (some e))
    | none => s
  | none => s
/-- Ends one helper with the exit value of a kill. -/
def State.killHelper (s : State) (c x code : Nat) : State :=
  if (s.ctx c x).st = .dormant then s else
  ((s.dropSteal c fun f => f == some x).endCtx c x).endHelper c x (BitVec.ofNat 64 (2 ^ 63 + code))
/-- Ends every context of a core and its task, which ends as by an exit without a successor; its interrupted matrix
operation is abandoned (09 R212). -/
def State.killCore (s : State) (c code : Nat) : State :=
  let had : Bool := decide ((s.ctx c 0).st ≠ .dormant) && (s.core c).task.isSome
  let s := (List.range 10).foldl (fun s i => s.killHelper c (i + 1) code) s
  let s := if (s.ctx c 0).st = .dormant then s else (s.releaseDirected c 0).endCtx c 0
  let s := (s.dropSteal c fun f => f == some 0 || f == none).modCore c fun k => { k with
    exitSucc := none
    treeHalted := false
    mxpend := false
    mxstop := 0
    mxq := match k.mxq with
      | o :: l => { o with abandoned := o.abandoned || o.begun || k.mxpend } :: l
      | [] => [] }
  if had then (s.taskEnded c).modCore c fun k => { k with task := none, idleSince := none } else s
/-- The effect of a kill on what a CTX field names (17 R360). -/
def State.killCtx (s : State) (c x code : Nat) : State := if x = 0 ∨ x = 15 then s.killCore c code else s.killHelper c x code
/-- kill (17 R360). -/
def execKill (m : Bool) (d a : BitVec 5) (s : State) : Out :=
  let w := s.reg a
  let c := s.supCore w
  s.supervisorOnly <|
    if badCtx w then s.supervise m d 2 id
    else if s.supMoving w (w.getLsbD 33) then s.parkMe
    else if w.getLsbD 33 then match (s.core c).queue with
      | some q => s.supervise m d 0 fun s => s.killLaunch q
      | none => s.supervise m d 1 id
    else if s.supAll w fun t => decide (t = .dormant) then s.supervise m d 1 id
    else s.supervise m d 0 fun s => s.killCtx c (supCtx w) (fld w 40 8)

/-- A core that the halt tree has stopped goes on to dispatch (17 R359). -/
def State.untree (s : State) (c : Nat) : State :=
  if (s.core c).treeHalted then s.modCore c fun k => { k with treeHalted := false, mxstop := k.mxstop / 4 * 4 + k.mxstop % 2 } else s
/-- Resumes the HALTED contexts among some of a core. One that was halted with cause RANGE is killed instead, its exit code 0 (04 R101;
assumption 73, DESIGN CHOICE, unsafe). -/
def State.resumeOn (s : State) (c : Nat) (xs : List Nat) (useEpc : Bool) : State :=
  xs.foldl (fun s x =>
    let y := s.ctx c x
    if y.st ≠ .halted then s
    else if y.ranged then s.killCtx c x 0
    else s.resumeCtx c x useEpc) s
/-- resume (17 R359) of what CTX names, or with LAUNCH of every context of every core of the launch (assumption 11, DEDUCED). A core that the
halt tree stopped with no context to halt goes on when a resume names it, whose status is 1 all the same (assumption 63, DESIGN CHOICE,
unsafe). -/
def execResume (m : Bool) (d a : BitVec 5) (s : State) : Out :=
  let w := s.reg a
  let c := s.supCore w
  let tree := w.getLsbD 33
  s.supervisorOnly <|
    if badCtx w then s.supervise m d 2 id
    else if s.supMoving w tree then s.parkMe
    else
      let xs := if tree then allCtx else supCtxs w
      match (if tree then (s.core c).queue.map s.treeCores else some [c]) with
      | none => s.supervise m d 1 id
      | some cs =>
        if cs.all fun c => xs.all fun x => decide ((s.ctx c x).st ≠ .halted) then (cs.foldl State.untree s).supervise m d 1 id
        else s.supervise m d 0 fun s => cs.foldl (fun s c => s.resumeOn c xs (w.getLsbD 32)) s

/-! ### migr (17 R361 to R363) -/

/-- Whether a core is free to take a migrated core of a domain: no other migration is under way to it (17 R361, R363). -/
def State.coreFree (s : State) (c domain : Nat) : Bool :=
  let k := s.core c
  allCtx.all (fun x => decide ((k.ctx x).st = .dormant)) && k.entries == 0 && k.queue.isNone && s.fwds.all (fun f => f.old != c) && !s.reserved c &&
    s.queues.all fun p => !(s.inMask p.2 c) || ((decide (p.2.state = 0) || p.2.domain == domain) && (match p.2.launch with
        | some l => decide (l.st = .queued ∨ l.st = .eligible)
        | none => true))
/-- The status of a migration before it ends (17 R361). -/
def State.migrStatus (s : State) (c new : Nat) : Nat :=
  let k := s.core c
  if !s.isCompute c || !s.isCompute new then 2
  else if k.queue.isNone || !s.coreFree new k.domain then 1
  else if k.bsplit ≠ 0 ∧ clusterOf c ≠ clusterOf new then 3
  else if 8 ≤ (s.fwds.filter fun f => f.old == c).length then 4
  else 0
/-- Whether a lane that has not performed belongs to an ldl that waits: it travels with its context (17 R361 step 2). -/
def Op.lagWait (o : Op) (l : Lane) : Bool :=
  (match o.fin with
    | .ldl _ _ _ _ => true
    | _ => false) && (match l.place with
    | .unit _ .stamped _ _ => true
    | .remote .stamped _ _ => true
    | _ => false)
/-- Whether an access that is replayed waits for its translation: its request is withdrawn, and sent again from NEWCORE (17 R361 step 2, 04
R90, R102). -/
def State.replayWaits (s : State) (c : Nat) (o : Op) (l : Lane) : Bool :=
  s.net.any fun f => decide (f.hold = .replay) && s.forwarded f.pkt.replayCore == c && replayLane f.pkt o l
/-- Whether what a core's contexts and its matrix unit have outstanding has drained (17 R361 step 1): results that only wait to be written
travel with their contexts (10 R216), what copy channels and a sequencer read for themselves goes on, and contributions to collectives have
been accepted or refused (15 R331). -/
def State.drained (s : State) (c : Nat) : Bool :=
  let k := s.core c
  !s.scrubs? c && k.mxbuf.isEmpty && allCtx.all (fun x => decide ((k.ctx x).wait ≠ .router ∨ (k.ctx x).st = .halted)) &&
    k.ops.all fun o => decide (100 ≤ o.ctx) || o.lanes.all fun l => l.done || o.lagWait l || s.replayWaits c o l
/-- Step 3 of 17 R361: the L1 returns its dirty data and drops the rest. -/
def State.emptyL1 (s : State) (c : Nat) : State := (s.core c).l1.foldl (fun s cp => s.castOut c cp) s
/-- Whether words of a core's L1 are on their way to their homes (06 R138). -/
def State.returning (s : State) (c : Nat) : Bool :=
  s.net.any fun f => match f.pkt with
    | .writeBack c' _ _ _ _ _ _ _ => c' == c
    | _ => false
/-- NEWCORE's BSPLIT and DOMAIN become those of the stream (17 R361 step 5); their scrubs come first (05 R108, R109). True when they have. -/
def State.takeShape (s : State) (c new : Nat) : State × Bool :=
  if s.scrubs? new then (s, false)
  else if (s.core new).bsplit ≠ (s.core c).bsplit then (s.writeBsplit new (BitVec.ofNat 64 (s.core c).bsplit) none, false)
  else if (s.core new).domain ≠ (s.core c).domain then (s.writeDomain new (BitVec.ofNat 64 (s.core c).domain) none, false)
  else (s, true)
/-- Steps 1 to 3 of 17 R361 and what step 5 waits for, as far as they can go now. True when the stream can go. -/
def State.migrStep (s : State) (c new : Nat) : State × Bool :=
  if !s.drained c ∨ (s.core new).ops ≠ [] then (s, false) else
  let s := s.emptyL1 c
  if s.returning c then (s, false) else s.takeShape c new
/-- What stays at the position that a core leaves: the storage of its bank and debug module, and nothing that runs. -/
def Core.vacate (k : Core) : Core :=
  { k with
    ctxs := k.ctxs.map fun p => (p.1, { p.2.discard with msgSlot := none, creator := none, mpend := false, mseen := false })
    slotOwner := [], tiles := [], mxq := [], mxbuf := [], mxpend := false, mxstop := 0, ops := [], l1tlb := [], l2tlb := [], xreqs := [],
    l1 := [], icache := [], divider := none, deque := [], ringLo := 0, ringHi := 0, takenAt := none, origin := none, queue := none,
    task := none, exitSucc := none, steal := none, idleSince := none, migrated := false, treeHalted := false, moving := false,
    mover := none, depAt := none, leases := [], scrubbing := none }
/-- A tile as it arrives: only the content of DIRTY tiles is in the stream, and a SAVED one is loaded from its image (13 R270). -/
def Tile.arrive (t : Tile) : Tile := if t.st = 1 then { t with st := 3, content := [] } else t
/-- The core as it arrives from position c: the stream of 17 R362 with what the new position keeps of its own: its TLBs, its instruction
cache and the TRACKED and UNTRACKED copies of its L1, its link tags, counters and debug state. The contexts arrive HALTED in a frozen
cluster (24 R422). -/
def Core.arrive (k n : Core) (c : Nat) (frozen : Option Nat) : Core :=
  let k := { k.dropAgentOps mxCtx with mxstop := k.mxstop % 4 }
  let k := if frozen.isSome then k.interruptMx mxHaltCore else k
  { k with
    ctxs := k.ctxs.map fun p => (p.1, let y := match p.2.wait with
        | .xlate _ => { p.2 with wait := .none }
        | _ => p.2
      if frozen.isSome ∧ y.st ≠ .dormant ∧ y.st ≠ .halted then { y with st := .halted, gonged := frozen } else y)
    tiles := k.tiles.map fun p => (p.1, p.2.arrive)
    scratch := (k.scratch.filter fun p => decide (p.1 < k.bsplit * 65536)) ++ n.scratch.filter fun p => decide (k.bsplit * 65536 ≤ p.1)
    scratchBad := (k.scratchBad.filter fun u => decide (u < k.bsplit * 512)) ++ n.scratchBad.filter fun u => decide (k.bsplit * 512 ≤ u)
    owners := n.owners, leases := n.leases
    l1 := n.l1.filter fun x => decide (x.cls ≠ .stamped)
    icache := n.icache, l1tlb := n.l1tlb, l2tlb := n.l2tlb, xreqs := []
    origin := some (k.origin.getD c)
    migrated := true, moving := false, mover := none
    tagInc := n.tagInc, lateReplies := n.lateReplies, sent := n.sent, received := n.received, hcyc := n.hcyc, hmcnt := n.hmcnt
    bp := n.bp, trace := n.trace, traceAt := n.traceAt, traceWrap := n.traceWrap, traceRd := n.traceRd,
    traceState := n.traceState, traceLast := n.traceLast, issuedAt := n.issuedAt }
/-- An ldl that waits is withdrawn from its home, at another device by a WITHDRAW packet; an answer to it that comes all the same has no
operation any more (17 R361 step 2). -/
def State.withdrawLag (s : State) (c : Nat) (o : Op) : State :=
  let s := s.withdrawRead c o
  { s with
    nextId := s.nextId + 1
    fabReqs := mapIf (fun (r : FabReq) => s.forwarded r.core == c && r.op == o.id) (fun r => { r with op := s.nextId }) s.fabReqs }
/-- It is sent again from the new position with its operands, its iteration and its due cycle (17 R361 step 2). -/
def State.resendLag (s : State) (new : Nat) (o : Op) : State := s.launchLanes new o none (s.freeTags new (unitsOf o.lanes o.groupOf).length)
/-- Steps 2 and 4 to 7 of 17 R361. Waits at barrier objects are withdrawn, and their contexts issue them again. The migr that has begun it finds
that it is over. -/
def State.migrate (s : State) (c new : Nat) : State :=
  let lags := (s.core c).ops.filter fun o => o.ctx < 100 ∧ o.lanes.any fun l => !l.done && o.lagWait l
  let s := allCtx.foldl (fun s x => s.unregister c x) s
  let s := lags.foldl (fun s o => s.withdrawLag c o) s
  let k := s.core c
  let cl := clusterOf new
  let s := (s.setCore new (k.arrive (s.core new) c (if (s.dbgOf cl).frozen then some cl else none))).setCore c k.vacate
  let s := { s with fwds := s.fwds ++ [{ old := c, new := new, queue := k.queue.getD 0 }] }
  let s := match k.mover with
    | some (i, x, _) => s.modCtx (s.forwarded i) x fun y => { y with
        kept := y.kept.map fun q => if q.2.2 = [c, new, 0] then (q.1, q.2.1, [c, new, 1]) else q }
    | none => s
  lags.foldl (fun s o => s.resendLag new o) s
/-- A migration that has begun goes on, whatever becomes of the context that has begun it. -/
def State.migrGo (s : State) (c : Nat) : State :=
  match (s.core c).mover with
  | none => s
  | some (_, _, new) => match s.migrStep c new with
    | (s, true) => s.migrate c new
    | (s, false) => { s with agenda := s.agenda ++ [.migr c 1] }
/-- A core begins to be moved: it issues nothing and holds its arrivals (17 R361 step 1). -/
def State.startMigr (s : State) (c new : Nat) : State :=
  let s := s.modCore c fun k => { k.interruptMx mxMigration with moving := true, mover := some (s.curCore, s.curCtx, new) }
  { s with agenda := s.agenda ++ [.migr c 1] }
/-- migr (17 R361): what it refuses is judged as it issues; then its issuer is parked until the core has drained and moved. It finds status 1
when the launch was killed meanwhile. A core that another migr is moving is waited for. -/
def execMigr (m : Bool) (d a : BitVec 5) (s : State) : Out :=
  let w := s.reg a
  let c := s.supCore w
  let new := fld w 48 13
  s.supervisorOnly <|
    match s.me.keptNow with
    | some [c, _, 0] => if (s.core c).moving then s.parkMe else s.supervise m d 1 id
    | some _ => s.supervise m d 0 id
    | none =>
      if (s.core c).moving then s.parkMe else
      match s.migrStatus c new with
      | 0 =>
        let s := s.modMe fun y => { y with kept := some (y.seq, y.pc, [c, new, 0]) }
        (s.startMigr c new).parkMe
      | n => s.supervise m d n id

end Sys2Proof.Machine
end

