-- ==== Sys2Proof/Machine/Issue.lean ====
section
/-! DEFINITION. What stands around an instruction at issue: who may issue (14 R289), breakpoints (24 R420), fetch, decode and
the state log (24 R423); and the turns of the agenda (assumption 3, DESIGN CHOICE, unsafe). -/

namespace Sys2Proof.Machine

/-- Whether a context may issue: it is neither DORMANT nor HALTED, waits for no event, and its core is not changing DOMAIN, has not taken a
deposit in this cycle, and is not being migrated, but for a contribution that its router has not taken (14 R289, 05 R108, 10 R225, 17 R361,
15 R331). A context that was HELD or PARKED in an instruction issues it again. -/
def State.mayIssue (s : State) (c x : Nat) : Bool :=
  let y := s.ctx c x
  let k := s.core c
  decide (y.st ≠ .dormant) && decide (y.st ≠ .halted) && (decide (y.wait = .none) || decide (y.wait = .join) || decide (y.wait = .router)) &&
    k.scrubbing.isNone && decide (k.depAt ≠ some s.clock) && (!k.moving || decide (y.wait = .router))

/-- Whether a breakpoint of the core matches the instruction at issue, and whether one that does has its XT bit set (24 R420). -/
def State.breakHit (s : State) : Option Bool :=
  let y := s.me
  if !(s.dbgOf (clusterOf s.curCore)).bken ∨ y.stepOver then none else
  let hits := ((List.range 4).map fun i => tget s.mine.bp i 0).filter fun w =>
    w.getLsbD 63 && (fld w 56 4 == 15 || fld w 56 4 == s.curCtx) && fld w 2 54 == y.pc.toNat / 4
  if hits.isEmpty then none else some (hits.any fun w => w.getLsbD 62)

/-- What an issue turn comes to. -/
inductive Issued where
  /-- No instruction issues. -/
  | idle (s : State)
  /-- An instruction issues. -/
  | go (i : Instr) (s : State)

/-- A word as the instruction that runs: one that decodes to nothing is ILLEGAL_ENCODING (03 R78). -/
def instrOf (w : BitVec 32) : Instr :=
  match decode w with
  | .ok i => i
  | .error _ => .illegalEncoding w

/-- The issuing context's turn up to the instruction. -/
def State.issueTurn (s : State) (ahead : Nat) : Issued :=
  if !s.mayIssue s.curCore s.curCtx then .idle s
  else match s.breakHit with
    | some xt => .idle (s.debugHit s.curCore s.curCtx 1 xt)
    | none => match nextWordM s with
      | .ok (w, t) => .go (instrOf w) (t.fetchAhead ahead)
      | .error (.wait t) => .idle t
      | .error (.fault f) => .idle (s.faultHere f)
      | .error (.trap t) => .idle (s.localTrap s.curCore s.curCtx t)

/-- What the state log notes of an instruction that has run: its context has issued it now, unless it waited in it before or is held at it
(24 R423). -/
def State.noteIssue (after before : State) : State :=
  if before.me.st = .parked ∨ (after.ctx before.curCore before.curCtx).st = .held then after else after.traceIssue before.curCore

/-- Time goes on by some cycles (24 R423). -/
def State.tick (s : State) (elapsed : Nat) : State := let t := s.traceTime elapsed; { t with clock := t.clock + elapsed }
/-- What the next turn is: an event to run, or an issue (assumption 3, DESIGN CHOICE, unsafe). An encoded instruction runs only from a fetch. -/
def State.nextTurn (s : State) : Issued :=
  match s.agenda with
  | [] => (s.tick 1).issueTurn 0
  | .issue c x ahead n :: l => ({ s.tick n with agenda := l, curCore := c, curCtx := x } : State).issueTurn ahead
  | .event i n :: l =>
    let t := { s.tick n with agenda := l }
    if i.encoded then .idle t else .go i t
  | .ecc e n :: l => let t := { s.tick n with agenda := l }; .idle (t.eccStrikes t.mayIssue e)
  | .hostRead off n :: l => .idle (({ s.tick n with agenda := l } : State).registerRead off)
  | .hostWrite off v n :: l => .idle (({ s.tick n with agenda := l } : State).registerWrite off v)
  | .hostMem id n :: l => .idle (({ s.tick n with agenda := l } : State).hostTry id)
  | .route d p n :: l => .idle { s.tick n with agenda := l, routes := tset s.routes d p }
  | .migr c n :: l => .idle (({ s.tick n with agenda := l } : State).migrGo c)
  | .boot ok n :: l => .idle (({ s.tick n with agenda := l } : State).bootStep ok)

/-- Whether a stopped module goes on: only a power cycle restarts it (24 R414). -/
def State.mayRun (s : State) : Bool :=
  !s.dev.stopped || (match s.agenda with
    | .event (.powerOn _) _ :: _ => true
    | _ => false)

end Sys2Proof.Machine
end

