-- ==== Sys2Proof/Machine/VCache.lean ====
section
/-! DEFINITION. The virtual cache instructions and the background work of a cache (05 R114, R122 to R131), share scrubs and the
register writes that call for them (05 R108 to R110). -/

namespace Sys2Proof.Machine

/-! ### Images (05 R114, R127, R129) -/

/-- Whether the image w0 to w3 is well formed (05 R114). -/
def imageOk (w0 w1 w2 w3 : Word) : Bool :=
  let g : Geo := (w0, w1)
  let home : Bool := Geo.placeKind g == 0
  decide (fld w0 48 2 ≠ 3) && decide (fld w0 45 3 ≤ 4) && decide (fld w0 42 3 ≤ 4) && decide (fld w0 40 2 ≠ 3) &&
    fld w0 0 15 == 0 && fld w1 0 36 == 0 && fld w2 32 32 == 0 && decide (w3 = 0) &&
    decide (fld w0 37 3 ≠ 0) && decide (Geo.fsh g + Geo.nsh g + 1 ≤ 16) &&
    (decide (Geo.placeKind g ≠ 2) || Geo.policy g == 3) &&
    (if home then decide (w1 = 0)
     else Geo.homeCore g == 0 && decide (fld w1 56 8 ≠ 0) && decide (fld w1 52 4 ≠ 0) &&
       decide (fld w1 48 4 + fld w1 40 4 ≤ 15) && decide (fld w1 44 4 + fld w1 36 4 ≤ 15))
/-- The members of a layout (05 R115). -/
def Geo.members (g : Geo) : List Nat := allCores.filter fun c => Geo.has g c
/-- Whether two layouts share a share of some core (05 R114). -/
def Geo.meets (g h : Geo) : Bool :=
  decide (Geo.fsh g ≤ Geo.fsh h + Geo.nsh h) && decide (Geo.fsh h ≤ Geo.fsh g + Geo.nsh g) &&
    (Geo.members g).any fun c => Geo.has h c
/-- Whether a layout uses a share that is scratch on a member (05 R127, R129). -/
def State.meetsScratch (s : State) (g : Geo) : Bool := (Geo.members g).any fun c => decide (Geo.fsh g < (s.core c).bsplit)
/-- SharesConflict of 05 R129: with another record that is not FREE, its new layout included, or with scratch. -/
def State.sharesConflict (s : State) (g : Geo) (id : Nat) : Bool :=
  s.meetsScratch g || s.cdrs.any fun p => p.1 != id && decide (p.2.state ≠ 0) &&
    (Geo.meets g p.2.geo || (match p.2.shadow with
      | some h => Geo.meets g h
      | none => false))
/-- A record from an image: V, RCLM and EPOCH as a definition sets them, and a state (05 R113, R129). -/
def recordWord (w0 : Word) (state : Nat) : Word := setFld (setFld (setFld w0 63 1 1) 60 3 state) 36 1 0

/-- Marks the shares of a layout with an owner (05 R108). -/
def State.ownShares (s : State) (g : Geo) (domain : Nat) : State :=
  (Geo.members g).foldl (fun s c => s.modCore c fun k =>
    { k with owners := (List.range 16).foldl (fun o i => if Geo.fsh g ≤ i ∧ i ≤ Geo.fsh g + Geo.nsh g then tset o i domain else o) k.owners }) s
/-- Whether a layout has a share whose owner tag is foreign (05 R108). -/
def State.foreignShares (s : State) (g : Geo) (domain : Nat) : Bool :=
  (Geo.members g).any fun c => (List.range (Geo.nsh g + 1)).any fun i => tget (s.core c).owners (Geo.fsh g + i) 0 != domain

/-- A barrier object as a command names it: bit 63 marks that one is named. -/
def barMark (va : Addr) : Word := BitVec.ofNat 64 (va.toNat + 2 ^ 63)
/-- Checks the object that a command names: alignment, and a TRACKED page of the module (05 R130, 15 R318). -/
def commandObjM (va : Addr) : M Word := do
  alignM va 32
  let _ ← trackedM .atomic 32 va
  return barMark va
/-- The operation that a command of the issuing context starts. -/
def State.vcOp (s : State) (kind : Nat) (bar : Word) : VcOp :=
  { kind := kind, bar := bar, domain := s.mine.domain, sup := decide (s.me.mode = .supervisor), core := s.curCore, done := 0, psn := false }

/-! ### vcdef, vcresize (05 R129) -/

/-- The status of a command in the register it names. -/
def statusM (m : Bool) (d : RegDst) (n : Nat) : M Unit :=
  modM fun s => (s.writeDst s.curCore s.curCtx d (BitVec.ofNat 64 n)).retire m
/-- Activation: at once when no share is foreign; otherwise the issuer is parked until the scrub has finished. -/
def activateM (m : Bool) (d : RegDst) (id : Nat) : M Unit := modM fun s =>
  let r := s.cdr id
  if s.foreignShares r.geo r.domain then
    let (s, sid) := match r.scrubId with
      | some sid => (s, sid)
      | none => ({ s.modCdr id fun r => { r with scrubId := some s.nextId } with
          nextId := s.nextId + 1
          scrubs := tset s.scrubs s.nextId (.activate id s.curCore (some s.curCtx)) }, s.nextId)
    s.modMe fun y => { y.advance with st := .parked, wait := .scrub sid m d 0 }
  else ((s.activateCache id).writeDst s.curCore s.curCtx d 0).retire m
/-- vcdef (05 R129). -/
def execVcdef (m : Bool) (a b : BitVec 5) (s : State) : Out :=
  let v := s.vreg a
  let w := s.reg b
  let d := s.dst b
  let im (i : Nat) : Word := v.extractLsb' (64 * i) 64
  let id := fld w 0 8
  let op := fld w 8 2
  runM (do
    supervisorM
    allDoneM
    let r ← getM fun s => s.cdr id
    if fld w 10 54 ≠ 0 ∨ op = 3 then statusM m d 2
    else if op = 0 then
      if r.w0.getLsbD 63 then statusM m d 1
      else if !imageOk (im 0) (im 1) (im 2) (im 3) then statusM m d 2
      else if ← getM fun s => s.sharesConflict (im 0, im 1) id then statusM m d 3
      else do
        modM fun s => s.setCdr id { Cdr.reset with w0 := recordWord (im 0) 1, w1 := im 1 }
        statusM m d 0
    else if op = 1 then
      if r.state ≠ 1 then statusM m d 1
      else if ← getM fun s => s.sharesConflict r.geo id then statusM m d 3
      else activateM m d id
    else if r.state = 1 then do
      modM fun s => { s with cdrs := tdel s.cdrs id }
      statusM m d 0
    else if r.state = 2 then do
      let bar ← if im 4 = 0 then pure 0 else commandObjM (ptrVa (im 4))
      modM fun s => s.retireCache id bar (s.vcOp 4 bar)
      statusM m d 0
    else statusM m d 1) s
/-- vcresize (05 R127, R129). -/
def execVcresize (m : Bool) (a b : BitVec 5) (s : State) : Out :=
  let v := s.vreg a
  let w := s.reg b
  let d := s.dst b
  let im (i : Nat) : Word := v.extractLsb' (64 * i) 64
  let id := fld w 0 8
  let g : Geo := (im 0, im 1)
  runM (do
    supervisorM
    engineM
    allDoneM
    let r ← getM fun s => s.cdr id
    if fld w 8 56 ≠ 0 then statusM m d 2
    else if r.state ≠ 2 then statusM m d 1
    else if !imageOk (im 0) (im 1) (im 2) (im 3) ∨ fld (im 0) 50 10 ≠ r.domain ∨ fld r.w0 37 3 &&& (7 - fld (im 0) 37 3) ≠ 0 then
      statusM m d 2
    else if (← getM fun s => s.sharesConflict g id) || Geo.meets g r.geo then statusM m d 3
    else do
      let bar ← if im 4 = 0 then pure 0 else commandObjM (ptrVa (im 4))
      modM fun s => (s.setCdr id { r.setState 3 with
        shadow := some g, progress := 0, psn := false, bar := some (bar, s.vcOp 1 bar) }).ownShares g r.domain
      statusM m d 0) s

/-! ### vcflush, vcinv, vcstat (05 R130, R131) -/

/-- Orders 1 to 4 of 05 R121 for a command on a whole cache; order 2 for user contexts only. -/
def State.vcCommandCheck (s : State) (id : Nat) : Option Nat :=
  let r := s.cdr id
  if !r.w0.getLsbD 63 then some 1
  else if s.me.mode = .user ∧ r.domain ≠ s.mine.domain then some 2
  else if r.state = 1 then some 3
  else if r.state = 4 then some 4
  else none
/-- Queues a background operation; the first of the queue runs (05 R130). -/
def Cdr.enqueue (r : Cdr) (op : VcOp) : Cdr :=
  { r with
    ops := r.ops ++ [op]
    progress := if r.ops = [] ∧ r.shadow.isNone then 0 else r.progress
    psn := if r.ops = [] ∧ r.shadow.isNone then false else r.psn }
/-- vcflush and vcinv (05 R130). -/
def vcCommandM (m : Bool) (kind : Nat) (a b : BitVec 5) : M Unit := do
  let w ← getM fun s => s.reg a
  let va ← getM fun s => ptrVa (s.reg b)
  let id := fld w 0 8
  if b ≠ 0 then alignM va 32
  match ← getM fun s => s.vcCommandCheck id with
  | some n => faultM .vcFault (BitVec.ofNat 32 (n + 256 * id)) 0
  | none => do
    let bar ← if b = 0 then pure 0 else commandObjM va
    engineM
    allDoneM
    if 4 ≤ (← getM fun s => ((s.cdr id).ops.filter fun o => o.kind != 5).length) then holdM
    else do
      modM fun s => s.modCdr id fun r => r.enqueue (s.vcOp kind bar)
      retireM m
/-- vcflush (05 R130). -/
def execVcflush (m : Bool) (a b : BitVec 5) (s : State) : Out := runM (vcCommandM m 2 a b) s
/-- vcinv (05 R130). -/
def execVcinv (m : Bool) (a b : BitVec 5) (s : State) : Out := runM (vcCommandM m 3 a b) s

/-- OP of VCSTAT (05 R131). -/
def Cdr.running (r : Cdr) : Nat :=
  if r.state = 3 then 1 else match r.ops with
    | o :: _ => o.kind
    | [] => if r.state = 4 then 4 else 0
/-- The VCSTAT word; a FREE record gives zero (05 R131). -/
def Cdr.stat (r : Cdr) (id : Nat) : Word :=
  if r.state = 0 then 0 else
  let sets := Geo.sets r.geo
  let op := r.running
  let done := if op = 0 then sets else r.progress
  BitVec.ofNat 64 (r.state + r.domain * 2 ^ 3 + r.psn.toNat * 2 ^ 13 + r.rclm.toNat * 2 ^ 14 + (decide (op ≠ 0)).toNat * 2 ^ 15
    + op * 2 ^ 16 + id % 256 * 2 ^ 20 + sets * 2 ^ 28 + done * 2 ^ 42)
/-- vcstat (05 R131): a result of variable latency. -/
def execVcstat (m : Bool) (a b : BitVec 5) (s : State) : Out :=
  let id := fld (s.reg b) 0 8
  let r := s.cdr id
  if s.me.mode = .user ∧ r.state ≠ 0 ∧ r.domain ≠ s.mine.domain then
    .next (s.faultHere (accFault .vcFault (2 + 256 * id) 0))
  else .next (s.issueResult m [.scalar (s.dst a) (r.stat id)])

/-! ### Background work -/

/-- The layout that a line of a cache belongs to. -/
def Cdr.geoOf (r : Cdr) (l : VLine) : Geo :=
  match r.shadow with
  | some g => if l.lay = r.epoch.toNat then r.geo else g
  | none => r.geo
/-- The M copy of a unit in an L1, if its home has one. -/
def State.ownedCopy (s : State) (vcid u : Nat) : Option Copy :=
  (agents (s.home vcid u).sharers).findSome? fun c => if 8192 ≤ c then none else match (s.core c).copy? u .tracked with
    | some cp => if cp.st = .m ∧ cp.vcid = vcid then some cp else none
    | none => none
/-- Whether writing a line back writes a poisoned unit (05 R131). -/
def State.lineWritesPoison (s : State) (g : Geo) (l : VLine) : Bool :=
  let owned := l.unitNums g |>.filterMap fun u => (s.ownedCopy l.vcid u).map fun cp => (u, cp.poison)
  (l.dirty || !owned.isEmpty) && (l.unitNums g).any fun u => match owned.find? fun p => p.1 == u with
    | some p => p.2
    | none => (l.unitAt (u % (g.line / 128))).poison
/-- Notes that the running operation wrote back a poisoned unit. -/
def State.notePoison (s : State) (vcid : Nat) (p : Bool) : State := if p then s.modCdr vcid fun r => { r with psn := true } else s
/-- Units of a cache with copies or T-sharers at their homes. -/
def State.heldUnits (s : State) (vcid : Nat) : List Nat :=
  (s.homes.filter fun p => p.1 % 256 == vcid && (!p.2.sharers.isEmpty || !p.2.tshare.isEmpty)).map fun p => p.1 / 256
/-- Copies of a unit that no line holds leave as far as they may now. -/
def State.clearUnit (s : State) (vcid u : Nat) : State :=
  let h := s.home vcid u
  if !s.homeFree .other vcid u true || s.pinned vcid u then s
  else if !h.tshare.isEmpty then s.askSharers vcid u
  else
    let p := match s.ownedCopy vcid u with
      | some cp => cp.poison
      | none => false
    let s := (agents h.sharers).foldl (fun s a => if a < 8192 then s.giveUp a u true else if a < 16384 then s.dropTrackedCode (a - 8192) u else s) s
    (s.modHome vcid u fun h => { h with dir := .i, sharers := [] }).notePoison vcid p
/-- Every line of a cache leaves as far as it may now (05 R120). -/
def State.leaveLines (s : State) (vcid : Nat) : State :=
  let s := (s.vlines.filter fun l => l.vcid == vcid).foldl (fun s l =>
    let g := (s.cdr vcid).geoOf l
    if s.lineFree g l then (s.notePoison vcid (s.lineWritesPoison g l)).evictLine g l else s.pressLine g l) s
  (s.heldUnits vcid).foldl (fun s u => if s.vlines.any fun l => l.vcid == vcid && (l.unitNums ((s.cdr vcid).geoOf l)).contains u then s
    else s.clearUnit vcid u) s
/-- vcflush's pass: M copies come home and become S, and every dirty line goes to HBM and is clean (05 R130). -/
def State.flushLines (s : State) (vcid : Nat) : State :=
  let s := (s.heldUnits vcid).foldl (fun s u => match s.ownedCopy vcid u with
    | some cp => match s.seizeRaw .other vcid u false with
      | .busy s => s
      | .done s _ => s.notePoison vcid cp.poison
    | none => s) s
  (s.vlines.filter fun l => l.vcid == vcid && l.dirty).foldl (fun s l =>
    let g := (s.cdr vcid).geoOf l
    ((s.notePoison vcid (s.lineWritesPoison g l)).flushLine g l).setLine { l with dirty := false }) s
/-- The sets in which an operation still has something to do: a flush, dirty lines and M copies; any other, lines and copies. -/
def State.setsLeft (s : State) (vcid kind : Nat) : List Nat :=
  ((s.vlines.filter fun l => l.vcid == vcid && (l.dirty || kind != 2)).map fun l => l.set) ++
    ((s.heldUnits vcid).filter fun u => kind != 2 || (s.ownedCopy vcid u).isSome).map fun u => (s.spot vcid u none).set
/-- SETDONE after a pass of an operation: the sets below the first in which it still has something to do. A flush or an invalidation does
not come back to a set that it has passed (05 R130, R131). -/
def State.passedTo (s : State) (vcid kind : Nat) : Nat :=
  let r := s.cdr vcid
  let left := (s.setsLeft vcid kind).filter fun n => decide (kind ≠ 2 ∧ kind ≠ 3) || decide (r.progress ≤ n)
  left.foldl min (Geo.sets r.geo)
/-- Whether an access of a core that passed the checks of a cache is still to perform (05 R122); a stamped waiter is not. -/
def State.usesCache (s : State) (vcid : Nat) : Bool :=
  (s.cores.any fun p => p.2.ops.any fun o => (o.lanes.any fun l => !l.done && (match l.place with
      | .unit v _ _ _ => v == vcid
      | _ => false)) && !s.stWaiters.any fun w => w.core == p.1 && w.op == o.id) ||
  (s.net.any fun f => match f.pkt with
    | .ownReq _ v _ _ _ => v == vcid
    | .grant _ v _ _ _ _ _ => v == vcid
    | .invAck _ v _ _ => v == vcid
    | .writeBack _ _ _ v _ _ _ _ => v == vcid
    | _ => false) || (s.channels.any fun p => p.2.own.any fun q => q.1 == vcid) ||
  s.homes.any fun p => p.1 % 256 == vcid && p.2.queue.any fun q => s.waits q.1

/-- The arrival that ends a command, if it named an object; an object that no longer passes its checks takes none. -/
def State.vcArrive (s : State) (vcid : Nat) (bar : Word) (op : VcOp) : AtHome Unit :=
  if bar.getLsbD 63 then match s.completeVa (.agent 4 vcid) op.core op.domain 3 (200000 + vcid) op.sup (bar.setWidth 56) none false .arrive with
    | .busy s => .busy s
    | .done s _ => .done s ()
  else .done s ()
/-- Keeps a record while its command waits for its object. -/
def State.vcFinish (s : State) (vcid : Nat) (after : State) (bar : Word) (op : VcOp) : State :=
  match after.vcArrive vcid bar op with
  | .done t _ => t
  | .busy t => { t with cdrs := s.cdrs }

/-- An operation has ended: the next one, or a retirement that waited for it, begins, and one that a reclaim interrupted goes on, with its
progress and its PSN (05 R110, R131). -/
def Cdr.nextOp (r : Cdr) (op : VcOp) (ops : List VcOp) : Cdr :=
  if r.shadow.isSome then { r with ops := ops }
  else match ops with
    | o :: _ => { r with ops := ops, progress := o.done, psn := o.psn }
    | [] => if r.state ≠ 4 then { r with ops := [], progress := 0 }
      else if op.kind = 5 then { r with ops := [], progress := op.done, psn := op.psn }
      else { r with ops := [], progress := 0, psn := false }
/-- VC_OPERATION_COMPLETE (05 R130, R110): the running flush, invalidation or reclaim goes on, and when it has passed every
line it ends. A RESIZING cache runs a reclaim only. -/
def execVcOperationComplete (vcid : Nat) (s : State) : Out :=
  let r := s.cdr vcid
  match r.ops with
  | [] => .next s
  | op :: ops =>
    if r.state = 3 ∧ op.kind ≠ 5 then .next s else
    let s := if op.kind = 2 then s.flushLines vcid else s.leaveLines vcid
    let n := s.passedTo vcid op.kind
    if n = Geo.sets r.geo && (decide (op.kind ≠ 5) || (!s.usesCache vcid && (s.setsLeft vcid 5).isEmpty)) then
      .next (s.vcFinish vcid (s.modCdr vcid fun r => r.nextOp op ops) op.bar op)
    else .next (if r.shadow.isSome then s else s.modCdr vcid fun r => { r with progress := n })

/-- VC_RETIRE_COMPLETE (05 R122, R129): the lines leave, after every access that passed the checks before; then the record is zeroed and the
object takes its arrival. -/
def execVcRetireComplete (vcid : Nat) (s : State) : Out :=
  let r := s.cdr vcid
  if r.state ≠ 4 ∨ r.ops ≠ [] then .next s else
  let s := s.leaveLines vcid
  if s.usesCache vcid || !(s.setsLeft vcid 4).isEmpty then .next (s.modCdr vcid fun r => { r with progress := s.passedTo vcid 4 }) else
  let t := { s with cdrs := tdel s.cdrs vcid }
  match r.bar with
  | some (bar, op) => .next (s.vcFinish vcid t bar op)
  | none => .next t

/-! ### Live resizing (05 R123 to R127) -/

/-- The old lines of the set that migrates next (05 R123). -/
def State.oldSet (s : State) (vcid : Nat) : List VLine :=
  let r := s.cdr vcid
  s.vlines.filter fun l => l.vcid == vcid && l.set == r.progress && l.lay == r.epoch.toNat
/-- A line leaves by 05 R120, and its T-sharer records, and the agent of a pin, stay with their units (05 R124, R125). -/
def State.dropLine (s : State) (g : Geo) (l : VLine) : State :=
  let keep := (l.unitNums g).map fun u => (u, s.home l.vcid u)
  let s := (s.notePoison l.vcid (s.lineWritesPoison g l)).evictLine g l
  keep.foldl (fun s p => s.modHome l.vcid p.1 fun h =>
    let pins := p.2.sharers.filter fun a => decide (16384 ≤ a ∧ a < 24576)
    { h with tshare := p.2.tshare, sharers := pins, dir := if pins.isEmpty then .i else .s }) s
/-- Where a line of an old layout stands under the new one. -/
def State.newSpot (s : State) (g h : Geo) (l : VLine) : Spot :=
  let u := l.li * (Geo.line g / 128)
  let (c, i) := Geo.place h (s.paOf u) none
  { geo := h, lay := l.lay + 1, core := c, set := i, li := u / (Geo.line h / 128) }
/-- A line whose size stays moves with all it holds, and keeps its place in the order of use; one whose size changes, or of an RO cache, leaves
(05 R124). False when the line that has to make room for it may not leave yet. A layout whose lines are never dirty takes its data to HBM
(05 R118). -/
def State.moveLine (g h : Geo) (s : State) (l : VLine) : State × Bool :=
  if Geo.policy g = 3 || Geo.line g != Geo.line h then (s.dropLine g l, true) else
  let p := s.newSpot g h l
  match s.makeRoom l.vcid p with
  | (_, false) => (s, false)
  | (s, true) =>
    let clean : Bool := Geo.policy h == 1 || Geo.policy h == 3
    let s := if clean && l.dirty then (s.notePoison l.vcid (s.lineWritesPoison g l)).flushLine g l else s
    let put (x : VLine) : VLine := { x with lay := p.lay, core := p.core, set := p.set, li := p.li, dirty := x.dirty && !clean }
    ({ s with vlines := mapIf (fun x => x.same l) put s.vlines }, true)
/-- The lines of a set move; when one finds no room yet, the line that has to leave for it. -/
def State.moveLines (g h : Geo) (s : State) : List VLine → State × Option VLine
  | [] => (s, none)
  | l :: ls => match s.moveLine g h l with
    | (s, true) => s.moveLines g h ls
    | (s, false) => (s, s.victim l.vcid (s.newSpot g h l))
/-- A line that bars a migrating set begins to leave, from where it stands before any line of the set has moved (05 R120). -/
def State.pressFor (s : State) (g : Geo) (v : VLine) : State :=
  match s.vlines.find? fun x => x.same v || (x.vcid == v.vcid && x.lay + 1 == v.lay && x.li == v.li) with
  | some x => s.pressLine g x
  | none => s
/-- Stamped waiters, and those of barrier objects, stand at the homes of their units (05 R126). -/
def State.moveWaiters (s : State) (vcid : Nat) (g : Geo) (set : Nat) : State :=
  { s with
    stWaiters := s.stWaiters.map fun w => if w.unit % 256 = vcid then { w with home := s.homeCore vcid (w.unit / 256) } else w
    bWaiters := s.bWaiters.map fun w => if (w.home, set) = Geo.place g (s.paOf (w.addr / 128)) none then { w with home := s.homeCore vcid (w.addr / 128) } else w }
/-- The record of a resize that has migrated its last set (05 R110, R122, R127). -/
def State.resized (s : State) (r : Cdr) (h : Geo) : Cdr :=
  let rclm : Bool := r.rclm && s.meetsScratch h
  let ops := if rclm then r.ops else r.ops.filter fun o => o.kind != 5
  { w0 := setFld (recordWord h.1 2) 36 1 rclm.toNat, w1 := h.2, epoch := r.epoch + 1, shadow := none, progress := 0, bar := none,
    ops := ops, psn := r.psn && ops.isEmpty, scrubId := none, stay := r.stay }
/-- A set that migrates on every member begins to hold its requests there (05 R123). -/
def State.holdSet (s : State) (vcid : Nat) (g : Geo) (set : Nat) : State :=
  if s.setHolds.any fun h => h.vcid == vcid && h.moving then s
  else { s with setHolds := s.setHolds ++ (Geo.members g).map fun c => ({ vcid := vcid, geo := g, core := c, set := set, moving := true, queue := [] } : SetHold) }
/-- The set has migrated: what each member held is replayed in order at the new places (05 R123). -/
def State.freeSet (s : State) (vcid : Nat) : State :=
  let ids := (s.setHolds.filter fun h => h.vcid == vcid && h.moving).flatMap fun h => h.queue
  { s.holdAll ids .flying with
    setHolds := (mapIf (fun h => h.vcid == vcid) (fun h => { h with moving := false }) s.setHolds).filter fun h => h.moving || !h.queue.isEmpty }
/-- The pinned units of a set, which stay at their old homes (05 R125). -/
def State.pinsOf (s : State) (vcid : Nat) (g : Geo) (set : Nat) : List (Nat × Nat) :=
  (s.cores.flatMap fun p => p.2.mxbuf.filterMap fun q => q.pin).filterMap fun p =>
    let at_ := Geo.place g (s.paOf p.2) none
    if p.1 = vcid ∧ at_.2 = set then some (p.2, at_.1) else none
/-- VC_SET_MIGRATED (05 R123 to R127): one old set migrates on every member, as soon as nothing is being served in it, pinned units apart (05
R125), and there is room at the new places; after the last the new layout is in force. -/
def execVcSetMigrated (vcid : Nat) (s : State) : Out :=
  let r := s.cdr vcid
  match r.shadow with
  | none => .next s
  | some h =>
    let g := r.geo
    if r.progress < Geo.sets g then
      let s := s.holdSet vcid g r.progress
      let ls := s.oldSet vcid
      if !ls.all fun l => (l.unitNums g).all fun u => s.calm vcid u || s.pinned vcid u then .next s else
      match s.moveLines g h ls with
      | (_, some v) => .next (s.pressFor h v)
      | (t, none) =>
        let t := t.modCdr vcid fun q => { q with progress := r.progress + 1, stay := (s.pinsOf vcid g r.progress).foldl (fun a p => tset a p.1 p.2) q.stay }
        .next ((t.moveWaiters vcid g r.progress).freeSet vcid)
    else
      let t := s.setCdr vcid (s.resized r h)
      match r.bar with
      | some (bar, op) => .next (s.vcFinish vcid t bar op)
      | none => .next t

/-! ### Scrubs (05 R108, R109) -/

/-- Ends the wait of a context for a scrub: its register is written, and it goes on after its marker. -/
def State.endScrubWait (s : State) (id c x : Nat) : State :=
  match (s.ctx c x).wait with
  | .scrub i m d w =>
    if i ≠ id then s else
    let s := (s.writeDst c x d w).modCtx c x Ctx.wake
    if m ∧ (s.ctx c x).st ≠ .halted then s.park c x else s
  | _ => s
/-- A scrub is over. -/
def State.endScrub (s : State) (id : Nat) : State :=
  let s := { s with scrubs := tdel s.scrubs id }
  s.cores.foldl (fun s p => allCtx.foldl (fun s x => s.endScrubWait id p.1 x) s) s
/-- SCRUB_COMPLETE (05 R108, R109, R122): DOMAIN changes, or a change of BSPLIT ends when its reclaims have, or a cache
becomes ACTIVE. -/
def execScrubComplete (id : Nat) (s : State) : Out :=
  match tget? s.scrubs id with
  | none => .next s
  | some (.domain c v _) =>
    let s := (s.domainDone c v).modCore c fun k => { k with scrubbing := if k.scrubbing = some id then none else k.scrubbing }
    .next (s.endScrub id)
  | some (.bsplit c old n _) =>
    if (s.cachesBelow c n).any fun v => (s.cdr v).ops.any fun o => o.kind == 5 then .next s else .next ((s.bsplitDone c old n).endScrub id)
  | some (.activate v _ _) =>
    let r := s.cdr v
    let s := if r.state = 1 ∧ r.scrubId = some id then (s.activateCache v).modCdr v fun r => { r with scrubId := none } else s
    .next (s.endScrub id)

/-- A write to DOMAIN through the register window or control space (05 R108). -/
def execDomainWrite (core : Nat) (v : Word) (s : State) : Out :=
  s.whenStill core 0 0x101 v fun s => s.writeDomain core v none
/-- A change of BSPLIT through the register window or control space (05 R109). -/
def execBsplitWrite (core : Nat) (v : Word) (s : State) : Out :=
  s.whenStill core 0 0x102 v fun s => s.writeBsplit core v none

end Sys2Proof.Machine
end

