-- ==== Sys2Proof/Machine/LaunchEvents.lean ====
section
/-! DEFINITION. The launch sequencers at work: reading rings (16 R334), eligibility (16 R338, R339), choice (16 R340), preparation (16
R341), completion (16 R343, R346), and the events of the table that make them go on. -/

namespace Sys2Proof.Machine

/-! ### Reading through a launch's translations (16 R336) -/

/-- The core whose context 0 translates a launch's addresses: the first compute core of the mask, where it now is (16 R336). For a mask without
one, whose launch completes with NOCORE, it is its first position, and for an empty mask the first of the sequencer's die (assumption 87,
DESIGN CHOICE, unsafe). -/
def State.seqCore (s : State) (q : Nat) : Nat :=
  let d := s.queue q
  s.forwarded (match s.maskCores d with
    | c :: _ => c
    | [] => (allCores.find? fun c => rectIn d.mask0 c || rectIn d.mask1 c).getD (1024 * (q % 8)))
/-- Translates a VA of a launch (16 R336): agent 3, the sequencer acting as context 0. -/
def State.launchXlate (s : State) (q : Nat) (acc : Acc) (va : Addr) : Xl × State :=
  s.engineXlate (s.seqCore q) (s.queue q).domain 3 q false acc va

/-- What a read through a launch's translations gives: a unit, or the cause of a failure (16 R341), or it has to wait. -/
inductive Rd where
  | ok (u : Unit128)
  | bad (cause : Nat)
  | wait
/-- Drops what the sequencer has read of other devices for a step that is over. -/
def State.dropReads (s : State) (q : Nat) : State :=
  { s with
    cores := mapIf (fun (p : Nat × Core) => p.2.ops.any fun o => o.ctx == seqCtx q) (fun p => (p.1, p.2.dropAgentOps (seqCtx q))) s.cores }
/-- Reads the unit of a launch's VA (16 R341): causes 5 XLATE, of a refused translation, and 6 POISON. A read of another device that fails for
another reason than poison counts as refused (assumption 68, DESIGN CHOICE, unsafe). -/
def State.launchRead (s : State) (q : Nat) (va : Addr) : Rd × State :=
  match s.launchXlate q .read va with
  | (.wait, s) => (.wait, s)
  | (.bad _, s) => (.bad 5, s)
  | (.hit (.unit e pa), s) => match s.readAtHome (.agent 2 q) e.vcid e.key (pa / 128) with
    | .busy s => (.wait, s)
    | .done s u => (if u.poison then .bad 6 else .ok u.data, s)
  | (.hit (.host _ pa), s) => (.ok (BitVec.ofNat 1024 (s.hostMem.read (pa / 128 * 128) 128)), s)
  | (.hit (.remote e pa), s) => match s.readByPacket (s.seqCore q) (seqCtx q) e pa va.toNat with
    | (s, none) => (.wait, s)
    | (s, some (.ok u)) => (.ok u.data, s)
    | (s, some (.error c)) => (.bad (if c = .poison then 6 else 5), s)
  | (.hit (.ctrl _ _), s) => (.bad 5, s)

/-- What a list of doublewords read for a launch comes to. -/
inductive Rds where
  | ok (ws : List Word)
  | bad (cause : Nat)
  | wait
/-- Reads n doublewords from a VA that is 8-byte aligned. -/
def State.launchWords (s : State) (q : Nat) (va : Addr) : Nat → Rds × State
  | 0 => (.ok [], s)
  | n + 1 => match s.launchRead q va with
    | (.wait, s) => (.wait, s)
    | (.bad c, s) => (.bad c, s)
    | (.ok u, s) => match s.launchWords q (va + 8) n with
      | (.ok l, s) => (.ok (u.extractLsb' (8 * (va.toNat % 128)) 64 :: l), s)
      | r => r

/-! ### Rings and eligibility (16 R334, R338, R339) -/

/-- A RUNNING queue's sequencer reads its next entry and checks its dependence (16 R334, R338). A poisoned entry gives a record of zeros,
which fails with cause 6 (assumption 68, DESIGN CHOICE, unsafe). -/
def State.readRing (s : State) (q : Nat) : State :=
  let d := s.queue q
  if d.state ≠ 1 ∨ d.stop ∨ d.headReg = d.tail ∨ d.launch.isSome then s else
  let take (t : State) (l : Launch) : State := { t.modQueue q fun d => { d with head := d.head + 1, launch := some l } with nextId := t.nextId + 1 }
  let bad (t : State) (l : Launch) (c : Nat) : State := take t { l with st := .completing, fail := true, cause := c }
  match s.ringUnit q d.domain (d.w0.toNat + 128 * (d.head % d.size)) with
  | .busy s => s
  | .done t none => bad t (Launch.ofWords t.nextId []) 6
  | .done t (some u) =>
    let l := Launch.ofWords t.nextId (unitWords u)
    if l.depb = 0 then
      take t (if l.ind then l else { l with st := .eligible, eligibleAt := t.clock, n := l.countField })
    else if l.depb.toNat % 32 ≠ 0 then bad t l 4
    else
      -- the check is the launch's own; one that waits leaves the entry unread
      match (take t l).launchXlate q .read l.depb with
      | (.wait, t) => t.modQueue q fun d => { d with head := d.head - 1, launch := none }
      | (.bad _, t) => t.failLaunch q 5
      | (.hit tg, t) => if tg.tracked?.isSome then t else t.failLaunch q 5

/-- Whether queue q's sequencer waits at its dependence object. -/
def State.seqWaits (s : State) (q : Nat) : Bool := s.bWaiters.any fun w => w.core == 8192 + q
/-- Looks at a launch's dependence object once, as a bwait would, and waits there for its answer if it has to (16 R338, 15 R318, R319). -/
def State.watchDep (s : State) (q : Nat) (l : Launch) : State :=
  let answer (s : State) (abort : Bool) : State := s.modLaunch q fun l => { l with answered := some abort }
  if l.depb = 0 then answer s false
  else if s.seqWaits q then s
  else match s.launchXlate q .read l.depb with
    | (.wait, s) => s
    | (.bad _, s) => s.failLaunch q 5
    | (.hit t, s) => match t.tracked? with
      | none => s.failLaunch q 5
      | some (vcid, key, pa) => match s.readAtHome (.agent 2 q) vcid key (pa / 128) with
        | .busy s => s
        | .done s v =>
          let o := unitGet v.data (pa % 128) 32
          let home := s.homeCore vcid (pa / 128)
          if v.poison || Obj.abort o then answer s true
          else if Obj.gen o ≠ l.depgen then answer s false
          else if 64 ≤ (s.bWaiters.filter fun w => w.home == home).length then s
          else { s with bWaiters := s.bWaiters ++ [{ home := home, addr := pa, core := 8192 + q, ctx := 0 }] }
/-- A queued launch becomes eligible when its dependence object has answered; an indirect count is read then (16 R338, R339). -/
def State.makeEligible (s : State) (q : Nat) : State :=
  match (s.queue q).launch with
  | none => s
  | some l =>
    if l.st ≠ .queued then s else
    match l.answered with
    | none => s.watchDep q l
    | some abort =>
      let go (s : State) (n : Nat) (fail : Bool) (cause : Nat) : State := (s.dropReads q).modLaunch q fun l =>
        { l with st := .eligible, eligibleAt := s.clock, abort := abort, n := n, fail := fail, cause := cause }
      if !l.ind then go s l.countField false 0
      else if l.cntp.toNat % 4 ≠ 0 then go s 0 true 4
      else match s.launchRead q l.cntp with
        | (.wait, s) => s
        | (.bad c, s) => go s 0 true c
        | (.ok u, s) => go s (unitGet u (l.cntp.toNat % 128) 4) false 0

/-! ### Choosing (16 R340) -/

/-- Effective priority (16 R340). -/
def State.effPrio (s : State) (d : Queue) (l : Launch) : Nat :=
  min (min (d.prio + (s.clock - l.eligibleAt) / 2 ^ 20) (d.prio + 4)) 31
/-- Whether launch b of queue qb ranks above launch a of queue qa: higher effective priority, then eligible longer, then
the lower queue number. -/
def State.ranksAbove (s : State) (qb : Nat) (db : Queue) (lb : Launch) (qa : Nat) (da : Queue) (la : Launch) : Bool :=
  let pb := s.effPrio db lb
  let pa := s.effPrio da la
  decide (pa < pb) || (decide (pa = pb) && (decide (lb.eligibleAt < la.eligibleAt) ||
    (decide (lb.eligibleAt = la.eligibleAt) && decide (qb < qa))))
/-- Whether an eligible launch is the one to start: no core of its mask runs a launch, has been vacated by one or awaits one, and no
waiting launch that ranks above it has a mask that meets its own (16 R340, 17 R363). -/
def State.mayStart (s : State) (q : Nat) (l : Launch) : Bool :=
  let d := s.queue q
  (s.maskCores d).all (fun c => (s.core c).queue.isNone && !s.reserved c && s.fwds.all fun f => f.old != c) &&
  s.queues.all fun p => match p.2.launch with
    | some m => p.1 == q || decide (m.st ≠ .eligible) || !s.ranksAbove p.1 p.2 m q d l || !s.masksMeet d p.2
    | none => true
/-- The chosen launch starts its preparation, and its cores run it from then on. -/
def State.chooseLaunch (s : State) (q : Nat) : State :=
  ((s.maskCores (s.queue q)).foldl (fun s c => s.modCore c fun k => { k with queue := some q }) s).modLaunch q fun l =>
    { l with st := .preparing, step := 0, written := 0, pushed := 0 }

/-! ### Preparing (16 R341) -/

/-- Bits of a record that must be zero (16 R336). -/
def Launch.zeroOk (l : Launch) : Bool :=
  fld (l.word 11) 32 32 == 0 && fld (l.word 13) 53 11 == 0 && fld (l.word 13) 46 2 == 0 && fld (l.word 14) 9 23 == 0
    && fld (l.word 15) 1 63 == 0
/-- Alignments and counts of a record (16 R336). -/
def Launch.aligned (l : Launch) : Bool :=
  let ok (a : Addr) (n : Nat) : Bool := a.toNat % n == 0
  ok l.recb 64 && ok l.gtab 32 && ok l.rngp 16 && ok l.spill 8192 && ok l.depb 32 && ok l.compb 32 &&
    (!l.ind || ok l.cntp 4) && decide (l.ngrp ≤ 256) && decide (l.nrng ≤ 16) && decide (l.bsplit ≤ 16)
/-- A residency descriptor as page bounds with WOK and XOK (04 R99); `none` when BASE has VA[55] set. -/
def rangeOf (b w : Word) : Option (Nat × Nat × Bool × Bool) :=
  let base := b.toNat % 2 ^ 56
  let len := fld w 0 48
  if len = 0 then some (0, 0, false, false)
  else if b.getLsbD 55 then none
  else some (base / 4096 * 4096, (base + len + 4095) / 4096 * 4096, w.getLsbD 48, w.getLsbD 49)
/-- Consecutive pairs of a list of doublewords. -/
def pairs : List Word → List (Word × Word)
  | a :: b :: l => (a, b) :: pairs l
  | _ => []
/-- Rectangles of a group table, four to a group. -/
def quads : List Word → List (List Word)
  | a :: b :: c :: d :: l => [a, b, c, d] :: quads l
  | _ => []

/-- A preparation goes on to its next step. -/
def State.nextStep (s : State) (q : Nat) (f : Launch → Launch) : State :=
  (s.dropReads q).modLaunch q fun l => { f l with step := l.step + 1, written := 0 }
/-- Step 1 of 16 R341, the record: a failure of its count, zero fields and alignments, a mask with a compute core, and the residency
descriptors, one of which must hold the record area and permit writes. A descriptor whose BASE has VA[55] set is a BADREC (assumption 66,
DESIGN CHOICE, unsafe). -/
def State.checkRecord (s : State) (q : Nat) (l : Launch) : State :=
  if l.fail then s.failLaunch q l.cause
  else if !l.zeroOk ∨ !l.aligned then s.failLaunch q 4
  else if l.n ≠ 0 ∧ s.maskCores (s.queue q) = [] then s.failLaunch q 7
  else match s.launchWords q l.rngp (2 * l.nrng) with
    | (.wait, s) => s
    | (.bad c, s) => s.failLaunch q c
    | (.ok ws, s) => match (pairs ws).mapM fun p => rangeOf p.1 p.2 with
      | none => s.failLaunch q 4
      | some rs =>
        let recEnd := l.recb.toNat + 64 * l.n
        if l.n ≠ 0 ∧ !rs.any fun r => r.2.2.1 && decide (r.1 ≤ l.recb.toNat) && decide (recEnd ≤ r.2.1) then s.failLaunch q 4
        else s.nextStep q fun l => { l with ranges := rs }
/-- Step 1 of 16 R341, the record area: its pages are TRACKED, one page at a time. -/
def State.checkPages (s : State) (q : Nat) (l : Launch) : State :=
  let va := l.recb.toNat / 4096 * 4096 + 4096 * l.written
  if l.n = 0 ∨ l.recb.toNat + 64 * l.n ≤ va then s.nextStep q id
  else match s.launchXlate q .write (BitVec.ofNat 56 va) with
    | (.wait, s) => s
    | (.bad _, s) => s.failLaunch q 5
    | (.hit t, s) => if t.tracked?.isSome then s.modLaunch q fun l => { l with written := l.written + 1 } else s.failLaunch q 4
/-- The supervisor cores of the clusters of a launch's mask (04 R100, 01 R15). -/
def State.leaseCores (s : State) (q : Nat) : List Nat :=
  ((s.maskCores (s.queue q)).map clusterOf).eraseDups.flatMap fun cl => (List.range (s.svcN - s.svcT)).map fun j => s.superCore cl j
/-- The sequencer passes a launch's ranges to them (04 R100). -/
def State.passRanges (s : State) (q : Nat) (l : Launch) : State :=
  (s.leaseCores q).foldl (fun s c => s.modCore c fun k => { k with leases := k.leases ++ [(l.serial, l.ranges)] }) s
/-- A launch's ranges are unpinned (16 R343 step 3). -/
def State.unpinRanges (s : State) (q : Nat) (l : Launch) : State :=
  let has (k : Core) : Bool := k.leases.any fun e => e.1 == l.serial
  let rest (k : Core) : Core := { k with leases := k.leases.filter fun e => e.1 != l.serial }
  ({ s with cores := mapIf (fun p => has p.2) (fun p => (p.1, rest p.2)) s.cores } : State).modLaunch q fun l => { l with pinned := false }
/-- Step 2 of 16 R341: the group table, whose rectangles are well formed and put no core into more than four groups (14 R311, R312); then
the supervisor cores have the ranges (04 R100). -/
def State.readGroups (s : State) (q : Nat) (l : Launch) : State :=
  match s.launchWords q l.gtab (4 * l.ngrp) with
  | (.wait, s) => s
  | (.bad c, s) => s.failLaunch q c
  | (.ok ws, s) =>
    if !ws.all rectOk ∨ (s.maskCores (s.queue q)).any fun c => decide (4 < (groupsOf (quads ws) c).length) then s.failLaunch q 3
    else (s.passRanges q l).nextStep q fun l => { l with groups := quads ws }
/-- Step 4 of 16 R341, one VCID at a time: a DEFINED cache of the launch's domain is activated, once its foreign shares are scrubbed (05
R122), an ACTIVE or RESIZING one is left as it is, and any other fails, as does one whose shares are in use (05 R114). -/
def State.activateNext (s : State) (q : Nat) (l : Launch) : State :=
  let j := l.written
  let v := l.vcid j
  let r := s.cdr v
  let next (s : State) (f : Launch → Launch) : State := s.modLaunch q fun l => { f l with written := l.written + 1 }
  if 4 ≤ j then s.nextStep q id
  else if !l.vact j then next s id
  else if r.domain ≠ (s.queue q).domain ∨ r.state = 0 ∨ r.state = 4 then s.failLaunch q 2
  else if r.state ≠ 1 then next s id
  else if r.scrubId.isSome then s
  else if s.sharesConflict r.geo v then s.failLaunch q 2
  else if s.foreignShares r.geo r.domain then
    let id := s.nextId
    { s.modCdr v fun r => { r with scrubId := some id } with
      nextId := id + 1
      scrubs := tset s.scrubs id (.activate v (s.seqCore q) none) }
  else next (s.activateCache v) fun l => { l with activated := l.activated ++ [v] }
/-- Step 5 of 16 R341, DOMAIN of the launch's cores: the sequencer waits until it has changed on all of them (05 R108). -/
def State.setDomains (s : State) (q : Nat) (cores : List Nat) : State :=
  let d := (s.queue q).domain
  if cores.any fun c => s.scrubs? c || (s.core c).moving then s
  else if cores.all fun c => (s.core c).domain == d then s.nextStep q id
  else cores.foldl (fun s c => s.writeDomain c (BitVec.ofNat 64 d) none) s
/-- The rest of step 5 on the core of a position of the mask, where it now is (17 R363), with what a first dispatch does there: group slots and their counters, CAPT; entries with SUP = 0 leave
the TLBs (04 R87), tiles are unconfigured (13 R269), ITER of c0 is 0 (06 R141), and its WB is reset (10 R230). -/
def State.setCoreFor (s : State) (l : Launch) (o : Nat) : State :=
  let c := s.forwarded o
  let s := (s.setIter c 0 0).modCore c fun k =>
    let y := k.ctx 0
    let gs := groupsOf l.groups o
    { k with
      origin := some o
      migrated := decide (c ≠ o)
      grp := (List.range 4).filterMap fun i => (gs[i]?).map fun g => (i, BitVec.ofNat 9 (256 + g))
      capt := []
      l1tlb := k.l1tlb.filter fun e => e.sup
      l2tlb := k.l2tlb.filter fun e => e.sup
      tiles := []
      deque := []
      ringLo := 0
      ringHi := 0
      takenAt := none } |>.setCtx 0 { y with base := y.rslo, low := y.rslo, wpend := 0 }
  { s with routers := tset s.routers o { tget s.routers o Router.reset with counters := [] } }
/-- Step 5 of 16 R341 after DOMAIN: BSPLIT when BSPW says so, which is waited for too, then the groups with their combining tables (15
R320) and the rest of the cores' registers. -/
def State.setCores (s : State) (q : Nat) (l : Launch) (cores : List Nat) : State :=
  let now := cores.map s.forwarded
  if now.any fun c => s.scrubs? c || (s.core c).moving then s
  else if l.bspw ∧ now.any fun c => (s.core c).bsplit != l.bsplit then
    now.foldl (fun s c => s.writeBsplit c (BitVec.ofNat 64 l.bsplit) none) s
  else
    let members (g : List Word) : List Nat := cores.filter fun c => g.any fun w => rectIn w c
    let s := cores.foldl (fun s c => s.setCoreFor l c) s
    { s with tables := tset s.tables l.serial (l.groups.map members) }.nextStep q id

/-- The 64 bytes of initial record i (16 R337, 14 R294). -/
def Launch.record (l : Launch) (i : Nat) : Nat :=
  l.entry.toNat + i * 2 ^ 64 + (l.word 3).toNat * 2 ^ 128 + (l.word 4).toNat * 2 ^ 192 + (l.word 5).toNat * 2 ^ 256
    + (l.lid + l.gslot * 2 ^ 32) * 2 ^ 320 + (if l.abort then 2 else 0) * 2 ^ 448
/-- VA of initial record i. -/
def Launch.recordVa (l : Launch) (i : Nat) : Addr := l.recb + BitVec.ofNat 56 (64 * i)
/-- Step 6 of 16 R341: writes up to a number of initial records, each at the home of its unit; when all are written the launch's count rises by
their number (16 R337, 14 R298). -/
def State.writeRecords (s : State) (q : Nat) (l : Launch) (i : Nat) : Nat → State
  | 0 => if l.n ≤ i then s.nextStep q fun l => { l with count := l.count + l.n } else s.modLaunch q fun l => { l with written := i }
  | k + 1 =>
    if l.n ≤ i then s.nextStep q fun l => { l with count := l.count + l.n } else
    let keep (s : State) : State := s.modLaunch q fun l => { l with written := i }
    match s.launchXlate q .write (l.recordVa i) with
    | (.wait, s) => keep s
    | (.bad _, s) => s.failLaunch q 5
    | (.hit t, s) => match t.tracked? with
      | none => s.failLaunch q 4
      | some (vcid, key, pa) =>
        match s.writeAtHome (.agent 2 q) vcid key (pa / 128) (fun u => unitPut u (pa % 128) 64 (l.record i)) false with
        | .busy s => keep s
        | .done s _ => s.writeRecords q l (i + 1) k
/-- Pushes up to a number of records: record i to compute core i mod C of the mask, where that core now stands; a full deque or a core that is
being migrated is waited for (16 R337, 14 R300, 17 R363). A record whose deque has no usable ring memory ends at once, and the launch keeps
the failure (assumption 23, DESIGN CHOICE, unsafe). -/
def State.pushRecords (s : State) (q : Nat) (l : Launch) (cores : List Nat) (i : Nat) : Nat → State
  | 0 => s.modLaunch q fun l => { l with pushed := i }
  | k + 1 =>
    let keep (s : State) : State := s.modLaunch q fun l => { l with pushed := i }
    let c := s.forwarded (cores.getD (i % cores.length) 0)
    if l.n ≤ i then keep s
    else if (s.core c).moving ∨ dequeCap ≤ (s.core c).entries ∨ !(s.core c).inOrder s.clock rankPush then keep s
    else match s.pushEntry (.agent 2 q) c (l.recordVa i).toNat with
      | .wait s => keep s
      | .bad s f => (s.modLaunch q fun l => { l with count := l.count - 1, fail := true, cause := if f.cause = .poison then 6 else 5 }).pushRecords q l cores (i + 1) k
      | .ok s _ => s.pushRecords q l cores (i + 1) k
/-- Step 6's pushes, and RUNNING when they are done; with N = 0 the launch completes at once (16 R337, R342). -/
def State.finishPrepare (s : State) (q : Nat) (l : Launch) : State :=
  let s := s.pushRecords q l (s.maskCores (s.queue q)) l.pushed 64
  s.modLaunch q fun l => if l.pushed < l.n then l else { l with st := if l.n = 0 then .completing else .running }

/-- One step of a launch's preparation (16 R341). Where a translation, a home or a scrub has to be waited for, the same step
goes on later. The supervisor cores' firmware makes the ranges, the spill region and the record area resident and keeps them so; `resident` says
that it has (04 R100; assumption 72, DESIGN CHOICE, unsafe). -/
def State.prepareStep (s : State) (q : Nat) (l : Launch) (resident : Bool) : State :=
  let cores := s.maskCores (s.queue q)
  match l.step with
  | 0 => s.checkRecord q l
  | 1 => s.checkPages q l
  | 2 => s.readGroups q l
  | 3 => if resident then s.nextStep q fun l => { l with pinned := true } else s.failLaunch q 1
  | 4 => s.activateNext q l
  | 5 => s.setDomains q (cores.map s.forwarded)
  | 6 => s.setCores q l cores
  | 7 => s.writeRecords q l l.written 64
  | _ => s.finishPrepare q l
/-- A chosen launch starts its preparation, and one that is being prepared goes on. -/
def State.prepare (s : State) (q : Nat) (resident : Bool) : State :=
  match (s.queue q).launch with
  | none => s
  | some l =>
    if l.st = .preparing then s.prepareStep q l resident
    else if l.st = .eligible ∧ s.mayStart q l then s.chooseLaunch q
    else s

/-! ### Completion (16 R343, R346) -/

/-- UNTRACKED words that the L1s of a launch's cores still hold are written back, for they have to be performed at sys scope (16 R343, 07
R159; assumption 67, DEDUCED). -/
def State.flushWords (s : State) (q : Nat) : State :=
  (s.cores.filter fun p => p.2.queue == some q).foldl (fun s p => (p.2.l1.filter fun cp => decide (cp.cls = .untracked) && cp.dirty != 0).foldl
    (fun s cp => s.castOut p.1 cp) s) s
/-- Whether the launch's own commands and writes are still running (16 R343 step 1). -/
def State.launchBusy (s : State) (q n : Nat) : Bool :=
  (s.channels.any fun p => p.2.busy && p.2.queue == some q) ||
  (s.cores.any fun p => (p.2.mxq.any fun o => o.launch == some n) || (p.2.queue == some q && p.2.ops.any fun o => o.isStore && !o.allDone)) ||
  s.net.any fun f => match f.pkt with
    | .writeBack c _ _ _ _ _ _ _ => (s.core (s.forwarded c)).queue == some q
    | .mmar _ o _ _ => o.launch == some n
    | _ => false

/-- The status word of a completed launch (16 R343). -/
def Launch.status (l : Launch) : Word :=
  BitVec.ofNat 64 (1 + l.fail.toNat * 2 + l.abort.toNat * 32 + l.drained.toNat * 64 + l.killed.toNat * 128
    + l.cause % 256 * 256 + l.n % 2 ^ 32 * 65536)
/-- A core whose launch has ended: c0 stays DORMANT (14 R300). -/
def Core.leaveLaunch (k : Core) : Core :=
  { k with queue := none, origin := none, task := none, exitSucc := none, steal := none, idleSince := none, migrated := false, treeHalted := false,
           deque := [], ringLo := 0, ringHi := 0, takenAt := none }.setCtx 0
    { k.ctx 0 with st := .dormant, wait := .none }

/-- Frees what a launch held and ends it: its cores, its forwarding entries, and the queue when it was draining,
stopping or being killed. -/
def State.endLaunch (s : State) (q n : Nat) : State :=
  let s := (s.dropRequests q n).withdrawQueue q
  let s := { s with
    cores := mapIf (fun (p : Nat × Core) => p.2.queue == some q) (fun p => (p.1, p.2.leaveLaunch)) s.cores
    fwds := s.fwds.filter fun f => f.queue != q }
  let s := s.modQueue q fun d => { d with launch := none }
  let d := s.queue q
  if d.state = 2 ∨ d.state = 3 ∨ d.stop then s.disable q
  else if d.state = 0 then s.tearDown d.domain else s

/-- The VCIDs that a launch retires: those with VRET set whose record belongs to its domain, each once; a kill retires none (16 R343,
R346). -/
def State.retires (s : State) (d : Queue) (l : Launch) : List Nat :=
  if l.killed then [] else
  (([0, 1, 2, 3].filter fun j => l.vret j && (s.cdr (l.vcid j)).domain == d.domain).map l.vcid).eraseDups
/-- Steps 3 to 5 of 16 R343: the ranges are unpinned, then the status word and the arrival, or ABORT after a kill; a completion object that
fails its checks sets ERR = 3. -/
def State.reportLaunch (s : State) (q : Nat) (l : Launch) : State :=
  let s := s.unpinRanges q l
  if l.compb = 0 then s.endLaunch q l.serial
  else match s.completeVa (.agent 2 q) (s.seqCore q) (s.queue q).domain 3 q false l.compb (some l.status) false
      (if l.killed then .abort else .arrive) with
    | .busy s => s
    | .done s none => (s.modQueue q fun d => d.setErr 3).endLaunch q l.serial
    | .done s (some _) => s.endLaunch q l.serial
/-- A completing launch waits for its writes, retires its caches, then reports (16 R343, R346). -/
def State.completeLaunch (s : State) (q : Nat) : State :=
  match (s.queue q).launch with
  | none => s
  | some l =>
    if l.st = .running ∧ l.count = 0 then s.modLaunch q fun l => { l with st := .completing }
    else if l.st ≠ .completing then s else
    let s := s.flushWords q
    if s.launchBusy q l.serial then s
    else if l.stage = 0 then
      let own := s.retires (s.queue q) l
      if own.any fun v => (s.cdr v).state == 3 then s
      else
        let op : VcOp := { kind := 4, bar := 0, domain := (s.queue q).domain, sup := true, core := 0, done := 0, psn := false }
        (own.foldl (fun s v => s.retireCache v 0 op) s).modLaunch q fun l =>
          { l with stage := 1, retiring := own.filter fun v => (s.cdr v).state == 2 }
    else if l.retiring.any fun v => (s.cdr v).state == 4 then s
    else s.reportLaunch q l

/-! ### Events -/

/-- DOORBELL (16 R334). -/
def execDoorbell (q : Nat) (v : BitVec 64) (s : State) : Out := .next (s.ringDoorbell q v)
/-- RING_ENTRY_READ (16 R334). -/
def execRingEntryRead (q : Nat) (s : State) : Out := .next (s.readRing q)
/-- A write of RUNNING (16 R335). -/
def execQueueEnable (q : Nat) (s : State) : Out := .next (s.enableQueue q)
/-- A write of DRAINING (16 R345). -/
def execQueueDrain (q : Nat) (s : State) : Out := .next (s.drainQueue q)
/-- A write of DISABLED (16 R439). -/
def execQueueDisable (q : Nat) (s : State) : Out := .next (s.stopQueue q)
/-- A write of KILLING (16 R346). -/
def execQueueKill (q : Nat) (s : State) : Out := .next (s.killLaunch q)
/-- LAUNCH_ELIGIBLE (16 R338). -/
def execLaunchEligible (q : Nat) (s : State) : Out := .next (s.makeEligible q)
/-- LAUNCH_PREPARE (16 R341): the next step of a launch's preparation; `resident` says that its ranges have been made resident. -/
def execLaunchPrepare (q : Nat) (resident : Bool) (s : State) : Out := .next (s.prepare q resident)
/-- LAUNCH_COMPLETE (16 R343). -/
def execLaunchComplete (q : Nat) (s : State) : Out := .next (s.completeLaunch q)

end Sys2Proof.Machine
end

