-- ==== Sys2Proof/Machine/Message.lean ====
section
/-! DEFINITION. Active messages and deposits (14 R305 to R310, 10 R224, R225), and arrivals at a vacated position (17 R363). -/

namespace Sys2Proof.Machine

/-- Core of a descriptor (14 R306). -/
def descCore (a : Word) : Nat := fld a 0 13
/-- Context field of a descriptor. -/
def descCtx (a : Word) : Nat := fld a 13 4
/-- PRIV for a user message or deposit to a core of another domain (14 R306, R309). -/
def sameDomainM (dst : Nat) : M Unit := fun s =>
  if s.me.mode = .user ∧ (s.core (s.forwarded dst)).domain ≠ s.mine.domain then faultM .priv 0 0 s else .ok ((), s)

/-- msend (14 R306): its registers are read at issue. The networks accept every message at once (assumption 83, DESIGN CHOICE, unsafe). -/
def execMsend (m : Bool) (d a b : BitVec 5) (s : State) : Out :=
  runM (do
    let k ← keepM fun s => [(s.reg a).toNat, (s.reg b).toNat, (s.vreg d).toNat]
    let desc : Word := BitVec.ofNat 64 (k.getD 0 0)
    let x := descCtx desc
    if 11 ≤ x ∧ x ≤ 14 then illegalM (encodeWord (.msend m d a b))
    else do
      let pc := ptrVa (BitVec.ofNat 64 (k.getD 1 0))
      if x = 15 ∧ pc.toNat % 4 ≠ 0 then faultM .misalign 0 pc
      sameDomainM (descCore desc)
      writesM
      modM fun s => s.sendMsg s.curCore (.msg (descCore desc) (if x = 15 then none else some x) pc (BitVec.ofNat 512 (k.getD 2 0))
        (descriptor s.curCore s.curCtx) s.mine.domain (decide (s.me.mode = .supervisor)))
      retireM m) s

/-- mdep (14 R309): its registers are read at issue, and the context is held until the destination answers. -/
def execMdep (m : Bool) (a b : BitVec 5) (s : State) : Out :=
  runM (do
    let k ← keepM fun s => [(s.reg a).toNat, (s.reg b).toNat]
    let desc : Word := BitVec.ofNat 64 (k.getD 0 0)
    let x := descCtx desc
    let j := fld desc 17 3
    if 11 ≤ x ∨ j = 0 then illegalM (encodeWord (.mdep m a b))
    else do
      sameDomainM (descCore desc)
      writesM
      stopWith fun s => (s.send (.deposit (descCore desc) x j (BitVec.ofNat 64 (k.getD 1 0)) s.curCore s.curCtx)).modMe fun y =>
        { y with st := .held, wait := .deposit m }) s

/-- waitm (14 R310): the seen slot is freed, then the context waits for a directed message. -/
def execWaitm (m : Bool) (s : State) : Out :=
  let s := if s.me.mpend && s.me.mseen then s.releaseDirected s.curCore s.curCtx else s
  if s.me.mpend then .next ((s.modMe fun y => { y with mseen := true }).retire m)
  else .next (s.modMe fun y => { y with st := .parked, wait := .message })

/-! ### Delivery (14 R307, R308) -/

/-- The lowest free slot of a core. -/
def Core.freeSlot? (k : Core) : Option Nat := (List.range 16).find? fun n => (tget? k.slotOwner n).isNone
/-- The lowest dormant helper that HMSG marks eligible. -/
def Core.freeHelper? (k : Core) : Option Nat :=
  ((List.range 10).map fun i => i + 1).find? fun h => k.hmsg.getLsbD h && decide ((k.ctx h).st = .dormant)
/-- The context that a sender descriptor names, at the core where it now is (14 R306, R308, 17 R363). -/
def State.senderNow (s : State) (src : BitVec 17) : Nat × Nat := (s.forwarded (src.toNat % 8192), src.toNat / 8192)
/-- Whether a message may enter its core: earlier messages of its sender to the core have been delivered, no other message
waits in the router, the core is neither halted by the halt tree nor being migrated, and it runs a launch of the sender's domain (14 R307,
R308). -/
def State.deliverable (s : State) (id dst : Nat) (src : BitVec 17) (domain : Nat) (sup : Bool) : Bool :=
  let c := s.forwarded dst
  let k := s.core c
  let before := s.net.takeWhile fun f => f.id != id
  !k.treeHalted && !k.moving && (sup || s.isService c || (k.domain == domain && (match s.launchOf c with
    | some l => l.dispatched
    | none => false))) &&
  before.all (fun f => match f.pkt with
    | .msg dst' _ _ _ src' _ _ => !(s.forwarded dst' == c && s.senderNow src' == s.senderNow src)
    | _ => true) &&
  s.net.all fun f => f.id == id || (match f.pkt with
    | .msg dst' _ _ _ _ _ _ => !(s.forwarded dst' == c && decide (f.hold = .queued))
    | _ => true)
/-- A message that cannot be delivered waits in the router of its core, and later ones wait behind it. -/
def State.waitInRouter (s : State) (f : Flight) : State := s.setFlight { f with hold := .queued }
/-- Writes a message to a slot of a core. -/
def State.fillSlot (s : State) (c n owner : Nat) (payload : Vec) : State :=
  s.modCore c fun k => { k with
    slots := if payload = 0 then tdel k.slots n else tset k.slots n payload
    slotOwner := tset k.slotOwner n owner
    received := k.received + 1 }

/-- HANDLER_MESSAGE_DELIVERY (14 R307): the lowest eligible dormant helper starts with the slot and the sender. -/
def execHandlerMessageDelivery (id : Nat) (s : State) : Out :=
  match s.flight? id with
  | some f => match f.pkt with
    | .msg dst none pc payload src domain sup =>
      if !s.deliverable id dst src domain sup then .next s else
      let c := s.forwarded dst
      match (s.core c).freeSlot?, (s.core c).freeHelper? with
      | some n, some h =>
        let s := (s.drop id).fillSlot c n h payload
        let s := s.modCtx c h fun y => { y.begin pc (if s.isService c then .supervisor else .user) with
          msgStarted := true, msgSlot := some n, creator := none }
        let s := s.setRegOf c h 8 (BitVec.ofNat 64 (0x80000000010000 + 64 * n))
        let s := s.setRegOf c h 9 (src.setWidth 64)
        .next (s.setIter c h (s.ctx c 0).iter)
      | _, _ => .next (s.waitInRouter f)
    | _ => .next s
  | none => .next s
/-- DIRECTED_MESSAGE_DELIVERY (14 R307): the message is kept for its context, which wakes from waitm. -/
def execDirectedMessageDelivery (id : Nat) (s : State) : Out :=
  match s.flight? id with
  | some f => match f.pkt with
    | .msg dst (some x) _ payload src domain sup =>
      if !s.deliverable id dst src domain sup then .next s else
      let c := s.forwarded dst
      if (s.ctx c x).mpend then .next (s.waitInRouter f) else
      match (s.core c).freeSlot? with
      | some n =>
        let s := (s.drop id).fillSlot c n x payload
        .next (s.modCtx c x fun y =>
          let y := { y with mslot := BitVec.ofNat 4 n, msrc := src, mpend := true, mseen := false }
          if y.wait = .message then y.wake else y)
      | none => .next (s.waitInRouter f)
    | _ => .next s
  | none => .next s

/-- DEPOSIT (10 R225, 14 R309): applied when DEPEN permits, denied otherwise; the sender is answered. One a cycle is applied at a core, at the
end of the cycle: no instruction issues there and no result is written there after it in that cycle. -/
def execDeposit (id : Nat) (s : State) : Out :=
  match s.flight? id with
  | some { pkt := .deposit dst x j v sc sx, .. } =>
    let c := s.forwarded dst
    if (s.core c).moving ∨ (s.core c).depAt = some s.clock then .next s else
    let ok := (s.ctx c x).depen.getLsbD j
    let s := s.drop id
    .next ((if ok then (s.writeDst c x (.glob j) v).modCore c fun k => { k with depAt := some s.clock } else s).send (.depAnswer sc sx ok))
  | _ => .next s
/-- DEPOSIT_ANSWER (14 R309): the mdep completes, or its context faults DEP_DENIED at it. -/
def execDepositAnswer (id : Nat) (s : State) : Out :=
  match s.flight? id with
  | some { pkt := .depAnswer dst x ok, .. } =>
    let c := s.forwarded dst
    let s := s.drop id
    match (s.ctx c x).wait with
    | .deposit m =>
      if ok then .next (s.retireAt c x m)
      else
        let y := s.ctx c x
        .next ((s.modCtx c x fun y => { y with wait := .none }).raiseFault c x
          { f := accFault .depDenied 0 0, pc := y.pc, seq := y.seq, deferred := false, rep := y.rep })
    | _ => .next s
  | _ => .next s

/-! ### Forwarding (17 R363) -/

/-- The core that a message names. -/
def Pkt.target (p : Pkt) : Option Nat :=
  match p with
  | .msg dst _ _ _ _ _ _ => some dst
  | .deposit dst _ _ _ _ _ => some dst
  | .depAnswer dst _ _ => some dst
  | .steal v _ => some v
  | .stealReply t _ => some t
  | .cmaxRelease c _ _ _ _ => some c
  | .bwaitAns dst _ => some dst
  | .mmar dst _ _ _ => some dst
  | _ => none
/-- A message readdressed. -/
def Pkt.readdress (p : Pkt) (c : Nat) : Pkt :=
  match p with
  | .msg _ x pc v src dm sup => .msg c x pc v src dm sup
  | .deposit _ x j v sc sx => .deposit c x j v sc sx
  | .depAnswer _ x ok => .depAnswer c x ok
  | .steal _ t => .steal c t
  | .stealReply _ e => .stealReply c e
  | .cmaxRelease _ q g i v => .cmaxRelease c q g i v
  | .bwaitAns _ x => .bwaitAns c x
  | .mmar _ o tag gs => .mmar c o tag gs
  | p => p
/-- FORWARDED_ARRIVAL (17 R363): an arrival at a vacated position goes on to the core of its forwarding entry, keeping its
place among the arrivals. -/
def execForwardedArrival (id : Nat) (s : State) : Out :=
  match s.flight? id with
  | some f => match f.pkt.target with
    | some c => match s.fwds.find? fun e => e.old == c with
      | some e => .next (s.setFlight { f with pkt := f.pkt.readdress e.new })
      | none => .next s
    | none => .next s
  | none => .next s

end Sys2Proof.Machine
end

