-- ==== Sys2Proof/Machine/Pointer.lean ====
section
/-! DEFINITION. The pointer operations (11 R240, R241). -/

namespace Sys2Proof.Machine

/-- padd (11 R240). -/
def execPadd (m : Bool) (d a b : BitVec 5) (s : State) : Out :=
  s.finish m d (ptrJoin (ptrTop (s.reg a)) (ptrVa (s.reg a) + ptrVa (s.reg b)))
/-- paddi (11 R240). -/
def execPaddi (m : Bool) (d a : BitVec 5) (i : BitVec 14) (s : State) : Out :=
  s.finish m d (ptrJoin (ptrTop (s.reg a)) (ptrVa (s.reg a) + i.signExtend 56))
/-- pfmt (11 R240). -/
def execPfmt (m : Bool) (d a b : BitVec 5) (s : State) : Out :=
  s.finish m d (ptrJoin ((s.reg b).setWidth 8) (ptrVa (s.reg a)))
/-- pget (11 R240). -/
def execPget (m : Bool) (d a : BitVec 5) (s : State) : Out := s.finish m d ((ptrTop (s.reg a)).setWidth 64)
/-- pstrip (11 R240). -/
def execPstrip (m : Bool) (d a : BitVec 5) (s : State) : Out := s.finish m d ((ptrVa (s.reg a)).setWidth 64)

/-- Byte offset of k elements of a format: whole blocks of a blocked one (11 R241). -/
def elemOffset (f : Nat) (k : Int) : Option Int :=
  if f < 11 then some (elemBytes f * k)
  else if k % blockElems f = 0 then some (blockBytes f * (k / blockElems f))
  else none

/-- pidx (11 R241). -/
def execPidx (m : Bool) (d a b : BitVec 5) (s : State) : Out :=
  let p := s.reg a
  if fmtCheckFails (ptrFmt p) (ptrBlog p) then
    .next (s.faultHere (accFault .illegal (encodeWord (.pidx m d a b)).toNat 0))
  else match elemOffset (ptrFmt p) (s.reg b).toInt with
    | none => .next (s.faultHere (accFault .misalign 0 0))
    | some off => s.finish m d (ptrJoin (ptrTop p) (ptrVa p + BitVec.ofInt 56 off))

end Sys2Proof.Machine
end

