-- ==== Sys2Proof/Machine/Scalar.lean ====
section
/-! DEFINITION. The scalar operations (11 R233 to R236): register and immediate forms, shifts and constants. Each writes d at
once; a destination of x0 discards the result. -/

namespace Sys2Proof.Machine

/-- Number of leading zero bits of the low n bits of x. -/
def clzFrom (x : Word) : Nat → Nat
  | 0 => 0
  | n + 1 => if x.getLsbD n then 0 else 1 + clzFrom x n
/-- Number of trailing zero bits, over n bits from bit i. -/
def ctzFrom (x : Word) (i : Nat) : Nat → Nat
  | 0 => 0
  | n + 1 => if x.getLsbD i then 0 else 1 + ctzFrom x (i + 1) n
/-- Bytes in reverse order. -/
def byteSwap (x : Word) : Word :=
  x.extractLsb' 0 8 ++ x.extractLsb' 8 8 ++ x.extractLsb' 16 8 ++ x.extractLsb' 24 8 ++ x.extractLsb' 32 8 ++
    x.extractLsb' 40 8 ++ x.extractLsb' 48 8 ++ x.extractLsb' 56 8

/-- add (11 R234). -/
def execAdd (m : Bool) (d a b : BitVec 5) (s : State) : Out := s.finish m d (s.reg a + s.reg b)
/-- sub (11 R234). -/
def execSub (m : Bool) (d a b : BitVec 5) (s : State) : Out := s.finish m d (s.reg a - s.reg b)
/-- and (11 R234). -/
def execAnd (m : Bool) (d a b : BitVec 5) (s : State) : Out := s.finish m d (s.reg a &&& s.reg b)
/-- or (11 R234). -/
def execOr (m : Bool) (d a b : BitVec 5) (s : State) : Out := s.finish m d (s.reg a ||| s.reg b)
/-- xor (11 R234). -/
def execXor (m : Bool) (d a b : BitVec 5) (s : State) : Out := s.finish m d (s.reg a ^^^ s.reg b)
/-- andn (11 R234). -/
def execAndn (m : Bool) (d a b : BitVec 5) (s : State) : Out := s.finish m d (s.reg a &&& ~~~ s.reg b)
/-- orn (11 R234). -/
def execOrn (m : Bool) (d a b : BitVec 5) (s : State) : Out := s.finish m d (s.reg a ||| ~~~ s.reg b)
/-- sll (11 R234). -/
def execSll (m : Bool) (d a b : BitVec 5) (s : State) : Out := s.finish m d (s.reg a <<< shiftOf (s.reg b))
/-- srl (11 R234). -/
def execSrl (m : Bool) (d a b : BitVec 5) (s : State) : Out := s.finish m d (s.reg a >>> shiftOf (s.reg b))
/-- sra (11 R234). -/
def execSra (m : Bool) (d a b : BitVec 5) (s : State) : Out := s.finish m d ((s.reg a).sshiftRight (shiftOf (s.reg b)))
/-- rol (11 R234). -/
def execRol (m : Bool) (d a b : BitVec 5) (s : State) : Out := s.finish m d ((s.reg a).rotateLeft (shiftOf (s.reg b)))
/-- ror (11 R234). -/
def execRor (m : Bool) (d a b : BitVec 5) (s : State) : Out := s.finish m d ((s.reg a).rotateRight (shiftOf (s.reg b)))
/-- slt (11 R234). -/
def execSlt (m : Bool) (d a b : BitVec 5) (s : State) : Out := s.finish m d (boolWord ((s.reg a).slt (s.reg b)))
/-- sltu (11 R234). -/
def execSltu (m : Bool) (d a b : BitVec 5) (s : State) : Out := s.finish m d (boolWord ((s.reg a).ult (s.reg b)))
/-- min (11 R234). -/
def execMin (m : Bool) (d a b : BitVec 5) (s : State) : Out := s.finish m d (wordMin BitVec.slt (s.reg a) (s.reg b))
/-- max (11 R234). -/
def execMax (m : Bool) (d a b : BitVec 5) (s : State) : Out := s.finish m d (wordMax BitVec.slt (s.reg a) (s.reg b))
/-- minu (11 R234). -/
def execMinu (m : Bool) (d a b : BitVec 5) (s : State) : Out := s.finish m d (wordMin BitVec.ult (s.reg a) (s.reg b))
/-- maxu (11 R234). -/
def execMaxu (m : Bool) (d a b : BitVec 5) (s : State) : Out := s.finish m d (wordMax BitVec.ult (s.reg a) (s.reg b))
/-- clz (11 R234). -/
def execClz (m : Bool) (d a : BitVec 5) (s : State) : Out := s.finish m d (BitVec.ofNat 64 (clzFrom (s.reg a) 64))
/-- ctz (11 R234). -/
def execCtz (m : Bool) (d a : BitVec 5) (s : State) : Out := s.finish m d (BitVec.ofNat 64 (ctzFrom (s.reg a) 0 64))
/-- popc (11 R234). -/
def execPopc (m : Bool) (d a : BitVec 5) (s : State) : Out := s.finish m d (BitVec.ofNat 64 (popcount (s.reg a).toNat 64))
/-- bswap (11 R234). -/
def execBswap (m : Bool) (d a : BitVec 5) (s : State) : Out := s.finish m d (byteSwap (s.reg a))
/-- sext.b (11 R234). -/
def execSextB (m : Bool) (d a : BitVec 5) (s : State) : Out := s.finish m d (((s.reg a).setWidth 8).signExtend 64)
/-- sext.h (11 R234). -/
def execSextH (m : Bool) (d a : BitVec 5) (s : State) : Out := s.finish m d (((s.reg a).setWidth 16).signExtend 64)
/-- sext.w (11 R234). -/
def execSextW (m : Bool) (d a : BitVec 5) (s : State) : Out := s.finish m d (((s.reg a).setWidth 32).signExtend 64)
/-- zext.b (11 R234). -/
def execZextB (m : Bool) (d a : BitVec 5) (s : State) : Out := s.finish m d (((s.reg a).setWidth 8).setWidth 64)
/-- zext.h (11 R234). -/
def execZextH (m : Bool) (d a : BitVec 5) (s : State) : Out := s.finish m d (((s.reg a).setWidth 16).setWidth 64)
/-- zext.w (11 R234). -/
def execZextW (m : Bool) (d a : BitVec 5) (s : State) : Out := s.finish m d (((s.reg a).setWidth 32).setWidth 64)
/-- addi (11 R235). -/
def execAddi (m : Bool) (d a : BitVec 5) (i : BitVec 15) (s : State) : Out := s.finish m d (s.reg a + imm64 i)
/-- andi (11 R235). -/
def execAndi (m : Bool) (d a : BitVec 5) (i : BitVec 15) (s : State) : Out := s.finish m d (s.reg a &&& imm64 i)
/-- ori (11 R235). -/
def execOri (m : Bool) (d a : BitVec 5) (i : BitVec 15) (s : State) : Out := s.finish m d (s.reg a ||| imm64 i)
/-- xori (11 R235). -/
def execXori (m : Bool) (d a : BitVec 5) (i : BitVec 15) (s : State) : Out := s.finish m d (s.reg a ^^^ imm64 i)
/-- slti (11 R235). -/
def execSlti (m : Bool) (d a : BitVec 5) (i : BitVec 15) (s : State) : Out := s.finish m d (boolWord ((s.reg a).slt (imm64 i)))
/-- sltiu (11 R235). -/
def execSltiu (m : Bool) (d a : BitVec 5) (i : BitVec 15) (s : State) : Out := s.finish m d (boolWord ((s.reg a).ult (imm64 i)))
/-- slli (11 R235). -/
def execSlli (m : Bool) (d a : BitVec 5) (n : BitVec 6) (s : State) : Out := s.finish m d (s.reg a <<< n.toNat)
/-- srli (11 R235). -/
def execSrli (m : Bool) (d a : BitVec 5) (n : BitVec 6) (s : State) : Out := s.finish m d (s.reg a >>> n.toNat)
/-- srai (11 R235). -/
def execSrai (m : Bool) (d a : BitVec 5) (n : BitVec 6) (s : State) : Out := s.finish m d ((s.reg a).sshiftRight n.toNat)
/-- lui (11 R236). -/
def execLui (m : Bool) (d : BitVec 5) (i : BitVec 20) (s : State) : Out := s.finish m d ((i ++ 0#12).signExtend 64)
/-- lua (11 R236): d is source and destination. -/
def execLua (m : Bool) (d : BitVec 5) (i : BitVec 20) (s : State) : Out :=
  s.finish m d ((s.reg d <<< 20) ||| i.setWidth 64)

end Sys2Proof.Machine
end

