-- ==== Sys2Proof/Machine/Transfer.lean ====
section
/-! DEFINITION. Branches and jumps (11 R242 to R244), call and ret with the register window (10 R217, R218), and the
repetition buffer (10 R226 to R228). -/

namespace Sys2Proof.Machine

/-- REP_FAULT (10 R228): raised as the instruction reaches issue, before it has any effect. -/
def State.repFault (s : State) : State :=
  s.localTrap s.curCore s.curCtx { code := 5, epc := s.me.pc, einfo := 0, wpend := 0 }

/-- A conditional branch (11 R242); a repetition body may not hold one (10 R228). -/
def State.branch (s : State) (m : Bool) (taken : Bool) (o : BitVec 15) : Out :=
  if s.me.rep.isSome then .next s.repFault
  else if taken then .next (s.retireTo m (relTarget s.me.pc o))
  else .next (s.retire m)

/-- beq (11 R242). -/
def execBeq (m : Bool) (a b : BitVec 5) (o : BitVec 15) (s : State) : Out := s.branch m (s.reg a == s.reg b) o
/-- bne (11 R242). -/
def execBne (m : Bool) (a b : BitVec 5) (o : BitVec 15) (s : State) : Out := s.branch m (s.reg a != s.reg b) o
/-- blt (11 R242). -/
def execBlt (m : Bool) (a b : BitVec 5) (o : BitVec 15) (s : State) : Out := s.branch m ((s.reg a).slt (s.reg b)) o
/-- bge (11 R242). -/
def execBge (m : Bool) (a b : BitVec 5) (o : BitVec 15) (s : State) : Out := s.branch m (!(s.reg a).slt (s.reg b)) o
/-- bltu (11 R242). -/
def execBltu (m : Bool) (a b : BitVec 5) (o : BitVec 15) (s : State) : Out := s.branch m ((s.reg a).ult (s.reg b)) o
/-- bgeu (11 R242). -/
def execBgeu (m : Bool) (a b : BitVec 5) (o : BitVec 15) (s : State) : Out := s.branch m (!(s.reg a).ult (s.reg b)) o

/-- j (11 R243). -/
def execJ (m : Bool) (o : BitVec 25) (s : State) : Out :=
  if s.me.rep.isSome then .next s.repFault else .next (s.retireTo m (relTarget s.me.pc o))
/-- jl (11 R243): o7 takes the return address. -/
def execJl (m : Bool) (o : BitVec 25) (s : State) : Out :=
  if s.me.rep.isSome then .next s.repFault
  else .next ((s.setReg 31 ((s.me.pc + 4).setWidth 64)).retireTo m (relTarget s.me.pc o))

/-- A misaligned target faults MISALIGN at the jump (03 R62). -/
def State.targetFault (s : State) (t : Addr) : State := s.faultHere (accFault .misalign 0 t)

/-- jr (11 R243). -/
def execJr (m : Bool) (a : BitVec 5) (s : State) : Out :=
  let t := ptrVa (s.reg a)
  if s.me.rep.isSome then .next s.repFault
  else if !alignedTo t 4 then .next (s.targetFault t)
  else .next (s.retireTo m t)
/-- jlr (11 R243): a is read before d is written. -/
def execJlr (m : Bool) (d a : BitVec 5) (s : State) : Out :=
  let t := ptrVa (s.reg a)
  if s.me.rep.isSome then .next s.repFault
  else if !alignedTo t 4 then .next (s.targetFault t)
  else .next ((s.setReg d ((s.me.pc + 4).setWidth 64)).retireTo m t)

/-! ### Calls (10 R218, R219) -/

/-- Whether the ring breaks 10 R215 for a call or ret. -/
def Ctx.ringBad (y : Ctx) : Bool := decide (y.ringN % 8 ≠ 0) || decide (y.ringN < 40)
/-- An entry moved by a distance within the ring. -/
def Ctx.ringMove (y : Ctx) (e : BitVec 12) (d : Int) : BitVec 12 :=
  BitVec.ofNat 12 (y.ringAt ((e.toNat : Int) - y.rslo.toNat + d))
/-- A window trap: WIN_SPILL (1) or WIN_FILL (2) at this instruction, with the first entry to move, or the broken ring's
flag (10 R219). -/
def State.windowTrap (s : State) (code : Nat) (entry : Option (BitVec 12)) : State :=
  match entry with
  | some e => s.localTrap s.curCore s.curCtx
      { code := BitVec.ofNat 8 code, epc := s.me.pc, einfo := e.setWidth 64, wpend := BitVec.ofNat 2 code }
  | none => ({ s with nextId := s.nextId + 1 } : State).localTrap s.curCore s.curCtx
      { code := BitVec.ofNat 8 code, epc := s.me.pc,
        einfo := BitVec.ofNat 64 (2 ^ 63 + (Config.brokenRingEntry s.nextId).toNat), wpend := 0 }

/-- Opens a frame and goes to a target (10 R218). -/
def State.callTo (s : State) (m : Bool) (t : Addr) : State :=
  let y := s.me
  if !alignedTo t 4 then s.targetFault t
  else if y.ringBad then s.windowTrap 1 none
  else if y.ringN < ((y.base.toNat : Int) - y.low.toNat) % y.ringN + 40 then s.windowTrap 1 (some y.low)
  else
    let s := s.modMe fun y => { y with base := y.ringMove y.base 16 }
    (s.setRegOf s.curCore s.curCtx 23 ((y.pc + 4).setWidth 64)).retireTo m t

/-- call (10 R218). -/
def execCall (m : Bool) (o : BitVec 24) (s : State) : Out :=
  if s.me.rep.isSome then .next s.repFault else .next (s.callTo m (relTarget s.me.pc o))
/-- callr (10 R218). -/
def execCallr (m : Bool) (a : BitVec 5) (s : State) : Out :=
  if s.me.rep.isSome then .next s.repFault else .next (s.callTo m (ptrVa (s.reg a)))
/-- ret (10 R218). -/
def execRet (m : Bool) (s : State) : Out :=
  if s.me.rep.isSome then .next s.repFault else
  let y := s.me
  let t := ptrVa (s.regOf s.curCore s.curCtx 23)
  if !alignedTo t 4 then .next (s.targetFault t)
  else if y.ringBad then .next (s.windowTrap 2 none)
  else if y.base = y.low then .next (s.windowTrap 2 (some (y.ringMove y.low (-16))))
  else .next ((s.modMe fun y => { y with base := y.ringMove y.base (-16) }).retireTo m t)

/-! ### rep (10 R226, R227) -/

/-- Starts a repetition of the next len instructions from the buffer, which is filled now; the marker parks before the
first pass (10 R227). -/
def execRep (m : Bool) (l : BitVec 4) (t : BitVec 3) (c : BitVec 12) (s : State) : Out :=
  runM (do
    noRepM
    let pc ← getM fun s => s.me.pc + 4
    let buf ← bodyM pc (l.toNat + 1)
    modM fun s => s.modMe fun y => { y.advance with
      rep := some { base := pc, len := l.toNat + 1, count := c.toNat + 1, stride := t.toNat, pos := 0, pass := 0, buf := buf } }
    modM fun s => if m then s.park s.curCore s.curCtx else s) s

end Sys2Proof.Machine
end

