-- ==== Sys2Proof/Machine/VecMem.lean ====
section
/-! DEFINITION. Vector memory forms (12 R256 to R258). -/

namespace Sys2Proof.Machine

/-- The parts of a vector access: its active lanes in ascending order (12 R257). -/
def vecParts (e : Nat) (k : Word) (addr : Nat → Addr) (op : Nat → LaneOp) : List Part :=
  (activeLanes k (64 / e)).map fun L => { ix := L, va := addr L, n := e, op := op L }
/-- A vector load (12 R257). -/
def vloadM (m : Bool) (d : BitVec 5) (e : Nat) (k : BitVec 3) (addr : State → Nat → Addr) : M Unit := do
  let parts ← getM fun s => vecParts e (s.kreg k) (addr s) fun _ => .read
  let o ← getM fun s => { s.newOp with isLoad := true, fin := .vec d.toNat }
  wideM .read e parts o
  retireM m
/-- A vector store (12 R257). -/
def vstoreM (m : Bool) (d : BitVec 5) (e : Nat) (k : BitVec 3) (addr : State → Nat → Addr) : M Unit := do
  let parts ← getM fun s => vecParts e (s.kreg k) (addr s) fun L => storeOp e (BitVec.ofNat 64 (lane e (s.vreg d) L))
  let o ← getM fun s => { s.newOp with isStore := true }
  wideM .write e parts o
  retireM m

/-- a + e·L (12 R256). -/
def unitStride (a : BitVec 5) (e : Nat) (s : State) (L : Nat) : Addr := ptrVa (s.reg a) + BitVec.ofNat 56 (e * L)
/-- a + b·L (12 R256). -/
def byteStride (a b : BitVec 5) (s : State) (L : Nat) : Addr := ptrVa (s.reg a) + BitVec.ofInt 56 ((s.reg b).toInt * L)
/-- a + e·Signed(vi[L]) (12 R256). -/
def indexed (a b : BitVec 5) (e : Nat) (s : State) (L : Nat) : Addr :=
  ptrVa (s.reg a) + BitVec.ofInt 56 (e * slane e (s.vreg b) L)

/-- vld (12 R257). -/
def execVld (m : Bool) (d a : BitVec 5) (t : BitVec 2) (k : BitVec 3) (s : State) : Out :=
  runM (vloadM m d (intBytes t) k (unitStride a (intBytes t))) s
/-- vst (12 R257). -/
def execVst (m : Bool) (d a : BitVec 5) (t : BitVec 2) (k : BitVec 3) (s : State) : Out :=
  runM (vstoreM m d (intBytes t) k (unitStride a (intBytes t))) s
/-- vlds (12 R257). -/
def execVlds (m : Bool) (d a b : BitVec 5) (t : BitVec 2) (k : BitVec 3) (s : State) : Out :=
  runM (vloadM m d (intBytes t) k (byteStride a b)) s
/-- vsts (12 R257). -/
def execVsts (m : Bool) (d a b : BitVec 5) (t : BitVec 2) (k : BitVec 3) (s : State) : Out :=
  runM (vstoreM m d (intBytes t) k (byteStride a b)) s
/-- vgath (12 R257). -/
def execVgath (m : Bool) (d a b : BitVec 5) (t : BitVec 2) (k : BitVec 3) (s : State) : Out :=
  runM (vloadM m d (intBytes t) k (indexed a b (intBytes t))) s
/-- vscat (12 R257). -/
def execVscat (m : Bool) (d a b : BitVec 5) (t : BitVec 2) (k : BitVec 3) (s : State) : Out :=
  runM (vstoreM m d (intBytes t) k (indexed a b (intBytes t))) s

end Sys2Proof.Machine
end

