-- ==== Sys2Proof/Machine/VecMove.lean ====
section
/-! DEFINITION. Moves, permutes and reductions (12 R259 to R261), and the mask instructions (12 R267). -/

namespace Sys2Proof.Machine

/-- vbcast (12 R260). -/
def execVbcast (m : Bool) (d a : BitVec 5) (t : BitVec 2) (k : BitVec 3) (s : State) : Out :=
  s.finishV m d (lanes (intBytes t) (s.kreg k) (s.vreg d) fun _ => (s.reg a).toNat)
/-- vmovx (12 R260). -/
def execVmovx (m : Bool) (d a b : BitVec 5) (t : BitVec 2) (s : State) : Out :=
  let e := intBytes t
  s.finish m d (BitVec.ofInt 64 (slane e (s.vreg a) ((s.reg b).toNat % (64 / e))))
/-- vins (12 R260). -/
def execVins (m : Bool) (d a b : BitVec 5) (t : BitVec 2) (s : State) : Out :=
  let e := intBytes t
  s.finishV m d (lanes e (1#64 <<< ((s.reg b).toNat % (64 / e))) (s.vreg d) fun _ => (s.reg a).toNat)
/-- vperm (12 R260): a result that returns later. -/
def execVperm (m : Bool) (d a b : BitVec 5) (t : BitVec 2) (k : BitVec 3) (s : State) : Out :=
  let e := intBytes t
  .next (s.issueResult m [.vec d.toNat
    (lanes e (s.kreg k) 0 fun L => lane e (s.vreg a) (lane e (s.vreg b) L % (64 / e))) (laneBits e (s.kreg k))])
/-- vslide (12 R260). -/
def execVslide (m : Bool) (d a b : BitVec 5) (t : BitVec 2) (k : BitVec 3) (s : State) : Out :=
  let e := intBytes t
  s.finishV m d (lanes e (s.kreg k) (s.vreg d) fun L =>
    let i := (L : Int) + (s.reg b).toInt
    if 0 ≤ i ∧ i < (64 / e : Nat) then lane e (s.vreg a) i.toNat else 0)

/-! ### Reductions (12 R261, 02 R58) -/

/-- The active lanes of a vector under a mask. -/
def State.activeOf (s : State) (e : Nat) (a : BitVec 5) (k : BitVec 3) : List Nat :=
  (activeLanes (s.kreg k) (64 / e)).map fun L => lane e (s.vreg a) L
/-- A scalar result that returns later. -/
def State.scalarResult (s : State) (m : Bool) (d : BitVec 5) (w : Word) : Out := .next (s.issueResult m [.scalar (s.dst d) w])
/-- An integer reduction: zero when every lane is masked off; sign-extended. -/
def intReduce (e : Nat) (f : Nat → Nat → Nat) (l : List Nat) : Word :=
  match l with
  | [] => 0
  | x :: l => BitVec.ofInt 64 (signedOf (8 * e) (l.foldl f x))
/-- vredsum, integer (12 R261). -/
def execVredsum (m : Bool) (d a : BitVec 5) (t : BitVec 2) (k : BitVec 3) (s : State) : Out :=
  s.scalarResult m d (intReduce (intBytes t) (fun x y => x + y) (s.activeOf (intBytes t) a k))
/-- vredmax, integer (12 R261). -/
def execVredmax (m : Bool) (d a : BitVec 5) (t : BitVec 2) (k : BitVec 3) (s : State) : Out :=
  s.scalarResult m d (intReduce (intBytes t) (fun x y => if laneLt (intBytes t) x y then y else x) (s.activeOf (intBytes t) a k))
/-- vredmin, integer (12 R261). -/
def execVredmin (m : Bool) (d a : BitVec 5) (t : BitVec 2) (k : BitVec 3) (s : State) : Out :=
  s.scalarResult m d (intReduce (intBytes t) (fun x y => if laneLt (intBytes t) y x then y else x) (s.activeOf (intBytes t) a k))

/-- Combines two operands of a tree node; a masked-off operand passes the other on (02 R58). -/
def treeNode (f : Nat → Nat → Nat) (x y : Option Nat) : Option Nat :=
  match x, y with
  | some x, some y => some (f x y)
  | some x, none => some x
  | none, y => y
/-- One stage: adjacent pairs (02 R58). -/
def treeStage (f : Nat → Nat → Nat) : List (Option Nat) → List (Option Nat)
  | x :: y :: l => treeNode f x y :: treeStage f l
  | l => l
/-- The pairwise tree over at most 2^n operands. -/
def tree (f : Nat → Nat → Nat) : Nat → List (Option Nat) → Option Nat
  | 0, l => l.headD none
  | n + 1, l => tree f n (treeStage f l)
/-- A float reduction in FP32 codes, rounded once to the element format at the end (12 R261). -/
def State.floatReduce (s : State) (a : BitVec 5) (t : BitVec 2) (k : BitVec 3) (f : Nat → Nat → Nat) : Word :=
  let e := fltBytes t
  let widen (x : Nat) : Nat := fp32.encode .ieee .rne ((fltFmt t).decode x)
  let leaves := (List.range (64 / e)).map fun L =>
    if (s.kreg k).getLsbD L then some (widen (lane e (s.vreg a) L)) else none
  match tree f 5 leaves with
  | none => 0
  | some c => BitVec.ofNat 64 (s.toFloat t (fp32.decode c))
/-- vredsum, float (12 R261). -/
def execVredsumFloat (m : Bool) (d a : BitVec 5) (t : BitVec 2) (k : BitVec 3) (s : State) : Out :=
  s.scalarResult m d (s.floatReduce a t k fun x y => s.toFloat 0 ((fp32.decode x).add s.me.rm (fp32.decode y)))
/-- vredmax, float (12 R261). -/
def execVredmaxFloat (m : Bool) (d a : BitVec 5) (t : BitVec 2) (k : BitVec 3) (s : State) : Out :=
  s.scalarResult m d (s.floatReduce a t k fun x y => fp32.pick true x y)
/-- vredmin, float (12 R261). -/
def execVredminFloat (m : Bool) (d a : BitVec 5) (t : BitVec 2) (k : BitVec 3) (s : State) : Out :=
  s.scalarResult m d (s.floatReduce a t k fun x y => fp32.pick false x y)

/-! ### Masks (12 R267) -/

/-- kand (12 R267). -/
def execKand (m : Bool) (d a b : BitVec 3) (s : State) : Out := s.finishK m d (s.kreg a &&& s.kreg b)
/-- kor (12 R267). -/
def execKor (m : Bool) (d a b : BitVec 3) (s : State) : Out := s.finishK m d (s.kreg a ||| s.kreg b)
/-- kxor (12 R267). -/
def execKxor (m : Bool) (d a b : BitVec 3) (s : State) : Out := s.finishK m d (s.kreg a ^^^ s.kreg b)
/-- knot (12 R267). -/
def execKnot (m : Bool) (d a : BitVec 3) (s : State) : Out := s.finishK m d (~~~ s.kreg a)
/-- kmov into a mask (12 R267). -/
def execKmovToMask (m : Bool) (d : BitVec 3) (a : BitVec 5) (s : State) : Out := s.finishK m d (s.reg a)
/-- kmov into a scalar (12 R267). -/
def execKmovFromMask (m : Bool) (d : BitVec 5) (a : BitVec 3) (s : State) : Out := s.finish m d (s.kreg a)

end Sys2Proof.Machine
end

