-- ==== Sys2Proof/Machine/Dispatch.lean ====
section
/-! DEFINITION. One arm for each constructor of `Instr`. -/

namespace Sys2Proof.Machine

/-- The meaning of an instruction or event. -/
def exec (i : Instr) (s : State) : Host.Outcome State Fault Refusal :=
  match i with
  | .add m d a b => Sys2Proof.Machine.execAdd m d a b s
  | .sub m d a b => Sys2Proof.Machine.execSub m d a b s
  | .and m d a b => Sys2Proof.Machine.execAnd m d a b s
  | .or m d a b => Sys2Proof.Machine.execOr m d a b s
  | .xor m d a b => Sys2Proof.Machine.execXor m d a b s
  | .andn m d a b => Sys2Proof.Machine.execAndn m d a b s
  | .orn m d a b => Sys2Proof.Machine.execOrn m d a b s
  | .sll m d a b => Sys2Proof.Machine.execSll m d a b s
  | .srl m d a b => Sys2Proof.Machine.execSrl m d a b s
  | .sra m d a b => Sys2Proof.Machine.execSra m d a b s
  | .rol m d a b => Sys2Proof.Machine.execRol m d a b s
  | .ror m d a b => Sys2Proof.Machine.execRor m d a b s
  | .slt m d a b => Sys2Proof.Machine.execSlt m d a b s
  | .sltu m d a b => Sys2Proof.Machine.execSltu m d a b s
  | .min m d a b => Sys2Proof.Machine.execMin m d a b s
  | .max m d a b => Sys2Proof.Machine.execMax m d a b s
  | .minu m d a b => Sys2Proof.Machine.execMinu m d a b s
  | .maxu m d a b => Sys2Proof.Machine.execMaxu m d a b s
  | .clz m d a => Sys2Proof.Machine.execClz m d a s
  | .ctz m d a => Sys2Proof.Machine.execCtz m d a s
  | .popc m d a => Sys2Proof.Machine.execPopc m d a s
  | .bswap m d a => Sys2Proof.Machine.execBswap m d a s
  | .sextB m d a => Sys2Proof.Machine.execSextB m d a s
  | .sextH m d a => Sys2Proof.Machine.execSextH m d a s
  | .sextW m d a => Sys2Proof.Machine.execSextW m d a s
  | .zextB m d a => Sys2Proof.Machine.execZextB m d a s
  | .zextH m d a => Sys2Proof.Machine.execZextH m d a s
  | .zextW m d a => Sys2Proof.Machine.execZextW m d a s
  | .addi m d a imm => Sys2Proof.Machine.execAddi m d a imm s
  | .andi m d a imm => Sys2Proof.Machine.execAndi m d a imm s
  | .ori m d a imm => Sys2Proof.Machine.execOri m d a imm s
  | .xori m d a imm => Sys2Proof.Machine.execXori m d a imm s
  | .slti m d a imm => Sys2Proof.Machine.execSlti m d a imm s
  | .sltiu m d a imm => Sys2Proof.Machine.execSltiu m d a imm s
  | .slli m d a n => Sys2Proof.Machine.execSlli m d a n s
  | .srli m d a n => Sys2Proof.Machine.execSrli m d a n s
  | .srai m d a n => Sys2Proof.Machine.execSrai m d a n s
  | .lui m d imm => Sys2Proof.Machine.execLui m d imm s
  | .lua m d imm => Sys2Proof.Machine.execLua m d imm s
  | .mull m d a b => Sys2Proof.Machine.execMull m d a b s
  | .mulhs m d a b => Sys2Proof.Machine.execMulhs m d a b s
  | .mulhz m d a b => Sys2Proof.Machine.execMulhz m d a b s
  | .mulhsz m d a b => Sys2Proof.Machine.execMulhsz m d a b s
  | .divq m d a b => Sys2Proof.Machine.execDivq m d a b s
  | .divqz m d a b => Sys2Proof.Machine.execDivqz m d a b s
  | .divr m d a b => Sys2Proof.Machine.execDivr m d a b s
  | .divrz m d a b => Sys2Proof.Machine.execDivrz m d a b s
  | .divideComplete core => Sys2Proof.Machine.execDivideComplete core s
  | .padd m d a b => Sys2Proof.Machine.execPadd m d a b s
  | .pfmt m d a b => Sys2Proof.Machine.execPfmt m d a b s
  | .pget m d a => Sys2Proof.Machine.execPget m d a s
  | .pstrip m d a => Sys2Proof.Machine.execPstrip m d a s
  | .pidx m d a b => Sys2Proof.Machine.execPidx m d a b s
  | .paddi m d a imm => Sys2Proof.Machine.execPaddi m d a imm s
  | .beq m a b o => Sys2Proof.Machine.execBeq m a b o s
  | .bne m a b o => Sys2Proof.Machine.execBne m a b o s
  | .blt m a b o => Sys2Proof.Machine.execBlt m a b o s
  | .bge m a b o => Sys2Proof.Machine.execBge m a b o s
  | .bltu m a b o => Sys2Proof.Machine.execBltu m a b o s
  | .bgeu m a b o => Sys2Proof.Machine.execBgeu m a b o s
  | .j m o => Sys2Proof.Machine.execJ m o s
  | .jl m o => Sys2Proof.Machine.execJl m o s
  | .jr m a => Sys2Proof.Machine.execJr m a s
  | .jlr m d a => Sys2Proof.Machine.execJlr m d a s
  | .call m o => Sys2Proof.Machine.execCall m o s
  | .callr m a => Sys2Proof.Machine.execCallr m a s
  | .ret m => Sys2Proof.Machine.execRet m s
  | .rep m l t c => Sys2Proof.Machine.execRep m l t c s
  | .ldB m d a o => Sys2Proof.Machine.execLdB m d a o s
  | .ldBu m d a o => Sys2Proof.Machine.execLdBu m d a o s
  | .ldH m d a o => Sys2Proof.Machine.execLdH m d a o s
  | .ldHu m d a o => Sys2Proof.Machine.execLdHu m d a o s
  | .ldW m d a o => Sys2Proof.Machine.execLdW m d a o s
  | .ldWu m d a o => Sys2Proof.Machine.execLdWu m d a o s
  | .ldD m d a o => Sys2Proof.Machine.execLdD m d a o s
  | .pref m a o => Sys2Proof.Machine.execPref m a o s
  | .stB m b a o => Sys2Proof.Machine.execStB m b a o s
  | .stH m b a o => Sys2Proof.Machine.execStH m b a o s
  | .stW m b a o => Sys2Proof.Machine.execStW m b a o s
  | .stD m b a o => Sys2Proof.Machine.execStD m b a o s
  | .lde m d a k => Sys2Proof.Machine.execLde m d a k s
  | .ste m d a k => Sys2Proof.Machine.execSte m d a k s
  | .ldlW m d a b l mode => Sys2Proof.Machine.execLdlW m d a b l mode s
  | .ldlWu m d a b l mode => Sys2Proof.Machine.execLdlWu m d a b l mode s
  | .ldlD m d a b l mode => Sys2Proof.Machine.execLdlD m d a b l mode s
  | .amoadd m d a b w o => Sys2Proof.Machine.execAmoadd m d a b w o s
  | .amoand m d a b w o => Sys2Proof.Machine.execAmoand m d a b w o s
  | .amoor m d a b w o => Sys2Proof.Machine.execAmoor m d a b w o s
  | .amoxor m d a b w o => Sys2Proof.Machine.execAmoxor m d a b w o s
  | .amomin m d a b w o => Sys2Proof.Machine.execAmomin m d a b w o s
  | .amomax m d a b w o => Sys2Proof.Machine.execAmomax m d a b w o s
  | .amominu m d a b w o => Sys2Proof.Machine.execAmominu m d a b w o s
  | .amomaxu m d a b w o => Sys2Proof.Machine.execAmomaxu m d a b w o s
  | .amoswap m d a b w o => Sys2Proof.Machine.execAmoswap m d a b w o s
  | .amofaddS m d a b o => Sys2Proof.Machine.execAmofaddS m d a b o s
  | .cas m d a b w o => Sys2Proof.Machine.execCas m d a b w o s
  | .cas2 m d a b w o => Sys2Proof.Machine.execCas2 m d a b w o s
  | .fence m c k => Sys2Proof.Machine.execFence m c k s
  | .cflush m a => Sys2Proof.Machine.execCflush m a s
  | .cinv m a => Sys2Proof.Machine.execCinv m a s
  | .cwb m a => Sys2Proof.Machine.execCwb m a s
  | .lda m d a z o => Sys2Proof.Machine.execLda m d a z o s
  | .strl m d a z o => Sys2Proof.Machine.execStrl m d a z o s
  | .itadv m imm => Sys2Proof.Machine.execItadv m imm s
  | .itset m a imm => Sys2Proof.Machine.execItset m a imm s
  | .itget m d => Sys2Proof.Machine.execItget m d s
  | .vadd m d a b t k => Sys2Proof.Machine.execVadd m d a b t k s
  | .vsub m d a b t k => Sys2Proof.Machine.execVsub m d a b t k s
  | .vmul m d a b t k => Sys2Proof.Machine.execVmul m d a b t k s
  | .vmin m d a b t k => Sys2Proof.Machine.execVmin m d a b t k s
  | .vmax m d a b t k => Sys2Proof.Machine.execVmax m d a b t k s
  | .vand m d a b t k => Sys2Proof.Machine.execVand m d a b t k s
  | .vor m d a b t k => Sys2Proof.Machine.execVor m d a b t k s
  | .vxor m d a b t k => Sys2Proof.Machine.execVxor m d a b t k s
  | .vsll m d a b t k => Sys2Proof.Machine.execVsll m d a b t k s
  | .vsrl m d a b t k => Sys2Proof.Machine.execVsrl m d a b t k s
  | .vsra m d a b t k => Sys2Proof.Machine.execVsra m d a b t k s
  | .vfadd m d a b t k => Sys2Proof.Machine.execVfadd m d a b t k s
  | .vfsub m d a b t k => Sys2Proof.Machine.execVfsub m d a b t k s
  | .vfmul m d a b t k => Sys2Proof.Machine.execVfmul m d a b t k s
  | .vfma m d a b t k => Sys2Proof.Machine.execVfma m d a b t k s
  | .vfnma m d a b t k => Sys2Proof.Machine.execVfnma m d a b t k s
  | .vfmin m d a b t k => Sys2Proof.Machine.execVfmin m d a b t k s
  | .vfmax m d a b t k => Sys2Proof.Machine.execVfmax m d a b t k s
  | .vfabs m d a t k => Sys2Proof.Machine.execVfabs m d a t k s
  | .vfneg m d a t k => Sys2Proof.Machine.execVfneg m d a t k s
  | .vfrcp m d a t k => Sys2Proof.Machine.execVfrcp m d a t k s
  | .vfrsqrt m d a t k => Sys2Proof.Machine.execVfrsqrt m d a t k s
  | .vfexp2 m d a t k => Sys2Proof.Machine.execVfexp2 m d a t k s
  | .vscale m d a b t k => Sys2Proof.Machine.execVscale m d a b t k s
  | .vcmpEq m d a b t k => Sys2Proof.Machine.execVcmpEq m d a b t k s
  | .vcmpLt m d a b t k => Sys2Proof.Machine.execVcmpLt m d a b t k s
  | .vcmpLe m d a b t k => Sys2Proof.Machine.execVcmpLe m d a b t k s
  | .vcmpNe m d a b t k => Sys2Proof.Machine.execVcmpNe m d a b t k s
  | .vsel m d a b t k => Sys2Proof.Machine.execVsel m d a b t k s
  | .vld m d a t k => Sys2Proof.Machine.execVld m d a t k s
  | .vst m d a t k => Sys2Proof.Machine.execVst m d a t k s
  | .vlds m d a b t k => Sys2Proof.Machine.execVlds m d a b t k s
  | .vsts m d a b t k => Sys2Proof.Machine.execVsts m d a b t k s
  | .vgath m d a b t k => Sys2Proof.Machine.execVgath m d a b t k s
  | .vscat m d a b t k => Sys2Proof.Machine.execVscat m d a b t k s
  | .vcvt m d a g r k c => Sys2Proof.Machine.execVcvt m d a g r k c s
  | .vquant m d a g r k c => Sys2Proof.Machine.execVquant m d a g r k c s
  | .vdequant m d a g r k c => Sys2Proof.Machine.execVdequant m d a g r k c s
  | .vbcast m d a t k => Sys2Proof.Machine.execVbcast m d a t k s
  | .vmovx m d a b t => Sys2Proof.Machine.execVmovx m d a b t s
  | .vins m d a b t => Sys2Proof.Machine.execVins m d a b t s
  | .vperm m d a b t k => Sys2Proof.Machine.execVperm m d a b t k s
  | .vslide m d a b t k => Sys2Proof.Machine.execVslide m d a b t k s
  | .vredsum m d a t k => Sys2Proof.Machine.execVredsum m d a t k s
  | .vredmax m d a t k => Sys2Proof.Machine.execVredmax m d a t k s
  | .vredmin m d a t k => Sys2Proof.Machine.execVredmin m d a t k s
  | .vredsumFloat m d a t k => Sys2Proof.Machine.execVredsumFloat m d a t k s
  | .vredmaxFloat m d a t k => Sys2Proof.Machine.execVredmaxFloat m d a t k s
  | .vredminFloat m d a t k => Sys2Proof.Machine.execVredminFloat m d a t k s
  | .kand m d a b => Sys2Proof.Machine.execKand m d a b s
  | .kor m d a b => Sys2Proof.Machine.execKor m d a b s
  | .kxor m d a b => Sys2Proof.Machine.execKxor m d a b s
  | .knot m d a => Sys2Proof.Machine.execKnot m d a s
  | .kmovToMask m d a => Sys2Proof.Machine.execKmovToMask m d a s
  | .kmovFromMask m d a => Sys2Proof.Machine.execKmovFromMask m d a s
  | .tcfg m t a => Sys2Proof.Machine.execTcfg m t a s
  | .tzero m t => Sys2Proof.Machine.execTzero m t s
  | .tldr m t a imm => Sys2Proof.Machine.execTldr m t a imm s
  | .tstr m t a imm => Sys2Proof.Machine.execTstr m t a imm s
  | .tvrow m t a imm => Sys2Proof.Machine.execTvrow m t a imm s
  | .trowv m t a imm => Sys2Proof.Machine.execTrowv m t a imm s
  | .tvcol m t a imm => Sys2Proof.Machine.execTvcol m t a imm s
  | .tcolv m t a imm => Sys2Proof.Machine.execTcolv m t a imm s
  | .tsave m t => Sys2Proof.Machine.execTsave m t s
  | .tstat m t a => Sys2Proof.Machine.execTstat m t a s
  | .mma m t a b n => Sys2Proof.Machine.execMma m t a b n s
  | .mmar m t a b n => Sys2Proof.Machine.execMmar m t a b n s
  | .mxw m a r => Sys2Proof.Machine.execMxw m a r s
  | .mxr m a r => Sys2Proof.Machine.execMxr m a r s
  | .ceStart m a b => Sys2Proof.Machine.execCeStart m a b s
  | .ceCancel m a => Sys2Proof.Machine.execCeCancel m a s
  | .ceStat m a b => Sys2Proof.Machine.execCeStat m a b s
  | .vcdef m a b => Sys2Proof.Machine.execVcdef m a b s
  | .vcresize m a b => Sys2Proof.Machine.execVcresize m a b s
  | .vcflush m a b => Sys2Proof.Machine.execVcflush m a b s
  | .vcinv m a b => Sys2Proof.Machine.execVcinv m a b s
  | .vcstat m a b => Sys2Proof.Machine.execVcstat m a b s
  | .tlbfill m a b => Sys2Proof.Machine.execTlbfill m a b s
  | .tlbprobe m a b => Sys2Proof.Machine.execTlbprobe m a b s
  | .pblock m a => Sys2Proof.Machine.execPblock m a s
  | .punblock m a b => Sys2Proof.Machine.execPunblock m a b s
  | .tmark m a => Sys2Proof.Machine.execTmark m a s
  | .hstart m a b h => Sys2Proof.Machine.execHstart m a b h s
  | .hexit m a => Sys2Proof.Machine.execHexit m a s
  | .hjoin m d h => Sys2Proof.Machine.execHjoin m d h s
  | .exit m a => Sys2Proof.Machine.execExit m a s
  | .pusht m a => Sys2Proof.Machine.execPusht m a s
  | .popt m d => Sys2Proof.Machine.execPopt m d s
  | .tcancel m a => Sys2Proof.Machine.execTcancel m a s
  | .tpoll m d => Sys2Proof.Machine.execTpoll m d s
  | .ctxid m d => Sys2Proof.Machine.execCtxid m d s
  | .binit m a b => Sys2Proof.Machine.execBinit m a b s
  | .barrive m a => Sys2Proof.Machine.execBarrive m a s
  | .bbeat m a b => Sys2Proof.Machine.execBbeat m a b s
  | .bwait m a b => Sys2Proof.Machine.execBwait m a b s
  | .bstat m d a => Sys2Proof.Machine.execBstat m d a s
  | .msend m d a b => Sys2Proof.Machine.execMsend m d a b s
  | .mdep m a b => Sys2Proof.Machine.execMdep m a b s
  | .waitm m => Sys2Proof.Machine.execWaitm m s
  | .cred m d a b t o => Sys2Proof.Machine.execCred m d a b t o s
  | .cmaxb m d a b t => Sys2Proof.Machine.execCmaxb m d a b t s
  | .csrr m d c => Sys2Proof.Machine.execCsrr m d c s
  | .csrw m a c => Sys2Proof.Machine.execCsrw m a c s
  | .csrs m d a c => Sys2Proof.Machine.execCsrs m d a c s
  | .csrc m d a c => Sys2Proof.Machine.execCsrc m d a c s
  | .trap m imm => Sys2Proof.Machine.execTrap m imm s
  | .rtt m => Sys2Proof.Machine.execRtt m s
  | .halt m d a => Sys2Proof.Machine.execHalt m d a s
  | .bkpt m => Sys2Proof.Machine.execBkpt m s
  | .resume m d a => Sys2Proof.Machine.execResume m d a s
  | .kill m d a => Sys2Proof.Machine.execKill m d a s
  | .migr m d a => Sys2Proof.Machine.execMigr m d a s
  | .illegalEncoding w => Sys2Proof.Machine.execIllegalEncoding w s
  | .resultWriteback core ctx tag ecc => Sys2Proof.Machine.execResultWriteback core ctx tag ecc s
  | .translationInvalidation id => Sys2Proof.Machine.execTranslationInvalidation id s
  | .translationInvalidationAck id => Sys2Proof.Machine.execTranslationInvalidationAck id s
  | .ownershipRequest id => Sys2Proof.Machine.execOwnershipRequest id s
  | .recallCopy id => Sys2Proof.Machine.execRecallCopy id s
  | .invalidationAcknowledgement id => Sys2Proof.Machine.execInvalidationAcknowledgement id s
  | .grant id => Sys2Proof.Machine.execGrant id s
  | .bisnpResponse id modified => Sys2Proof.Machine.execBisnpResponse id modified s
  | .stampedStoreAtHome id => Sys2Proof.Machine.execStampedStoreAtHome id s
  | .stampedReadAtHome id => Sys2Proof.Machine.execStampedReadAtHome id s
  | .staleTimeout core ctx tag => Sys2Proof.Machine.execStaleTimeout core ctx tag s
  | .backoffRetry id => Sys2Proof.Machine.execBackoffRetry id s
  | .blockedPageAccess id => Sys2Proof.Machine.execBlockedPageAccess id s
  | .replayAccess id => Sys2Proof.Machine.execReplayAccess id s
  | .hostCxlMemRead addr n => Sys2Proof.Machine.execHostCxlMemRead addr n s
  | .hostCxlMemWrite addr n data => Sys2Proof.Machine.execHostCxlMemWrite addr n data s
  | .load id => Sys2Proof.Machine.execLoad id s
  | .store id => Sys2Proof.Machine.execStore id s
  | .atomic id => Sys2Proof.Machine.execAtomic id s
  | .cas2Packet id => Sys2Proof.Machine.execCas2Packet id s
  | .enq id => Sys2Proof.Machine.execEnq id s
  | .chase id => Sys2Proof.Machine.execChase id s
  | .withdraw id => Sys2Proof.Machine.execWithdraw id s
  | .data id => Sys2Proof.Machine.execData id s
  | .ack id => Sys2Proof.Machine.execAck id s
  | .nack id => Sys2Proof.Machine.execNack id s
  | .fabricTimeout core tag => Sys2Proof.Machine.execFabricTimeout core tag s
  | .packetDiscard id => Sys2Proof.Machine.execPacketDiscard id s
  | .tagGroupClose port => Sys2Proof.Machine.execTagGroupClose port s
  | .tagFlit port group verified => Sys2Proof.Machine.execTagFlit port group verified s
  | .retransmitRequest port group => Sys2Proof.Machine.execRetransmitRequest port group s
  | .keyload => Sys2Proof.Machine.execKeyload s
  | .partitionDissolve => Sys2Proof.Machine.execPartitionDissolve s
  | .registerWrite off v => Sys2Proof.Machine.execRegisterWrite off v s
  | .rejCounterClear fabric => Sys2Proof.Machine.execRejCounterClear fabric s
  | .domainWrite core v => Sys2Proof.Machine.execDomainWrite core v s
  | .scrubComplete id => Sys2Proof.Machine.execScrubComplete id s
  | .bsplitWrite core v => Sys2Proof.Machine.execBsplitWrite core v s
  | .iterWrite core ctx v => Sys2Proof.Machine.execIterWrite core ctx v s
  | .tshapeWrite core t v => Sys2Proof.Machine.execTshapeWrite core t v s
  | .tsavepWrite v => Sys2Proof.Machine.execTsavepWrite v s
  | .mxstepWrite core v => Sys2Proof.Machine.execMxstepWrite core v s
  | .vcSetMigrated vcid => Sys2Proof.Machine.execVcSetMigrated vcid s
  | .vcOperationComplete vcid => Sys2Proof.Machine.execVcOperationComplete vcid s
  | .vcRetireComplete vcid => Sys2Proof.Machine.execVcRetireComplete vcid s
  | .copyWindow cluster ch => Sys2Proof.Machine.execCopyWindow cluster ch s
  | .copyComplete cluster ch => Sys2Proof.Machine.execCopyComplete cluster ch s
  | .matrixStep core => Sys2Proof.Machine.execMatrixStep core s
  | .mmarCommand id => Sys2Proof.Machine.execMmarCommand id s
  | .handlerMessageDelivery id => Sys2Proof.Machine.execHandlerMessageDelivery id s
  | .directedMessageDelivery id => Sys2Proof.Machine.execDirectedMessageDelivery id s
  | .deposit id => Sys2Proof.Machine.execDeposit id s
  | .depositAnswer id => Sys2Proof.Machine.execDepositAnswer id s
  | .dispatch core => Sys2Proof.Machine.execDispatch core s
  | .dispatchRoundTimer core => Sys2Proof.Machine.execDispatchRoundTimer core s
  | .stealRequest id => Sys2Proof.Machine.execStealRequest id s
  | .stealReply id => Sys2Proof.Machine.execStealReply id s
  | .combiningContribution id => Sys2Proof.Machine.execCombiningContribution id s
  | .combiningTimeout core gid => Sys2Proof.Machine.execCombiningTimeout core gid s
  | .lateCount id => Sys2Proof.Machine.execLateCount id s
  | .cmaxbRelease id => Sys2Proof.Machine.execCmaxbRelease id s
  | .bwaitAnswer id => Sys2Proof.Machine.execBwaitAnswer id s
  | .forwardedArrival id => Sys2Proof.Machine.execForwardedArrival id s
  | .doorbell q v => Sys2Proof.Machine.execDoorbell q v s
  | .ringEntryRead q => Sys2Proof.Machine.execRingEntryRead q s
  | .queueEnable q => Sys2Proof.Machine.execQueueEnable q s
  | .queueDrain q => Sys2Proof.Machine.execQueueDrain q s
  | .queueDisable q => Sys2Proof.Machine.execQueueDisable q s
  | .queueKill q => Sys2Proof.Machine.execQueueKill q s
  | .launchEligible q => Sys2Proof.Machine.execLaunchEligible q s
  | .launchPrepare q resident => Sys2Proof.Machine.execLaunchPrepare q resident s
  | .launchComplete q => Sys2Proof.Machine.execLaunchComplete q s
  | .powerOn calibrated => Sys2Proof.Machine.execPowerOn calibrated s
  | .bootgo imageRead initialised => Sys2Proof.Machine.execBootgo imageRead initialised s
  | .attgo => Sys2Proof.Machine.execAttgo s
  | .gong cluster => Sys2Proof.Machine.execGong cluster s
  | .release cluster => Sys2Proof.Machine.execRelease cluster s
  | .counterClear cluster late => Sys2Proof.Machine.execCounterClear cluster late s
  | .trcdataRead cluster => Sys2Proof.Machine.execTrcdataRead cluster s
  | .traceGap core => Sys2Proof.Machine.execTraceGap core s
  | .powerMeasure watts => Sys2Proof.Machine.execPowerMeasure watts s
  | .thermalLimit die celsius => Sys2Proof.Machine.execThermalLimit die celsius s
  | .writeBack id => Sys2Proof.Machine.execWriteBack id s
  | .hostAcknowledgement id => Sys2Proof.Machine.execHostAcknowledgement id s
  | .adaptiveRoutingReenable port => Sys2Proof.Machine.execAdaptiveRoutingReenable port s

end Sys2Proof.Machine
end

