-- ==== Sys2Proof/Machine/Step.lean ====
section
/-! DEFINITION. One step of the machine, and placing an instruction where the step fetches its next one. -/

namespace Sys2Proof.Machine

/-- One step: the next turn of the agenda. -/
def step (s : State) : Host.Outcome State Fault Refusal :=
  if s.mayRun then
    match s.nextTurn with
    | .idle t => .next t
    | .go i t => match exec i t with
      | .next u => .next (if i.encoded then u.noteIssue t else u)
      | o => o
  else .fault .moduleStopped

/-- s with the word in the TCM of core 255 at offset 0x40, where context 0 of that service core, READY in supervisor mode,
is the next to issue. It stands for the firmware that loads a program (assumption 10, DESIGN CHOICE, safe). -/
def State.withFetchWord (s : State) (_nbits w : Nat) : State :=
  let t := { s with agenda := [], curCore := 255, curCtx := 0, dev := { s.dev with stopped := false } }
  let t := t.modCore 255 fun k => { k with tcm := k.tcm.write 64 (w % 2 ^ 32) 4, scrubbing := none, depAt := none, moving := false }
  let t := t.modDbg 0 fun d => { d with bken := false }
  t.modCtx 255 0 fun y => { y with
    st := .ready
    mode := .supervisor
    pc := 0x80000000000040
    wait := .none
    rep := none
    fetched := [] }

end Sys2Proof.Machine
end

