-- ==== Sys2Proof/Safety.lean ====
section
/-! DEFINITION. What counts as a safe run, and the terms the statements use: bytes of storage, canonical memory, what an
instruction leaves unchanged, and results. -/

namespace Sys2Proof.Machine

/-- Every storage of a state is in canonical form. -/
def State.memOk (s : State) : Prop :=
  s.hbm.wf ∧ s.hostMem.wf ∧ s.dev.attNonce.wf ∧ s.dev.report.wf ∧ s.dev.keyBlock.wf ∧
    ∀ p ∈ s.cores, p.2.tcm.wf ∧ p.2.scratch.wf

/-- A step that does not stop the machine. -/
def Completes (s : State) : Prop := ∃ t, step s = .next t

/-- Where a byte of memory stands: HBM, the host window, a core's TCM or its bank scratch (01 R19, R22, R27). Lines of virtual
caches and copies in L1s hold bytes of HBM as well; the frames speak of those by name. -/
inductive ByteAt where
  | hbm (a : Nat)
  | host (a : Nat)
  | tcm (core off : Nat)
  | scratch (core off : Nat)
  deriving DecidableEq, Repr

/-- One byte of memory. -/
def State.byteAt (s : State) (p : ByteAt) : Byte :=
  match p with
  | .hbm a => s.hbm.byte a
  | .host a => s.hostMem.byte a
  | .tcm c o => (s.core c).tcm.byte o
  | .scratch c o => (s.core c).scratch.byte o

/-- Every byte of memory reads as before, but those of a set. -/
def State.SameBytes (s t : State) (stored : ByteAt → Prop) : Prop := ∀ p, ¬ stored p → t.byteAt p = s.byteAt p

/-- The n bytes at an offset of a unit as accesses under a key find them at its home, as one little-endian number (05 R116, 04 R84). -/
def State.homeBytes (s : State) (vcid key u off n : Nat) : Nat := unitGet ((s.peekVc vcid u none).under key).data off n
/-- A unit's home takes a write where it stands: its cache is not RO, its line is there, or none comes for a write (the record holds no lines,
or its policy is NA), and no bounded load waits for the unit (05 R118, R119, 06 R150). -/
structure State.HomeReady (s : State) (vcid u : Nat) : Prop where
  policy : (s.spot vcid u none).geo.policy ≠ 3
  line : (s.vline? vcid (s.spot vcid u none)).isSome ∨ (s.cdr vcid).state ≤ 1 ∨ (s.spot vcid u none).geo.policy = 2
  waiters : ∀ w ∈ s.stWaiters, w.unit ≠ homeKey vcid u

/-- The same context issues, and it is as it was: what the checks of an instruction keep. -/
def State.SameIssuer (s u : State) : Prop := u.me = s.me ∧ u.curCore = s.curCore ∧ u.curCtx = s.curCtx

/-- A marker that takes no pending trap (03 R65, 06 R153): what a pending trap does is a statement of its own. -/
def State.NoTrapDue (s : State) (m : Bool) : Prop := m = true → s.me.ptrap = none

/-- Nothing of t differs from s but the issuing core. -/
structure State.OnlyMine (s t : State) : Prop where
  rest : t = { s with cores := t.cores }
  others : ∀ c, c ≠ s.curCore → t.core c = s.core c

/-- Nothing of t differs from s but the issuing context. -/
structure State.OnlyMe (s t : State) : Prop extends State.OnlyMine s t where
  core : t.mine = { s.mine with ctxs := t.mine.ctxs }
  contexts : ∀ x, x ≠ s.curCtx → t.ctx s.curCore x = s.ctx s.curCore x

/-- The fields of a context that completing an instruction moves: position, state, the repetition in progress and what a waiting
instruction has kept. -/
def Ctx.At (y : Ctx) (z : Ctx) : Ctx :=
  { y with pc := z.pc, seq := z.seq, st := z.st, wait := z.wait, stepOver := z.stepOver, rep := z.rep, kept := z.kept }

/-- The frame of an instruction that writes one scalar register (10 R213): no other register of the context, no other context,
no other core, no special register, no byte of memory. -/
structure State.ScalarFrame (s t : State) (d : RegDst) : Prop extends State.OnlyMine s t where
  core : t.mine = { s.mine with ctxs := t.mine.ctxs, ram := t.mine.ram }
  contexts : ∀ x, x ≠ s.curCtx → t.ctx s.curCore x = s.ctx s.curCore x
  me : t.me = { s.me.At t.me with globs := t.me.globs }
  registers : ∀ e, e ≠ d → t.readDst s.curCore s.curCtx e = s.readDst s.curCore s.curCtx e
  memory : s.SameBytes t fun _ => False

/-- The position after an instruction that does not transfer control (10 R227), and the marker's park (03 R65): parked
exactly when a result is outstanding. -/
structure State.Advanced (s t : State) (m : Bool) : Prop where
  pc : t.me.pc = s.me.advance.pc
  rep : t.me.rep = s.me.advance.rep
  st : t.me.st = if m ∧ t.mine.resultsOut s.curCtx then .parked else .ready

/-- Where P holds, instruction i writes v to the scalar register that field d names at issue, at once, and nothing else; the
value of x0 is discarded (10 R213, 03 R66). -/
def ScalarResultIf (P : State → Prop) (i : Instr) (m : Bool) (d : BitVec 5) (v : State → Word) : Prop :=
  ∀ s : State, P s → s.NoTrapDue m → ∃ t, exec i s = .next t ∧ s.ScalarFrame t (s.dst d) ∧ s.Advanced t m ∧
    t.readDst s.curCore s.curCtx (s.dst d) = if s.dst d = .none then 0 else v s
/-- The same in every state. -/
def ScalarResult (i : Instr) (m : Bool) (d : BitVec 5) (v : State → Word) : Prop := ScalarResultIf (fun _ => True) i m d v

/-- The frame of an instruction that writes vector register d of its context. -/
structure State.VectorFrame (s t : State) (d : BitVec 5) : Prop extends State.OnlyMe s t where
  me : t.me = { s.me.At t.me with vecs := t.me.vecs }
  registers : ∀ v, v ≠ d.toNat → t.me.vec v = s.me.vec v
  memory : s.SameBytes t fun _ => False

/-- Instruction i writes v to vector register d at once, and nothing else (12 R246, 03 R66). -/
def VectorResult (i : Instr) (m : Bool) (d : BitVec 5) (v : State → Vec → Prop) : Prop :=
  ∀ s : State, s.NoTrapDue m → ∃ t, exec i s = .next t ∧ s.VectorFrame t d ∧ s.Advanced t m ∧ v s (t.me.vec d.toNat)

/-- The frame of an instruction that writes mask register k of its context; k0 is hard-wired (10 R230). -/
structure State.MaskFrame (s t : State) (k : BitVec 3) : Prop extends State.OnlyMe s t where
  me : t.me = { s.me.At t.me with masks := t.me.masks }
  registers : ∀ j, j ≠ k.toNat → t.me.mask j = s.me.mask j
  memory : s.SameBytes t fun _ => False

/-- Instruction i writes v to mask register k at once, and nothing else; a write to k0 is discarded (10 R230). -/
def MaskResult (i : Instr) (m : Bool) (k : BitVec 3) (v : State → Word) : Prop :=
  ∀ s : State, s.NoTrapDue m → ∃ t, exec i s = .next t ∧ s.MaskFrame t k ∧ s.Advanced t m ∧
    t.me.mask k.toNat = if k = 0 then BitVec.allOnes 64 else v s

/-- An instruction that only moves on: nothing changes but the issuing context's position. -/
structure State.Moves (s t : State) : Prop extends State.OnlyMe s t where
  me : t.me = s.me.At t.me
  memory : s.SameBytes t fun _ => False

/-- Every scalar register of the issuing context reads as before. -/
def State.SameRegisters (s t : State) : Prop :=
  ∀ e, t.readDst s.curCore s.curCtx e = s.readDst s.curCore s.curCtx e

/-- The issuing context went to a target, parked when the marker finds a result outstanding; what it had fetched ahead is
discarded (01 R438). -/
structure State.Arrives (s t : State) (m : Bool) (target : Addr) : Prop where
  pc : t.me.pc = target
  rep : t.me.rep = s.me.rep
  st : t.me.st = if m ∧ t.mine.resultsOut s.curCtx then .parked else .ready
  fetched : t.me.fetched = []

/-- A transfer of control that writes no register. -/
structure State.Jumps (s t : State) (m : Bool) (target : Addr) : Prop extends State.OnlyMe s t, State.Arrives s t m target where
  me : t.me = { s.me.At t.me with fetched := [] }
  memory : s.SameBytes t fun _ => False

/-- A transfer of control that leaves the return address in register d and writes no other. -/
structure State.Links (s t : State) (m : Bool) (target : Addr) (d : RegDst) : Prop
    extends State.OnlyMine s t, State.Arrives s t m target where
  core : t.mine = { s.mine with ctxs := t.mine.ctxs, ram := t.mine.ram }
  contexts : ∀ x, x ≠ s.curCtx → t.ctx s.curCore x = s.ctx s.curCore x
  me : t.me = { s.me.At t.me with globs := t.me.globs, fetched := [] }
  link : t.readDst s.curCore s.curCtx d = if d = .none then 0 else (s.me.pc + 4).setWidth 64
  registers : ∀ e, e ≠ d → t.readDst s.curCore s.curCtx e = s.readDst s.curCore s.curCtx e
  memory : s.SameBytes t fun _ => False

/-- A call or return: BASE becomes an entry, and nothing else of the context but its position changes; the register RAM is the
statement's own. -/
structure State.Calls (s t : State) (m : Bool) (target : Addr) (base : Nat) : Prop
    extends State.OnlyMine s t, State.Arrives s t m target where
  core : t.mine = { s.mine with ctxs := t.mine.ctxs, ram := t.mine.ram }
  contexts : ∀ x, x ≠ s.curCtx → t.ctx s.curCore x = s.ctx s.curCore x
  me : t.me = { s.me.At t.me with base := BitVec.ofNat 12 base, fetched := [] }
  memory : s.SameBytes t fun _ => False

/-- n bytes at va are the TCM bytes from off on, naturally aligned (01 R19, 08 R173). -/
structure TcmAddr (va : Addr) (off n : Nat) : Prop where
  va : va.toNat = 2 ^ 55 + off
  top : off + n ≤ 0x10000
  aligned : off % n = 0

/-- No watchpoint matches the access (24 R420), and no acquire of the context is left to perform (07 R161). -/
structure State.AccessFree (s : State) (va : Addr) (n : Nat) (rd wr : Bool) : Prop where
  watch : s.watchHit va n rd wr = none
  acquires : ∀ o ∈ s.mine.opsOf s.curCtx, o.acquire = true → o.allDone = true

/-- What a release waits for has happened: every earlier access of the context has performed at dev scope, but for UNTRACKED words that the
L1 still holds (07 R161, log entry 55). -/
def State.Released (s : State) : Prop := s.releasable s.curCore s.curCtx = true
/-- Every earlier access of the context has performed at dev scope, as fence.dev.all waits for (07 R159, R172). -/
def State.Settled (s : State) : Prop := s.accessesDone s.curCore s.curCtx = true
/-- Every earlier release of the context has performed, as an acquire waits for (07 R161). -/
def State.AfterReleases (s : State) : Prop := s.performedAll s.curCore s.curCtx Op.isRelease false = true

/-- A performed lane that read n bytes of the TCM of the issuing core. -/
def State.tcmLane (s : State) (ix : Nat) (va : Addr) (n off : Nat) : Lane :=
  { ix := ix, va := va, n := n, place := .tcm s.curCore off, op := .read, done := true,
    data := BitVec.ofNat 512 (s.mine.tcm.read off n), age := none, srcs := [] }

/-- The frame of a read that has performed and whose result is still to be written back (03 R66): the operation o stands among
the core's, and no register and no byte of memory has changed. -/
structure State.ReadIssued (s t : State) (o : Op) : Prop where
  rest : t = { s with cores := t.cores, nextId := s.nextId + 1 }
  others : ∀ c, c ≠ s.curCore → t.core c = s.core c
  core : t.mine = { s.mine with ctxs := t.mine.ctxs, ops := s.mine.ops ++ [o] }
  contexts : ∀ x, x ≠ s.curCtx → t.ctx s.curCore x = s.ctx s.curCore x
  me : t.me = s.me.At t.me
  memory : s.SameBytes t fun _ => False
  op : o.id = s.nextId ∧ o.ctx = s.curCtx ∧ o.pc = s.me.pc ∧ o.fault = none ∧ o.lagTrap = false ∧ o.isLoad = true

/-- Where P holds, instruction i reads the TCM lanes `lanes` and leaves the operation that writes `fin` later. -/
def TcmLoad (P : State → Prop) (i : Instr) (m : Bool) (fin : State → Fin) (lanes : State → List Lane) : Prop :=
  ∀ s : State, P s → s.NoTrapDue m → ∃ t o, exec i s = .next t ∧ s.ReadIssued t o ∧ s.Advanced t m ∧ o.fin = fin s ∧
    o.lanes = lanes s

/-- The frame of a store into the TCM of the issuing core: nothing changes but the bytes stored and the position. -/
structure State.StoreFrame (s t : State) (stored : ByteAt → Prop) : Prop extends State.OnlyMine s t where
  core : t.mine = { s.mine with ctxs := t.mine.ctxs, tcm := t.mine.tcm }
  contexts : ∀ x, x ≠ s.curCtx → t.ctx s.curCore x = s.ctx s.curCore x
  me : t.me = s.me.At t.me
  memory : s.SameBytes t stored
  form : s.mine.tcm.wf = true → t.mine.tcm.wf = true

/-- Where P holds, instruction i stores the low n bytes of v at TCM offset `off`, at once, little-endian, and nothing else. -/
def TcmStore (P : State → Prop) (i : Instr) (m : Bool) (off : State → Nat) (n : Nat) (v : State → Nat) : Prop :=
  ∀ s : State, P s → s.NoTrapDue m → ∃ t, exec i s = .next t ∧
    s.StoreFrame t (fun p => ∃ j, j < n ∧ p = .tcm s.curCore (off s + j)) ∧ s.Advanced t m ∧
    ∀ j, j < n → t.byteAt (.tcm s.curCore (off s + j)) = BitVec.ofNat 8 (v s / 256 ^ j)

end Sys2Proof.Machine
end

