-- ==== Sys2Proof/Certificates/Slice0/Obligations.lean ====
section
/-! DEFINITION. The statements for the provers. Each docstring names the rules of spec/ it formalises. A statement about an
instruction says that `exec` answers a next state, what that state holds, and what it leaves (its frame); the frames and
results are the terms of `Sys2Proof/Safety.lean`. -/

open Sys2Proof
open Sys2Proof.Machine

/-! ### Scalar instructions (11 R233 to R241) -/

/-- 11 R234: the register forms. Each writes d as the table says, for every operand, d = x0 and d equal to a source among them; nothing else
changes. -/
def Parts.IntegerRegisterResults : Prop :=
  ∀ (m : Bool) (d a b : BitVec 5),
    ScalarResult (.add m d a b) m d (fun s => BitVec.ofNat 64 ((s.reg a).toNat + (s.reg b).toNat)) ∧
    ScalarResult (.sub m d a b) m d (fun s => BitVec.ofInt 64 ((s.reg a).toInt - (s.reg b).toInt)) ∧
    ScalarResult (.and m d a b) m d (fun s => s.reg a &&& s.reg b) ∧
    ScalarResult (.or m d a b) m d (fun s => s.reg a ||| s.reg b) ∧
    ScalarResult (.xor m d a b) m d (fun s => s.reg a ^^^ s.reg b) ∧
    ScalarResult (.andn m d a b) m d (fun s => s.reg a &&& ~~~(s.reg b)) ∧
    ScalarResult (.orn m d a b) m d (fun s => s.reg a ||| ~~~(s.reg b)) ∧
    ScalarResult (.sll m d a b) m d (fun s => BitVec.ofNat 64 ((s.reg a).toNat * 2 ^ ((s.reg b).toNat % 64))) ∧
    ScalarResult (.srl m d a b) m d (fun s => BitVec.ofNat 64 ((s.reg a).toNat / 2 ^ ((s.reg b).toNat % 64))) ∧
    ScalarResult (.sra m d a b) m d (fun s => BitVec.ofInt 64 ((s.reg a).toInt / 2 ^ ((s.reg b).toNat % 64))) ∧
    ScalarResult (.rol m d a b) m d (fun s => (s.reg a).rotateLeft ((s.reg b).toNat % 64)) ∧
    ScalarResult (.ror m d a b) m d (fun s => (s.reg a).rotateRight ((s.reg b).toNat % 64)) ∧
    ScalarResult (.slt m d a b) m d (fun s => if (s.reg a).toInt < (s.reg b).toInt then 1 else 0) ∧
    ScalarResult (.sltu m d a b) m d (fun s => if (s.reg a).toNat < (s.reg b).toNat then 1 else 0) ∧
    ScalarResult (.min m d a b) m d (fun s => BitVec.ofInt 64 (min (s.reg a).toInt (s.reg b).toInt)) ∧
    ScalarResult (.max m d a b) m d (fun s => BitVec.ofInt 64 (max (s.reg a).toInt (s.reg b).toInt)) ∧
    ScalarResult (.minu m d a b) m d (fun s => BitVec.ofNat 64 (min (s.reg a).toNat (s.reg b).toNat)) ∧
    ScalarResult (.maxu m d a b) m d (fun s => BitVec.ofNat 64 (max (s.reg a).toNat (s.reg b).toNat))

/-- 11 R234: the unary forms. clz and ctz are said by the bit they find; 64 for a zero operand. -/
def Parts.IntegerUnaryResults : Prop :=
  ∀ (m : Bool) (d a : BitVec 5),
    (∃ n : Word → Nat, ScalarResult (.clz m d a) m d (fun s => BitVec.ofNat 64 (n (s.reg a))) ∧ n 0 = 64 ∧
      ∀ x, x ≠ 0 → n x < 64 ∧ x.getLsbD (63 - n x) = true ∧ ∀ i, 63 - n x < i → x.getLsbD i = false) ∧
    (∃ n : Word → Nat, ScalarResult (.ctz m d a) m d (fun s => BitVec.ofNat 64 (n (s.reg a))) ∧ n 0 = 64 ∧
      ∀ x, x ≠ 0 → n x < 64 ∧ x.getLsbD (n x) = true ∧ ∀ i, i < n x → x.getLsbD i = false) ∧
    ScalarResult (.popc m d a) m d (fun s =>
      BitVec.ofNat 64 ((List.range 64).filter (fun i => (s.reg a).getLsbD i)).length) ∧
    (∃ f : Word → Word, ScalarResult (.bswap m d a) m d (fun s => f (s.reg a)) ∧
      ∀ x i, i < 8 → (f x).extractLsb' (8 * i) 8 = x.extractLsb' (8 * (7 - i)) 8) ∧
    ScalarResult (.sextB m d a) m d (fun s => BitVec.ofInt 64 ((s.reg a).setWidth 8).toInt) ∧
    ScalarResult (.sextH m d a) m d (fun s => BitVec.ofInt 64 ((s.reg a).setWidth 16).toInt) ∧
    ScalarResult (.sextW m d a) m d (fun s => BitVec.ofInt 64 ((s.reg a).setWidth 32).toInt) ∧
    ScalarResult (.zextB m d a) m d (fun s => BitVec.ofNat 64 ((s.reg a).toNat % 2 ^ 8)) ∧
    ScalarResult (.zextH m d a) m d (fun s => BitVec.ofNat 64 ((s.reg a).toNat % 2 ^ 16)) ∧
    ScalarResult (.zextW m d a) m d (fun s => BitVec.ofNat 64 ((s.reg a).toNat % 2 ^ 32))

/-- 11 R235: the immediate forms and the shifts by a constant. -/
def Parts.IntegerImmediateResults : Prop :=
  ∀ (m : Bool) (d a : BitVec 5) (i : BitVec 15) (n : BitVec 6),
    ScalarResult (.addi m d a i) m d (fun s => BitVec.ofInt 64 ((s.reg a).toInt + i.toInt)) ∧
    ScalarResult (.andi m d a i) m d (fun s => s.reg a &&& BitVec.ofInt 64 i.toInt) ∧
    ScalarResult (.ori m d a i) m d (fun s => s.reg a ||| BitVec.ofInt 64 i.toInt) ∧
    ScalarResult (.xori m d a i) m d (fun s => s.reg a ^^^ BitVec.ofInt 64 i.toInt) ∧
    ScalarResult (.slti m d a i) m d (fun s => if (s.reg a).toInt < i.toInt then 1 else 0) ∧
    ScalarResult (.sltiu m d a i) m d (fun s => if (s.reg a).toNat < (BitVec.ofInt 64 i.toInt).toNat then 1 else 0) ∧
    ScalarResult (.slli m d a n) m d (fun s => BitVec.ofNat 64 ((s.reg a).toNat * 2 ^ n.toNat)) ∧
    ScalarResult (.srli m d a n) m d (fun s => BitVec.ofNat 64 ((s.reg a).toNat / 2 ^ n.toNat)) ∧
    ScalarResult (.srai m d a n) m d (fun s => BitVec.ofInt 64 ((s.reg a).toInt / 2 ^ n.toNat))

/-- 11 R236: lui and lua, format U under majors 0x09 and 0x0A: lui gives its field, shifted up by 12, sign-extended from bit 31; lua shifts
d up by 20 and puts its field below, d being read at issue; with d = x0 nothing is written. -/
def Obligations.Constants : Prop :=
  ∀ (m : Bool) (d : BitVec 5) (u : BitVec 20),
    decode (BitVec.ofNat 32 (m.toNat * 2 ^ 31 + 0x09 * 2 ^ 25 + d.toNat * 2 ^ 20 + u.toNat)) = .ok (.lui m d u) ∧
    decode (BitVec.ofNat 32 (m.toNat * 2 ^ 31 + 0x0A * 2 ^ 25 + d.toNat * 2 ^ 20 + u.toNat)) = .ok (.lua m d u) ∧
    ScalarResult (.lui m d u) m d (fun _ => BitVec.ofInt 64 (u.toInt * 4096)) ∧
    ScalarResult (.lua m d u) m d (fun s => BitVec.ofNat 64 ((s.reg d).toNat * 2 ^ 20 + u.toNat))

/-- 11 R238: the products, from the exact product of the operands. -/
def Parts.MultiplyResults : Prop :=
  ∀ (m : Bool) (d a b : BitVec 5),
    ScalarResult (.mull m d a b) m d (fun s => BitVec.ofInt 64 ((s.reg a).toInt * (s.reg b).toInt)) ∧
    ScalarResult (.mulhs m d a b) m d (fun s => BitVec.ofInt 64 ((s.reg a).toInt * (s.reg b).toInt / 2 ^ 64)) ∧
    ScalarResult (.mulhz m d a b) m d (fun s => BitVec.ofNat 64 ((s.reg a).toNat * (s.reg b).toNat / 2 ^ 64)) ∧
    ScalarResult (.mulhsz m d a b) m d (fun s => BitVec.ofInt 64 ((s.reg a).toInt * (s.reg b).toNat / 2 ^ 64))

/-- Scalar results (11 R234, R235, R238). -/
def Obligations.ScalarResults : Prop := Parts.IntegerRegisterResults ∧ Parts.IntegerUnaryResults ∧ Parts.IntegerImmediateResults ∧ Parts.MultiplyResults

/-- What a division writes (11 R238): the quotient toward zero with its two corners, and the remainder with the sign of the
dividend. -/
def divisionResult (signed rem : Bool) (a b : Word) : Word :=
  if signed then
    if rem then (if b = 0 then a else BitVec.ofInt 64 (a.toInt.tmod b.toInt))
    else if b = 0 then (if a.toInt < 0 then BitVec.ofInt 64 (-2 ^ 63) else BitVec.ofInt 64 (2 ^ 63 - 1))
    else if a.toInt = -2 ^ 63 ∧ b.toInt = -1 then BitVec.ofInt 64 (2 ^ 63 - 1)
    else BitVec.ofInt 64 (a.toInt.tdiv b.toInt)
  else
    if rem then (if b = 0 then a else BitVec.ofNat 64 (a.toNat % b.toNat))
    else if b = 0 then BitVec.ofNat 64 (2 ^ 64 - 1) else BitVec.ofNat 64 (a.toNat / b.toNat)

/-- 11 R238, R239: a division of an idle divider starts: its operation holds the result and the register that d names now, the divider is
taken, and no register changes; a busy divider holds the context at the instruction. DIVIDE_COMPLETE, 20 cycles later, writes that register,
frees the divider and removes the operation. -/
def Obligations.Division : Prop :=
  (∀ (m : Bool) (d a b : BitVec 5) (i : Instr) (sg rm : Bool),
    (i, sg, rm) ∈ [(Instr.divq m d a b, true, false), (.divqz m d a b, false, false), (.divr m d a b, true, true),
      (.divrz m d a b, false, true)] →
    ∀ s : State,
      (s.mine.divider = none → exec i s = .next (((s.addOp s.curCore { s.newOp with
          fin := .ready [.scalar (s.dst d) (divisionResult sg rm (s.reg a) (s.reg b))]
          due := some (s.clock + 20) }).modCore s.curCore fun k => { k with divider := some s.nextId }).retire m)) ∧
      (s.mine.divider.isSome → ∃ t, exec i s = .next t ∧ s.Moves t ∧ t.me.st = .held ∧ t.me.pc = s.me.pc ∧
        t.me.seq = s.me.seq)) ∧
  (∀ (s : State) (c id : Nat) (o : Op) (d : RegDst) (w : Word), (s.core c).divider = some id → (s.core c).op? id = some o →
    o.fin = .ready [.scalar d w] → (∀ n, o.due = some n → n ≤ s.clock) → (s.ctx c o.ctx).wait = .none → (s.core c).depAt ≠ some s.clock →
    ∃ t, exec (.divideComplete c) s = .next t ∧ t.readDst c o.ctx d = (if d = .none then 0 else w) ∧
      (t.core c).divider = none ∧ (t.core c).ops = dropFirst (fun p => p.id == id) (s.core c).ops ∧
      (∀ e, e ≠ d → t.readDst c o.ctx e = s.readDst c o.ctx e) ∧ (∀ p, t.byteAt p = s.byteAt p) ∧
      (∀ x, x ≠ o.ctx → t.ctx c x = s.ctx c x) ∧ (∀ k, k ≠ c → t.core k = s.core k) ∧ t = { s with cores := t.cores })

/-- 11 R240: the pointer instructions. VA arithmetic is modulo 2^56 and the top byte rides along. -/
def Parts.PointerResults : Prop :=
  ∀ (m : Bool) (d a b : BitVec 5) (i : BitVec 14),
    ScalarResult (.padd m d a b) m d (fun s => BitVec.ofNat 64
      ((s.reg a).toNat / 2 ^ 56 * 2 ^ 56 + ((s.reg a).toNat + (s.reg b).toNat) % 2 ^ 56)) ∧
    ScalarResult (.paddi m d a i) m d (fun s => BitVec.ofNat 64
      ((s.reg a).toNat / 2 ^ 56 * 2 ^ 56 + (BitVec.ofInt 56 ((s.reg a).toNat + i.toInt)).toNat)) ∧
    ScalarResult (.pfmt m d a b) m d (fun s => BitVec.ofNat 64
      ((s.reg b).toNat % 256 * 2 ^ 56 + (s.reg a).toNat % 2 ^ 56)) ∧
    ScalarResult (.pget m d a) m d (fun s => BitVec.ofNat 64 ((s.reg a).toNat / 2 ^ 56)) ∧
    ScalarResult (.pstrip m d a) m d (fun s => BitVec.ofNat 64 ((s.reg a).toNat % 2 ^ 56))

/-- 11 R241: pidx. A pointer whose format and block code agree advances by the element count b: whole elements of an unblocked format, whole
blocks of a blocked one, where a count that is no multiple of the block faults MISALIGN; any other pointer faults ILLEGAL with the word in
INFO. -/
def Parts.PointerIndex : Prop :=
  ∀ (m : Bool) (d a b : BitVec 5),
    (∀ off : Nat → Int → Int, (∀ f k, off f k = if f < 11 then k * elemBytes f else k / blockElems f * blockBytes f) →
      ScalarResultIf (fun s => fmtCheckFails (ptrFmt (s.reg a)) (ptrBlog (s.reg a)) = false ∧
          (11 ≤ ptrFmt (s.reg a) → (s.reg b).toInt % blockElems (ptrFmt (s.reg a)) = 0)) (.pidx m d a b) m d fun s =>
        BitVec.ofNat 64 ((s.reg a).toNat / 2 ^ 56 * 2 ^ 56 +
          (BitVec.ofInt 56 ((s.reg a).toNat + off (ptrFmt (s.reg a)) (s.reg b).toInt)).toNat)) ∧
    (∀ s : State, fmtCheckFails (ptrFmt (s.reg a)) (ptrBlog (s.reg a)) = true → exec (.pidx m d a b) s =
      .next (s.faultHere { cause := .illegal, info := encodeWord (.pidx m d a b), addr := 0, undeliv := false })) ∧
    (∀ s : State, fmtCheckFails (ptrFmt (s.reg a)) (ptrBlog (s.reg a)) = false → 11 ≤ ptrFmt (s.reg a) →
      (s.reg b).toInt % blockElems (ptrFmt (s.reg a)) ≠ 0 → exec (.pidx m d a b) s =
        .next (s.faultHere { cause := .misalign, info := 0, addr := 0, undeliv := false }))

/-- The pointer instructions (11 R240, R241). It rests on the model's own choice in log entry 43. -/
def Obligations.PointerInstructions : Prop := Parts.PointerResults ∧ Parts.PointerIndex

/-! ### Transfer of control (11 R242, R243, 10 R217 to R221) -/

/-- 11 R242: the conditional branches, format B under majors 0x10 to 0x15. A branch goes to PC + 4·offset modulo 2^56 exactly when its
comparison of all 64 bits holds, and to PC + 4 otherwise; it writes no register. In a repetition body it takes REP_FAULT (10 R228). -/
def Obligations.Branches : Prop :=
  ∀ (m : Bool) (a b : BitVec 5) (o : BitVec 15) (i : Instr) (n : Nat) (c : Word → Word → Bool),
    (i, n, c) ∈ [(Instr.beq m a b o, 0x10, fun x y => decide (x = y)), (.bne m a b o, 0x11, fun x y => decide (x ≠ y)),
      (.blt m a b o, 0x12, fun x y => decide (x.toInt < y.toInt)), (.bge m a b o, 0x13, fun x y => decide (y.toInt ≤ x.toInt)),
      (.bltu m a b o, 0x14, fun x y => decide (x.toNat < y.toNat)), (.bgeu m a b o, 0x15, fun x y => decide (y.toNat ≤ x.toNat))] →
    decode (BitVec.ofNat 32 (m.toNat * 2 ^ 31 + n * 2 ^ 25 + a.toNat * 2 ^ 20 + b.toNat * 2 ^ 15 + o.toNat)) = .ok i ∧
    ∀ s : State, s.NoTrapDue m →
      (s.me.rep = none → c (s.reg a) (s.reg b) = true → ∃ t, exec i s = .next t ∧
        s.Jumps t m (s.me.pc + BitVec.ofInt 56 (4 * o.toInt)) ∧ s.SameRegisters t) ∧
      (s.me.rep = none → c (s.reg a) (s.reg b) = false → ∃ t, exec i s = .next t ∧ s.Moves t ∧ s.Advanced t m ∧
        t.me.pc = s.me.pc + 4 ∧ s.SameRegisters t) ∧
      (s.me.rep ≠ none → exec i s = .next (s.localTrap s.curCore s.curCtx
        { code := 5, epc := s.me.pc, einfo := 0, wpend := 0 }))

/-- 11 R243: j and jl go to PC + 4·offset, jr and jlr to the address in a; jl leaves the return address in o7 and jlr in d (a is read
first), and no other register changes. A target that is no multiple of 4 faults MISALIGN at the jump (03 R62). -/
def Parts.Jumps : Prop :=
  ∀ (m : Bool) (d a : BitVec 5) (o : BitVec 25) (s : State), s.NoTrapDue m → s.me.rep = none →
    (∃ t, exec (.j m o) s = .next t ∧ s.Jumps t m (s.me.pc + BitVec.ofInt 56 (4 * o.toInt)) ∧ s.SameRegisters t) ∧
    (∃ t, exec (.jl m o) s = .next t ∧ s.Links t m (s.me.pc + BitVec.ofInt 56 (4 * o.toInt)) (s.me.dstOf 31)) ∧
    ((s.reg a).toNat % 4 = 0 →
      (∃ t, exec (.jr m a) s = .next t ∧ s.Jumps t m (BitVec.ofNat 56 (s.reg a).toNat) ∧ s.SameRegisters t) ∧
      (∃ t, exec (.jlr m d a) s = .next t ∧ s.Links t m (BitVec.ofNat 56 (s.reg a).toNat) (s.dst d))) ∧
    ((s.reg a).toNat % 4 ≠ 0 → ∀ i ∈ [Instr.jr m a, .jlr m d a], exec i s = .next (s.faultHere
      { cause := .misalign, info := 0, addr := BitVec.ofNat 56 (s.reg a).toNat, undeliv := false }))

/-- The ring of a context keeps 10 R215. -/
def ringOk (y : Ctx) : Prop := (y.rshi.toNat : Int) - y.rslo.toNat ≥ 40 ∧ ((y.rshi.toNat : Int) - y.rslo.toNat) % 8 = 0

/-- 10 R218: call, callr and ret with room in the ring and an aligned target. BASE moves by 16 entries around the ring and no other field of
WB does; call and callr leave PC + 4 in l7 of the new frame, whose entry is 15 from the new BASE, and write no other register RAM entry; ret
goes to the address in l7 of the frame it leaves and writes none. -/
def Parts.CallsAndReturns : Prop :=
  ∀ (m : Bool) (a : BitVec 5) (o : BitVec 24) (s : State), s.NoTrapDue m → s.me.rep = none → ringOk s.me → s.me.rshi.toNat ≤ 4096 →
    (∀ (i : Instr) (target : Addr),
      (i, target) ∈ [(Instr.call m o, s.me.pc + BitVec.ofInt 56 (4 * o.toInt)), (.callr m a, BitVec.ofNat 56 (s.reg a).toNat)] →
      target.toNat % 4 = 0 → ((s.me.base.toNat : Int) - s.me.low.toNat) % s.me.ringN + 40 ≤ s.me.ringN →
      ∃ t, exec i s = .next t ∧ s.Calls t m target
        (((s.me.base.toNat : Int) - s.me.rslo.toNat + 16) % s.me.ringN + s.me.rslo.toNat).toNat ∧
        (∀ e, tget t.mine.ram e 0 = if e = (((s.me.base.toNat : Int) - s.me.rslo.toNat + 31) % s.me.ringN + s.me.rslo.toNat).toNat % 4096
          then (s.me.pc + 4).setWidth 64 else tget s.mine.ram e 0)) ∧
    ((s.regOf s.curCore s.curCtx 23).toNat % 4 = 0 → s.me.base ≠ s.me.low →
      ∃ t, exec (.ret m) s = .next t ∧ s.Calls t m (BitVec.ofNat 56 (s.regOf s.curCore s.curCtx 23).toNat)
        (((s.me.base.toNat : Int) - s.me.rslo.toNat - 16) % s.me.ringN + s.me.rslo.toNat).toNat ∧
        t.mine.ram = s.mine.ram)

/-- 10 R218, R219: a call without room takes WIN_SPILL with the oldest entry, a ret of the oldest frame takes WIN_FILL with the 16 entries
below it; in a ring that breaks R215 call, callr and ret take the same trap with EINFO[63] set and WPEND left at 0. EPC is the instruction's
own address. -/
def Parts.WindowTraps : Prop :=
  ∀ (m : Bool) (a : BitVec 5) (o : BitVec 24) (s : State), s.me.rep = none →
    (ringOk s.me → s.me.ringN < ((s.me.base.toNat : Int) - s.me.low.toNat) % s.me.ringN + 40 →
      (s.me.pc.toNat % 4 = 0 → exec (.call m o) s = .next (s.localTrap s.curCore s.curCtx
        { code := 1, epc := s.me.pc, einfo := s.me.low.setWidth 64, wpend := 1 })) ∧
      ((s.reg a).toNat % 4 = 0 → exec (.callr m a) s = .next (s.localTrap s.curCore s.curCtx
        { code := 1, epc := s.me.pc, einfo := s.me.low.setWidth 64, wpend := 1 }))) ∧
    (ringOk s.me → (s.regOf s.curCore s.curCtx 23).toNat % 4 = 0 → s.me.base = s.me.low →
      exec (.ret m) s = .next (s.localTrap s.curCore s.curCtx
        { code := 2, epc := s.me.pc, wpend := 2,
          einfo := BitVec.ofNat 64 ((((s.me.low.toNat : Int) - s.me.rslo.toNat - 16) % s.me.ringN + s.me.rslo.toNat).toNat % 4096) })) ∧
    (¬ ringOk s.me → ∀ (i : Instr) (k : BitVec 8) (target : Nat),
      (i, k, target) ∈ [(Instr.call m o, 1, s.me.pc.toNat), (.callr m a, 1, (s.reg a).toNat), (.ret m, 2, (s.regOf s.curCore s.curCtx 23).toNat)] →
      target % 4 = 0 → ∃ e : Nat, e < 4096 ∧ exec i s = .next (({ s with nextId := s.nextId + 1 } : State).localTrap s.curCore s.curCtx
        { code := k, epc := s.me.pc, einfo := BitVec.ofNat 64 (2 ^ 63 + e), wpend := 0 }))

/-- Jumps, calls and returns (11 R243, 10 R218, R219). It rests on the model's own choice in log entry 6. -/
def Obligations.JumpsAndCalls : Prop := Parts.Jumps ∧ Parts.CallsAndReturns ∧ Parts.WindowTraps

/-! ### Repetition (10 R226 to R229) -/

/-- 10 R226, R227: rep outside a body, with its body in the TCM: the words of the body are taken into the buffer now, the first pass starts
at the next instruction, and no register changes. -/
def Parts.RepStarts : Prop :=
  ∀ (m : Bool) (l : BitVec 4) (k : BitVec 3) (c : BitVec 12) (s : State) (off : Nat), s.NoTrapDue m → s.me.rep = none →
    s.me.fetched = [] → s.me.pc.toNat = 2 ^ 55 + off → off + 4 * (l.toNat + 2) ≤ 0x10000 →
    ∃ t, exec (.rep m l k c) s = .next t ∧ s.OnlyMe t ∧ s.SameRegisters t ∧ (∀ p, t.byteAt p = s.byteAt p) ∧
      t.me = s.me.At t.me ∧ t.me.pc = s.me.pc + 4 ∧ ∃ r, t.me.rep = some r ∧ r.base = s.me.pc + 4 ∧ r.len = l.toNat + 1 ∧
        r.count = c.toNat + 1 ∧ r.stride = k.toNat ∧ r.pos = 0 ∧ r.pass = 0 ∧ r.buf.length = r.len ∧
        ∀ i, i < r.len → r.buf[i]? = some (BitVec.ofNat 32 (s.mine.tcm.read (off + 4 + 4 * i) 4))

/-- 10 R227: a body of LEN instructions run COUNT times: after n instructions the context stands at position n mod LEN of pass n / LEN, and
after the last it goes on behind the body with no repetition in progress. -/
def Parts.RepetitionCounts : Prop :=
  ∀ (y : Ctx) (r : RepRun), y.rep = some r → r.pos = 0 → r.pass = 0 → 0 < r.len → 0 < r.count → y.pc = r.base →
    (∀ n, n < r.len * r.count →
      (Nat.repeat Ctx.advance n y).rep = some { r with pos := n % r.len, pass := n / r.len } ∧
      (Nat.repeat Ctx.advance n y).pc = r.base + BitVec.ofNat 56 (4 * (n % r.len))) ∧
    (Nat.repeat Ctx.advance (r.len * r.count) y).rep = none ∧
    (Nat.repeat Ctx.advance (r.len * r.count) y).pc = r.base + BitVec.ofNat 56 (4 * r.len)

/-- 10 R227: inside pass p with stride k the scalar names x16 to x23 name the register 16 + (j + p·k) mod 8; every other name, and every
name outside a body, stands for itself. -/
def Parts.RotatedNames : Prop :=
  ∀ (y : Ctx) (f : BitVec 5),
    (y.rep = none → y.rotated f = f.toNat) ∧
    (∀ r, y.rep = some r → y.rotated f =
      if 16 ≤ f.toNat ∧ f.toNat < 24 then 16 + (f.toNat - 16 + r.pass * r.stride) % 8 else f.toNat)

/-- 10 R213: every windowed name has its own entry: in a ring of at least 24 entries within the register RAM, different names of x8 to x31
have different entries, all of them inside the ring. -/
def Parts.WindowNamesDiffer : Prop :=
  ∀ (y : Ctx) (i j : Nat), 24 ≤ y.ringN → y.rshi.toNat ≤ 4096 → 8 ≤ i → i ≤ 31 → 8 ≤ j → j ≤ 31 →
    (y.slot i = y.slot j → i = j) ∧ y.rslo.toNat ≤ y.slot i ∧ y.slot i < y.rshi.toNat

/-- Repetition and the names of registers (10 R213, R226, R227). It rests on the model's own choice in log entry 86. -/
def Obligations.Repetition : Prop := Parts.RepStarts ∧ Parts.RepetitionCounts ∧ Parts.RotatedNames ∧ Parts.WindowNamesDiffer

/-! ### Markers, traps and faults (03 R65, 06 R153, 17 R347 to R354) -/

/-- 03 R65, 06 R153: an instruction with the marker completes and parks while a variable-latency result of its context is outstanding; with
none outstanding a pending trap is taken at once, with EPC at the next instruction, and without one the context goes on. -/
def Parts.MarkerParks : Prop :=
  ∀ s : State,
    (s.mine.resultsOut s.curCtx = true → ∃ t, s.retire true = t ∧ s.Moves t ∧ t.me.st = .parked ∧ t.me.wait = .marker ∧
      t.me.pc = s.me.advance.pc) ∧
    (s.mine.resultsOut s.curCtx = false → ∀ p n, s.me.ptrap = some (p, n) → (s.me.tvec >>> 2).setWidth 54 ≠ 0#54 →
      s.me.inh = false → ∃ t, s.retire true = t ∧ s.OnlyMe t ∧ t.me.ptrap = none ∧ t.me.epc = s.me.advance.pc ∧
        t.me.ecause = p.code.setWidth 64 ∧ t.me.einfo = p.einfo ∧ t.me.inh = true ∧ t.me.st = .ready ∧
        t.me.pc = (((s.me.tvec >>> 2).setWidth 54).setWidth 56 <<< 2)) ∧
    (s.mine.resultsOut s.curCtx = false → s.me.ptrap = none → ∃ t, s.retire true = t ∧ s.Moves t ∧ t.me.st = .ready ∧
      t.me.wait = .none ∧ t.me.pc = s.me.advance.pc)

/-- 17 R349: handler entry of a local trap: EPC, ECAUSE and EINFO are written, INH is set, the mode stays, REPST holds the repetition
interrupted (10 R229) and rotation stops, and the context goes to TVEC.VA; nothing else of the context changes but WPEND, which a window
trap sets (10 R219). -/
def Parts.LocalTrapEntry : Prop :=
  ∀ (s : State) (p : Trap), s.mine.resultsOut s.curCtx = false → (s.me.tvec >>> 2).setWidth 54 ≠ 0#54 → s.me.inh = false →
    ∃ t, s.localTrap s.curCore s.curCtx p = t ∧ s.OnlyMe t ∧ s.SameRegisters t ∧ (∀ q, t.byteAt q = s.byteAt q) ∧
      t.me = { s.me with st := .ready, wait := .none, epc := p.epc, ecause := p.code.setWidth 64, einfo := p.einfo, inh := true,
                         wpend := (if p.wpend = 0 then s.me.wpend else p.wpend), repst := s.me.repstFor s.me.rep, rep := none,
                         fetched := [], stepOver := false, kept := none, pc := (((s.me.tvec >>> 2).setWidth 54).setWidth 56 <<< 2) }

/-- 17 R349: with INH set, or TVEC.VA zero, a local trap becomes the remote fault ILLEGAL with its code in INFO[7:0], INFO[31] set and
UNDELIV, at the trap's EPC. -/
def Parts.UndeliverableTrap : Prop :=
  ∀ (s : State) (p : Trap), s.mine.resultsOut s.curCtx = false → ((s.me.tvec >>> 2).setWidth 54 = 0#54 ∨ s.me.inh = true) →
    ∃ q : PendFault, s.localTrap s.curCore s.curCtx p = s.raiseFault s.curCore s.curCtx q ∧ q.pc = p.epc ∧
      q.f.cause = .illegal ∧ q.f.info = BitVec.ofNat 32 (2 ^ 31 + p.code.toNat) ∧ q.f.undeliv = true ∧ q.deferred = false

/-- Markers and local traps (03 R65, 06 R153, 17 R349). It rests on the model's own choice in log entry 12. -/
def Obligations.MarkersAndLocalTraps : Prop := Parts.MarkerParks ∧ Parts.LocalTrapEntry ∧ Parts.UndeliverableTrap

/-- 17 R350 to R354: a precise fault of a context with nothing outstanding: the context halts alone with EPC at the instruction, ECAUSE =
CODE and INFO, EINFO = ADDR, and registers and memory as they were; one message leaves for the supervisor core of its position, with ADDR,
EPC, INFO, the core, context and cause in its words, in the mode and domain the message has. -/
def Parts.RemoteFaultHalts : Prop :=
  ∀ (s : State) (f : FaultInfo), s.mine.opsOf s.curCtx = [] → (∀ q, s.me.wait ≠ .drain q) → s.curCore < 8192 →
    ∃ t, s.faultHere f = t ∧ s.SameRegisters t ∧ (∀ p, t.byteAt p = s.byteAt p) ∧
      t.me.st = .halted ∧ t.me.pc = s.me.pc ∧ t.me.epc = s.me.pc ∧
      t.me.ecause = BitVec.ofNat 64 (f.cause.code + f.info.toNat * 2 ^ 32) ∧ t.me.einfo = f.addr.setWidth 64 ∧
      t.me.mode = s.me.mode ∧ t.me.tvec = s.me.tvec ∧ t.me.vecs = s.me.vecs ∧ t.me.masks = s.me.masks ∧
      (∀ x, x ≠ s.curCtx → t.ctx s.curCore x = s.ctx s.curCore x) ∧ (∀ c, c ≠ s.curCore → t.core c = s.core c) ∧
      ∃ (pc : Addr) (payload : Vec) (g : Flight), t.net = s.net ++ [g] ∧ g.hold = .flying ∧
        g.pkt = .msg (s.faultTarget s.curCore) none pc payload (descriptor s.curCore s.curCtx) s.mine.domain true ∧
        payload.extractLsb' 0 64 = f.addr.setWidth 64 ∧ payload.extractLsb' 64 64 = s.me.pc.setWidth 64 ∧
        payload.extractLsb' 128 32 = f.info ∧ payload.extractLsb' 192 13 = BitVec.ofNat 13 s.curCore ∧
        payload.extractLsb' 216 8 = BitVec.ofNat 8 f.cause.code

/-- 03 R78, 17 R353: a word that is no instruction issues as an illegal encoding, and that takes the remote fault ILLEGAL with the word in
INFO and a zero ADDR, in either mode. -/
def Parts.IllegalEncodingFaults : Prop :=
  ∀ (w : BitVec 32) (s : State),
    ((∀ i, decode w ≠ .ok i) → instrOf w = .illegalEncoding w) ∧
    exec (.illegalEncoding w) s = .next (s.faultHere { cause := .illegal, info := w, addr := 0, undeliv := false })

/-- Remote faults (17 R350 to R354, 03 R78). -/
def Obligations.FaultDelivery : Prop := Parts.RemoteFaultHalts ∧ Parts.IllegalEncodingFaults

/-- 17 R358: trap takes the local trap SOFT with EPC at the next instruction and the immediate in EINFO. rtt returns: LOW moves by 16
entries up after a spill and down after a fill (10 R221), WPEND and INH clear, PC becomes EPC, a repetition in REPST starts again at its
position (10 R229), and no register changes. It rests on the model's own choice in log entry 6. -/
def Obligations.TrapAndReturn : Prop :=
  ∀ (m : Bool) (i : BitVec 12) (s : State), s.me.rep = none →
    (exec (.trap m i) s = .next ((s.modMe fun y => { y with seq := y.seq + 1 }).localTrap s.curCore s.curCtx
      { code := 6, epc := s.me.pc + 4, einfo := i.setWidth 64, wpend := 0 })) ∧
    (s.me.ptrap = none → ∃ t, exec (.rtt m) s = .next t ∧ s.SameRegisters t ∧ (∀ p, t.byteAt p = s.byteAt p) ∧
      t = { s with cores := t.cores, nextId := s.nextId + 1 } ∧ t.me.pc = s.me.epc ∧ t.me.inh = false ∧ t.me.wpend = 0 ∧
      t.me.base = s.me.base ∧ t.me.mode = s.me.mode ∧ t.me.epc = s.me.epc ∧ t.me.tvec = s.me.tvec ∧
      (s.me.wpend = 0 ∨ s.me.wpend = 3 → t.me.low = s.me.low) ∧
      (0 < s.me.ringN → s.me.wpend = 1 → t.me.low = BitVec.ofNat 12
        ((s.me.rslo.toNat : Int) + ((s.me.low.toNat : Int) - s.me.rslo.toNat + 16) % s.me.ringN).toNat) ∧
      (0 < s.me.ringN → s.me.wpend = 2 → t.me.low = BitVec.ofNat 12
        ((s.me.rslo.toNat : Int) + ((s.me.low.toNat : Int) - s.me.rslo.toNat - 16) % s.me.ringN).toNat) ∧
      (s.me.repst.getLsbD 63 = false → t.me.rep = none ∧ t.me.repst = s.me.repst) ∧
      (s.me.repst.getLsbD 63 = true → t.me.repst.getLsbD 63 = false ∧ ∃ r, t.me.rep = some r ∧
        r.pos = bitsOf s.me.repst.toNat 12 4 ∧ r.pass = bitsOf s.me.repst.toNat 0 12 ∧ r.len = bitsOf s.me.repst.toNat 28 4 + 1 ∧
        r.count = bitsOf s.me.repst.toNat 16 12 + 1 ∧ r.stride = bitsOf s.me.repst.toNat 32 3 ∧
        r.base = s.me.epc - BitVec.ofNat 56 (4 * r.pos)))

/-! ### Loads and stores (08 R173 to R184, 06 R149, R157) -/

/-- The offset in the TCM of a local address. -/
def tcmOff (va : Addr) : Nat := va.toNat - 2 ^ 55

/-- The address of a load or store: bits [55:0] of the base plus the signed offset, modulo 2^56 (08 R173). -/
def baseOff (a : Word) (o : BitVec 12) : Addr := BitVec.ofInt 56 (a.toNat + o.toInt)

/-- 08 R178, R179: a load of a TCM address reads its bytes and writes its register when it returns (`WritebackResults`); no register and no
byte of memory changes before. Sizes and extensions are the mnemonic's; lda zero-extends and is an acquire, which performs after the releases
before it. -/
def Parts.TcmLoads : Prop :=
  ∀ (m : Bool) (d a : BitVec 5) (o : BitVec 12) (z : BitVec 2) (i : Instr) (n : Nat) (sg acq : Bool),
    (i, n, sg, acq) ∈ [(Instr.ldB m d a o, 1, true, false), (.ldBu m d a o, 1, false, false), (.ldH m d a o, 2, true, false),
      (.ldHu m d a o, 2, false, false), (.ldW m d a o, 4, true, false), (.ldWu m d a o, 4, false, false), (.ldD m d a o, 8, false, false),
      (.lda m d a z o, 2 ^ z.toNat, false, true)] →
    TcmLoad (fun s => TcmAddr (baseOff (s.reg a) o) (tcmOff (baseOff (s.reg a) o)) n ∧
        s.AccessFree (baseOff (s.reg a) o) n true false ∧ (acq = true → s.AfterReleases)) i m (fun s => .load (s.dst d) n sg)
      (fun s => [s.tcmLane 0 (baseOff (s.reg a) o) n (tcmOff (baseOff (s.reg a) o))])

/-- 08 R178, R179: a store to a TCM address writes the low bytes of its register there at once, and no other byte; strl is a release and
waits until the context's earlier accesses have performed. -/
def Parts.TcmStores : Prop :=
  ∀ (m : Bool) (b a : BitVec 5) (o : BitVec 12) (z : BitVec 2) (i : Instr) (n : Nat) (rel : Bool),
    (i, n, rel) ∈ [(Instr.stB m b a o, 1, false), (.stH m b a o, 2, false), (.stW m b a o, 4, false), (.stD m b a o, 8, false),
      (.strl m b a z o, 2 ^ z.toNat, true)] →
    TcmStore (fun s => TcmAddr (baseOff (s.reg a) o) (tcmOff (baseOff (s.reg a) o)) n ∧
        s.AccessFree (baseOff (s.reg a) o) n false true ∧ (rel = true → s.Released)) i m
      (fun s => tcmOff (baseOff (s.reg a) o)) n (fun s => (s.reg b).toNat)

/-- 08 R173, R174: a scalar access whose address is no multiple of its size faults MISALIGN with that address, before anything else of it
happens, wherever the address points. -/
def Parts.MisalignedAccessFaults : Prop :=
  ∀ (m : Bool) (d a b : BitVec 5) (o : BitVec 12) (z : BitVec 2) (i : Instr) (n : Nat),
    (i, n) ∈ [(Instr.ldH m d a o, 2), (.ldHu m d a o, 2), (.ldW m d a o, 4), (.ldWu m d a o, 4), (.ldD m d a o, 8),
      (.lda m d a z o, 2 ^ z.toNat), (.stH m b a o, 2), (.stW m b a o, 4), (.stD m b a o, 8), (.strl m b a z o, 2 ^ z.toNat)] →
    ∀ s : State, (baseOff (s.reg a) o).toNat % n ≠ 0 → exec i s = .next (s.faultHere
      { cause := .misalign, info := 0, addr := baseOff (s.reg a) o, undeliv := false })

/-- Stores to the TCM, and misaligned accesses (08 R173, R174, R178, R179). -/
def Obligations.TcmWrites : Prop := Parts.TcmStores ∧ Parts.MisalignedAccessFaults

/-- 06 R147, R149: ldl of an address outside STAMPED pages, here the TCM, is an ordinary load of its size whose second destination will take
an age word of zero. -/
def Parts.TcmStampedLoads : Prop :=
  ∀ (m : Bool) (d a b : BitVec 5) (l : BitVec 6) (mode : BitVec 2) (i : Instr) (n : Nat) (sg : Bool),
    (i, n, sg) ∈ [(Instr.ldlW m d a b l mode, 4, true), (.ldlWu m d a b l mode, 4, false), (.ldlD m d a b l mode, 8, false)] →
    TcmLoad (fun s => TcmAddr (ptrVa (s.reg a)) (tcmOff (ptrVa (s.reg a))) n ∧ s.AccessFree (ptrVa (s.reg a)) n true false) i m
      (fun s => .ldl (s.dst d) (s.dst b) n sg) (fun s => [s.tcmLane 0 (ptrVa (s.reg a)) n (tcmOff (ptrVa (s.reg a)))])

/-- Loads from the TCM (08 R178, R179, 06 R147, R149). -/
def Obligations.TcmReads : Prop := Parts.TcmLoads ∧ Parts.TcmStampedLoads

/-- 08 R180: pref writes no register and no memory and never faults: on a local address, and on an address that no TLB entry translates, it
only moves on. -/
def Parts.PrefetchMovesOn : Prop :=
  ∀ (m : Bool) (a : BitVec 5) (o : BitVec 12) (s : State), s.NoTrapDue m →
    ((baseOff (s.reg a) o).getLsbD 55 = true ∨
      (s.tlb s.curCore s.mine.domain (decide (s.me.mode = .supervisor)) (baseOff (s.reg a) o).toNat).1 = none) →
    ∃ t, exec (.pref m a o) s = .next t ∧ s.Moves t ∧ s.Advanced t m

/-- The access that a prefetch makes of a unit. -/
def prefetchLane (e : TlbEnt) (va : Addr) (pa : Nat) : Lane :=
  { ix := 0, va := va, n := 1, place := .unit e.vcid e.cls e.key pa, op := .read, done := false, data := 0, age := none, srcs := e.srcs }

/-- 08 R180, 06 R134, R138, R149: pref of an address that a TLB entry translates completes too. It only moves on where the page may not be
read, lies in no memory of this module and is no STAMPED page of another device, or where the first-level cache holds the unit or has asked
for it. Otherwise it asks the unit's home for a shared TRACKED copy, sends the read of a STAMPED or an UNTRACKED unit, or the LOAD of a STAMPED
unit of another device; no register and no byte of memory changes. (A copy of the unit under another mapping leaves first, and words of it on
their way home are waited for.) That LOAD is the model's own choice (log entry 81). -/
def Parts.PrefetchFetches : Prop :=
  ∀ (m : Bool) (a : BitVec 5) (o : BitVec 12) (s u : State) (va : Addr) (e : TlbEnt) (r : Except FaultInfo Target), s.NoTrapDue m →
    va = baseOff (s.reg a) o → va.getLsbD 55 = false → s.tlb s.curCore s.mine.domain (decide (s.me.mode = .supervisor)) va.toNat = (some e, u) →
    r = u.checkEnt u.mine.domain (decide (s.me.mode = .supervisor)) .read e va →
    ((∀ x pa, r ≠ .ok (.unit x pa)) →
      (∀ x pa, r = .ok (.remote x pa) → x.cls ≠ .stamped ∨ (u.mine.copy? (remoteUnit pa) .stamped).isSome) →
      ∃ t, exec (.pref m a o) s = .next t ∧ u.Moves t ∧ u.Advanced t m) ∧
    (∀ pa, r = .ok (.remote e pa) → e.cls = .stamped → u.mine.copy? (remoteUnit pa) .stamped = none → u.mine.opsOf u.curCtx = [] →
      (u.freeTags u.curCore 1).length = 1 → (∀ q ∈ u.mine.ops, q.spent = false) →
      ∃ t q f, exec (.pref m a o) s = .next t ∧ u.Advanced t m ∧ u.SameRegisters t ∧ (∀ p, t.byteAt p = u.byteAt p) ∧
        t.mine.ops = u.mine.ops ++ [q] ∧ q.id = u.nextId ∧ q.ctx = u.curCtx ∧ q.fin = .none ∧
        q.lanes = [unitLane va (.remote .stamped e.key (pa / 128 * 128)) 128 e.srcs] ∧
        t.fabReqs = u.fabReqs ++ [f] ∧ f.core = u.curCore ∧ f.op = u.nextId ∧ f.write = false ∧ f.dev = pa / 2 ^ 42) ∧
    (∀ pa, r = .ok (.unit e pa) → u.foreignCopy u.curCore (.unit e.vcid e.cls e.key pa) = none → u.writingBack u.curCore (pa / 128) = false →
      ((e.cls = .tracked ∧ (u.canPerform u.curCore (prefetchLane e va pa) = true ∨ u.requested u.curCore e.vcid (pa / 128) = true)) ∨
          (e.cls ≠ .tracked ∧ (u.mine.copy? (pa / 128) e.cls).isSome) →
        ∃ t, exec (.pref m a o) s = .next t ∧ u.Moves t ∧ u.Advanced t m) ∧
      (e.cls = .tracked → u.canPerform u.curCore (prefetchLane e va pa) = false → u.requested u.curCore e.vcid (pa / 128) = false →
        ∃ t, exec (.pref m a o) s = .next t ∧ u.Advanced t m ∧ u.SameRegisters t ∧ (∀ p, t.byteAt p = u.byteAt p) ∧
          t.net = u.net ++ [Flight.mk u.nextId .flying (.ownReq (pa / 128) e.vcid e.key u.curCore .s)] ∧
          t.mine = { u.mine with ctxs := t.mine.ctxs } ∧ t = { u with cores := t.cores, net := t.net, nextId := u.nextId + 1 }) ∧
      (e.cls ≠ .tracked → u.mine.copy? (pa / 128) e.cls = none → u.mine.earlierOn u.curCtx (prefetchLane e va pa) = false →
        (∀ q ∈ u.mine.ops, q.spent = false) →
        ∃ t q, exec (.pref m a o) s = .next t ∧ u.Advanced t m ∧ u.SameRegisters t ∧ (∀ p, t.byteAt p = u.byteAt p) ∧
          t.net = u.net ++ [Flight.mk (u.nextId + 1) .flying (.stRead u.curCore u.nextId (pa / 128))] ∧ t.mine.ops = u.mine.ops ++ [q] ∧
          q.id = u.nextId ∧ q.ctx = u.curCtx ∧ q.fin = .none ∧ q.lanes = [prefetchLane e va pa]))

/-- 08 R182, R183: lde and ste of an unblocked element in the TCM. lde reads the element's bytes and leaves the conversion to its return;
ste writes the register in the element's format: the low byte, the saturated integer, or the FP32 value rounded. A pointer whose format code
and BLOG disagree faults ILLEGAL with the word in INFO, and so does ste to an EC8 block. -/
def Obligations.ElementAccesses : Prop :=
  ∀ (m : Bool) (d a : BitVec 5) (k : BitVec 12),
    (∀ (n : Nat) (va : State → Addr), (∀ s : State, va s = ptrVa (s.reg a) + BitVec.ofInt 56 (n * k.toInt)) →
      TcmLoad (fun s => ptrFmt (s.reg a) < 11 ∧ ptrBlog (s.reg a) = 0 ∧ n = elemBytes (ptrFmt (s.reg a)) ∧
          TcmAddr (va s) (tcmOff (va s)) n ∧ s.AccessFree (va s) n true false ∧ (ptrVa (s.reg a)).toNat % n = 0 ∧
          ¬ (s.me.rmode = 4 ∧ 6 ≤ ptrFmt (s.reg a))) (.lde m d a k) m
        (fun s => .elem (s.dst d) (ptrFmt (s.reg a)) 0 s.me.rmode.toNat s.me.lfsr)
        (fun s => [s.tcmLane 1 (va s) n (tcmOff (va s))]) ∧
      TcmStore (fun s => ptrFmt (s.reg a) < 11 ∧ ptrBlog (s.reg a) = 0 ∧ n = elemBytes (ptrFmt (s.reg a)) ∧
          TcmAddr (va s) (tcmOff (va s)) n ∧ s.AccessFree (va s) n false true ∧ (ptrVa (s.reg a)).toNat % n = 0 ∧
          ¬ (s.me.rmode = 4 ∧ 6 ≤ ptrFmt (s.reg a))) (.ste m d a k) m (fun s => tcmOff (va s)) n
        (fun s => elemCode (ptrFmt (s.reg a)) (Rm.ofMode s.me.rmode.toNat s.me.lfsr.toNat) (s.reg d))) ∧
    (∀ s : State, fmtCheckFails (ptrFmt (s.reg a)) (ptrBlog (s.reg a)) = true → ∀ i ∈ [Instr.lde m d a k, .ste m d a k],
      exec i s = .next (s.faultHere { cause := .illegal, info := encodeWord i, addr := 0, undeliv := false })) ∧
    (∀ s : State, ptrFmt (s.reg a) = 16 → exec (.ste m d a k) s =
      .next (s.faultHere { cause := .illegal, info := encodeWord (.ste m d a k), addr := 0, undeliv := false }))

/-- The new value of an atomic of n bytes on old value x with operand b (08 R185). -/
def atomicNew (op n : Nat) (x b : Nat) : Nat :=
  let sx := (BitVec.ofNat (8 * n) x).toInt
  let sb := (BitVec.ofNat (8 * n) b).toInt
  match op with
  | 0 => (x + b) % 2 ^ (8 * n)
  | 1 => x &&& b
  | 2 => x ||| b
  | 3 => x ^^^ b
  | 4 => if sb < sx then b else x
  | 5 => if sx < sb then b else x
  | 6 => if b < x then b else x
  | 7 => if x < b then b else x
  | _ => b

/-- The frame of an atomic on n bytes of the TCM at off: they become `new`, the operation holds the old value for its register,
and nothing else changes. -/
structure AtomicAt (s t : State) (off n new : Nat) (d : RegDst) : Prop where
  rest : t = { s with cores := t.cores, nextId := s.nextId + 1 }
  others : ∀ c, c ≠ s.curCore → t.core c = s.core c
  contexts : ∀ x, x ≠ s.curCtx → t.ctx s.curCore x = s.ctx s.curCore x
  me : t.me = s.me.At t.me
  registers : s.SameRegisters t
  memory : s.SameBytes t fun p => ∃ j, j < n ∧ p = .tcm s.curCore (off + j)
  stored : t.mine.tcm.read off n = new
  op : ∃ o l, t.mine.ops = s.mine.ops ++ [o] ∧ o.id = s.nextId ∧ o.ctx = s.curCtx ∧ o.fin = .amo d n ∧ o.lanes = [l] ∧
    l.done = true ∧ l.num = s.mine.tcm.read off n

/-- 08 R185, R186: an atomic on a TCM address: the old value goes to d, sign-extended, when it returns; the new value stands at once.
amofadd.s adds FP32 values rounding to nearest even; cas stores b exactly when the old value equals d's low bytes. A release waits for the
context's earlier accesses first, and an acquire for its earlier releases. -/
def Parts.TcmAtomics : Prop :=
  ∀ (m : Bool) (d a b : BitVec 5) (w : BitVec 1) (o : BitVec 2) (s : State) (n off : Nat), s.NoTrapDue m →
    n = (if w = 0 then 4 else 8) → off = tcmOff (ptrVa (s.reg a)) → (o.getLsbD 1 = true → s.Released) → (o.getLsbD 0 = true → s.AfterReleases) →
    (TcmAddr (ptrVa (s.reg a)) off n → s.AccessFree (ptrVa (s.reg a)) n true true →
      (∀ i op, (i, op) ∈ [(Instr.amoadd m d a b w o, 0), (.amoand m d a b w o, 1), (.amoor m d a b w o, 2), (.amoxor m d a b w o, 3),
          (.amomin m d a b w o, 4), (.amomax m d a b w o, 5), (.amominu m d a b w o, 6), (.amomaxu m d a b w o, 7),
          (.amoswap m d a b w o, 8)] →
        ∃ t, exec i s = .next t ∧ s.Advanced t m ∧ AtomicAt s t off n
          (atomicNew op n (s.mine.tcm.read off n) ((s.reg b).toNat % 2 ^ (8 * n))) (s.dst d)) ∧
      (∃ t, exec (.cas m d a b w o) s = .next t ∧ s.Advanced t m ∧ AtomicAt s t off n
        (if s.mine.tcm.read off n = (s.reg d).toNat % 2 ^ (8 * n) then (s.reg b).toNat % 2 ^ (8 * n) else s.mine.tcm.read off n)
        (s.dst d))) ∧
    (TcmAddr (ptrVa (s.reg a)) off 4 → s.AccessFree (ptrVa (s.reg a)) 4 true true →
      ∃ t, exec (.amofaddS m d a b o) s = .next t ∧ s.Advanced t m ∧ AtomicAt s t off 4
        (fp32.encode .ieee .rne ((fp32.decode (s.mine.tcm.read off 4)).add .rne (fp32.decode ((s.reg b).toNat % 2 ^ 32)))) (s.dst d))

/-- 08 R187, R189: cas2.q compares 32 bytes with the low 32 bytes of its register and stores the next 32 when they are equal, cas2.p with a
zero selector 16 with the low 16 and the next 16, here in the TCM; either returns the old bytes to d, named now. A selector above 2, and the
queue and chase forms on a local address, fault ILLEGAL. -/
def Parts.CompareSwapPair : Prop :=
  ∀ (m : Bool) (d a b : BitVec 5) (w : BitVec 1) (o : BitVec 2) (s : State) (off n : Nat), s.NoTrapDue m → off = tcmOff (ptrVa (s.reg a)) →
    n = (if w = 1 then 32 else 16) → (o.getLsbD 1 = true → s.Released) → (o.getLsbD 0 = true → s.AfterReleases) →
    (TcmAddr (ptrVa (s.reg a)) off n → s.AccessFree (ptrVa (s.reg a)) n true true → (w = 0 → bitsOf (s.vreg b).toNat 448 64 = 0) →
      ∃ t, exec (.cas2 m d a b w o) s = .next t ∧ s.Advanced t m ∧ s.SameRegisters t ∧ t.me = s.me.At t.me ∧
        (s.SameBytes t fun p => ∃ j, j < n ∧ p = .tcm s.curCore (off + j)) ∧
        t.mine.tcm.read off n = (if s.mine.tcm.read off n = (s.vreg b).toNat % 2 ^ (8 * n)
          then (s.vreg b).toNat / 2 ^ (8 * n) % 2 ^ (8 * n) else s.mine.tcm.read off n) ∧
        ∃ q l, t.mine.ops = s.mine.ops ++ [q] ∧ q.ctx = s.curCtx ∧ q.fin = .cas2 d.toNat (decide (w = 1)) ∧ q.lanes = [l] ∧ l.done = true ∧
          l.num = s.mine.tcm.read off n) ∧
    (3 ≤ bitsOf (s.vreg b).toNat 448 64 → exec (.cas2 m d a b 0 o) s = .next (s.faultHere
      { cause := .illegal, info := encodeWord (.cas2 m d a b 0 o), addr := ptrVa (s.reg a), undeliv := false })) ∧
    ((ptrVa (s.reg a)).getLsbD 55 = true → bitsOf (s.vreg b).toNat 448 64 = 2 ∨
        (bitsOf (s.vreg b).toNat 448 64 = 1 ∧ (ptrVa (s.reg a)).toNat % 8 = 0 ∧ s.watchHit (ptrVa (s.reg a)) 8 true true = none) →
      exec (.cas2 m d a b 0 o) s = .next (s.faultHere
        { cause := .illegal, info := encodeWord (.cas2 m d a b 0 o), addr := ptrVa (s.reg a), undeliv := false }))

/-- Atomics on the TCM (08 R185 to R187). It rests on the model's own choice in log entry 43. -/
def Obligations.Atomics : Prop := Parts.TcmAtomics ∧ Parts.CompareSwapPair

/-- 03 R66, R216, 06 R154, 08 R178, R186, R187: RESULT_WRITEBACK of a performed load or atomic writes the register named at issue with the bytes
read, extended as the mnemonic says, removes the operation, and changes no other register and no memory; ldl of an address outside STAMPED
pages gives an age word of zero. A performed cas2 writes to its vector register the old words, 1 in byte 32 when they equalled the expected
ones, and zero in every other byte (08 R187). -/
def Parts.WritebackResults : Prop :=
  ∀ (s : State) (c x id : Nat) (o : Op) (l : Lane) (d e : RegDst) (n : Nat) (sg : Bool),
    (s.core c).op? id = some o → o.id = id → o.ctx = x → (s.core c).divider ≠ some id → o.windowLeft = false → o.fault = none →
    o.lagTrap = false → o.lanes = [l] → l.age = none → (s.ctx c x).wait = .none → (s.core c).depAt ≠ some s.clock →
    (∀ v f, (f, v) ∈ [(Fin.load d n sg, if sg then BitVec.ofInt 64 (BitVec.ofNat (8 * n) l.num).toInt
          else BitVec.ofNat 64 (l.num % 2 ^ (8 * n))), (.amo d n, BitVec.ofInt 64 (BitVec.ofNat (8 * n) l.num).toInt)] →
      o.fin = f → l.done = true →
      ∃ t, exec (.resultWriteback c x id none) s = .next t ∧ t.readDst c x d = (if d = .none then 0 else v) ∧
        (∀ r, r ≠ d → t.readDst c x r = s.readDst c x r) ∧ (∀ p, t.byteAt p = s.byteAt p) ∧
        (∀ k, k ≠ c → t.core k = s.core k) ∧ (∀ y, y ≠ x → t.ctx c y = s.ctx c y) ∧
        (t.core c).ops = dropFirst (fun p => p.id == id) (s.core c).ops) ∧
    (o.fin = .ldl d e n sg → l.done = true → d ≠ e →
      ∃ t, exec (.resultWriteback c x id none) s = .next t ∧ (e ≠ .none → t.readDst c x e = 0) ∧
        (d ≠ .none → t.readDst c x d = if sg then BitVec.ofInt 64 (BitVec.ofNat (8 * n) l.num).toInt
          else BitVec.ofNat 64 (l.num % 2 ^ (8 * n))) ∧
        ∀ r, r ≠ d → r ≠ e → t.readDst c x r = s.readDst c x r) ∧
    (∀ (v : Nat) (quad : Bool) (w : Vec), o.fin = .cas2 v quad → l.op = .cas2 quad w → l.n = (if quad then 32 else 16) → l.done = true →
      ∃ t, exec (.resultWriteback c x id none) s = .next t ∧
        (t.ctx c x).vec v = BitVec.ofNat 512 (l.num + (if l.num = w.toNat % 2 ^ (8 * l.n) then 2 ^ 256 else 0)) ∧
        (∀ z, z ≠ v → (t.ctx c x).vec z = (s.ctx c x).vec z) ∧ (∀ r, t.readDst c x r = s.readDst c x r) ∧
        ∀ p, t.byteAt p = s.byteAt p)

/-- 06 R141, R157: itadv adds to ITER and itset takes it from a register plus the immediate, both modulo 2^16, once the context's STAMPED
stores are acknowledged (it parks in the instruction until then); itget reads it. A change of ITER drops the L1 copies whose stamps its era
rule makes unreachable, those whose era is the new one's plus 2 modulo 4 (06 R145), and keeps every other one; no other register or memory changes,
and no other context or core. -/
def Parts.IterationInstructions : Prop :=
  ∀ (m : Bool) (d a : BitVec 5) (i : BitVec 12),
    ScalarResult (.itget m d) m d (fun s => BitVec.ofNat 64 s.me.iter.toNat) ∧
    ∀ s : State, s.NoTrapDue m → ∀ (k : Instr) (v : BitVec 16),
      (k, v) ∈ [(Instr.itadv m i, BitVec.ofNat 16 (s.me.iter.toNat + i.toNat)),
        (.itset m a i, BitVec.ofNat 16 ((s.reg a).toNat + i.toNat))] →
      ((∀ o ∈ s.mine.opsOf s.curCtx, o.stampedWriteOut = false) → ∃ t, exec k s = .next t ∧ s.Advanced t m ∧ s.SameRegisters t ∧
        s.OnlyMine t ∧ (∀ x, x ≠ s.curCtx → t.ctx s.curCore x = s.ctx s.curCore x) ∧
        (∀ p, t.byteAt p = s.byteAt p) ∧ t.me = { s.me.At t.me with iter := v } ∧
        t.mine = { s.mine with ctxs := t.mine.ctxs, l1 := t.mine.l1 } ∧ (v = s.me.iter → t.mine.l1 = s.mine.l1) ∧
        (v ≠ s.me.iter → ∀ cp, cp ∈ t.mine.l1 ↔
          cp ∈ s.mine.l1 ∧ ¬ (cp.cls = .stamped ∧ cp.stamp.toNat / 2 ^ 14 = (v.toNat / 2 ^ 14 + 2) % 4))) ∧
      ((∃ o ∈ s.mine.opsOf s.curCtx, o.stampedWriteOut = true) → ∃ t, exec k s = .next t ∧ s.Moves t ∧ t.me.st = .parked ∧
        t.me.pc = s.me.pc)

/-- 07 R171, R172: a fence completes, changing nothing but the position, when what it waits for has performed at its scope, and otherwise
parks in the instruction; kind eng never waits itself: it holds the engine commands after it. -/
def Parts.Fences : Prop :=
  ∀ (m : Bool) (c k : BitVec 3) (s : State), s.NoTrapDue m →
    (k.toNat ≠ 3 → s.me.fenceErr = none → s.fenceDone c.toNat k.toNat = true →
      ∃ t, exec (.fence m c k) s = .next t ∧ s.Moves t ∧ s.Advanced t m) ∧
    (k.toNat ≠ 3 → s.me.fenceErr = none → s.fenceDone c.toNat k.toNat = false →
      ∃ t, exec (.fence m c k) s = .next t ∧ s.Moves t ∧ t.me.st = .parked ∧ t.me.pc = s.me.pc) ∧
    (k.toNat = 3 → ∃ t, exec (.fence m c k) s = .next t ∧ s.Advanced t m ∧ s.SameRegisters t ∧
      (∀ p, t.byteAt p = s.byteAt p) ∧ t.me = { s.me.At t.me with engWait := t.me.engWait, engWords := t.me.engWords } ∧
      ∀ o ∈ s.mine.opsOf s.curCtx, (o.id, decide (c.toNat = 5)) ∈ t.me.engWait)

/-- Iteration instructions and fences (06 R157, 07 R171, R172). It rests on the model's own choices in log entries 31 and 76. -/
def Obligations.IterationAndFences : Prop := Parts.IterationInstructions ∧ Parts.Fences

/-- 08 R190, 06 R138: cwb, cflush and cinv do nothing on a local address; on an UNTRACKED unit the core holds, which no earlier access of
the context still waits for, cinv drops the copy with its data, and cwb keeps it and sends its dirty words home. -/
def Parts.CacheMaintenance : Prop :=
  ∀ (m : Bool) (a : BitVec 5) (s : State), s.NoTrapDue m → (∀ o ∈ s.mine.opsOf s.curCtx, o.acquire = true → o.allDone = true) →
    ((ptrVa (s.reg a)).getLsbD 55 = true → ∀ i ∈ [Instr.cwb m a, .cflush m a, .cinv m a],
      ∃ t, exec i s = .next t ∧ s.Moves t ∧ s.Advanced t m) ∧
    (∀ (e : TlbEnt) (pa : Nat) (u : State) (cp : Copy), (ptrVa (s.reg a)).getLsbD 55 = false →
      s.tlb s.curCore s.mine.domain (decide (s.me.mode = .supervisor)) (ptrVa (s.reg a)).toNat = (some e, u) →
      u.checkEnt u.mine.domain (decide (s.me.mode = .supervisor)) .read e (ptrVa (s.reg a)) = .ok (.unit e pa) →
      e.cls = .untracked → u.mine.opsOf u.curCtx = [] → u.mine.copy? (pa / 128) .untracked = some cp → cp.dirty ≠ 0 → u.me = s.me →
      u.curCore = s.curCore → u.curCtx = s.curCtx →
      (∃ t, exec (.cinv m a) s = .next t ∧ t.mine.copy? (pa / 128) .untracked = none ∧ t.net = u.net ∧ ∀ p, t.byteAt p = u.byteAt p) ∧
      (∃ t g, exec (.cwb m a) s = .next t ∧ t.net = u.net ++ [g] ∧ g.pkt = .writeBack s.curCore (addOnce cp.writers s.curCtx) (pa / 128)
        cp.vcid cp.key cp.dirty cp.data cp.poison ∧ t.mine.copy? (pa / 128) .untracked = some { cp with dirty := 0, writers := [] } ∧
        ∀ p, t.byteAt p = u.byteAt p) ∧
      (∃ t g, exec (.cflush m a) s = .next t ∧ t.net = u.net ++ [g] ∧ g.pkt = .writeBack s.curCore (addOnce cp.writers s.curCtx) (pa / 128)
        cp.vcid cp.key cp.dirty cp.data cp.poison ∧ t.mine.copy? (pa / 128) .untracked = none))

/-- pref and the maintenance of the first-level cache (08 R180, R190, 06 R138). -/
def Obligations.HintsAndMaintenance : Prop := Parts.PrefetchMovesOn ∧ Parts.PrefetchFetches ∧ Parts.CacheMaintenance

/-! ### Vector instructions (12 R246 to R267) -/

/-- Instruction i writes f to the active lanes of e bytes of vector register d and keeps the masked-off lanes (12 R247). -/
def LaneResult (i : Instr) (m : Bool) (d : BitVec 5) (k : BitVec 3) (e : Nat) (f : State → Nat → Nat) : Prop :=
  VectorResult i m d fun s v => ∀ L, L < 64 / e →
    lane e v L = if (s.kreg k).getLsbD L then f s L else lane e (s.vreg d) L

/-- 12 R247 to R249: the integer lane operations, modulo the element width; min and max are signed and shifts take their amount modulo the
width. -/
def Parts.VectorIntegerResults : Prop :=
  ∀ (m : Bool) (d a b : BitVec 5) (t : BitVec 2) (k : BitVec 3) (e : Nat), e = 2 ^ t.toNat →
    LaneResult (.vadd m d a b t k) m d k e (fun s L => (lane e (s.vreg a) L + lane e (s.vreg b) L) % 2 ^ (8 * e)) ∧
    LaneResult (.vsub m d a b t k) m d k e (fun s L =>
      (((lane e (s.vreg a) L : Int) - lane e (s.vreg b) L) % (2 ^ (8 * e) : Nat)).toNat) ∧
    LaneResult (.vmul m d a b t k) m d k e (fun s L => (lane e (s.vreg a) L * lane e (s.vreg b) L) % 2 ^ (8 * e)) ∧
    LaneResult (.vmin m d a b t k) m d k e (fun s L =>
      if slane e (s.vreg b) L < slane e (s.vreg a) L then lane e (s.vreg b) L else lane e (s.vreg a) L) ∧
    LaneResult (.vmax m d a b t k) m d k e (fun s L =>
      if slane e (s.vreg a) L < slane e (s.vreg b) L then lane e (s.vreg b) L else lane e (s.vreg a) L) ∧
    LaneResult (.vand m d a b t k) m d k e (fun s L => lane e (s.vreg a &&& s.vreg b) L) ∧
    LaneResult (.vor m d a b t k) m d k e (fun s L => lane e (s.vreg a ||| s.vreg b) L) ∧
    LaneResult (.vxor m d a b t k) m d k e (fun s L => lane e (s.vreg a ^^^ s.vreg b) L) ∧
    LaneResult (.vsll m d a b t k) m d k e (fun s L =>
      lane e (s.vreg a) L * 2 ^ (lane e (s.vreg b) L % (8 * e)) % 2 ^ (8 * e)) ∧
    LaneResult (.vsrl m d a b t k) m d k e (fun s L => lane e (s.vreg a) L / 2 ^ (lane e (s.vreg b) L % (8 * e))) ∧
    LaneResult (.vsra m d a b t k) m d k e (fun s L =>
      (BitVec.ofInt (8 * e) (slane e (s.vreg a) L / (2 ^ (lane e (s.vreg b) L % (8 * e)) : Nat))).toNat)

/-- The value of lane L of a register under a float type, and its code once rounded in the context's mode. -/
def flane (t : BitVec 2) (v : Vec) (L : Nat) : FVal := (fltFmt t).decode (lane (fltBytes t) v L)

/-- 12 R250, R251, R253: the float lane operations of fixed latency: exact values rounded once in the context's mode, fused products
unrounded, NaN results canonical in minimum and maximum, and vscale a power of two given by a signed lane. -/
def Obligations.VectorFloatResults : Prop :=
  ∀ (m : Bool) (d a b : BitVec 5) (t : BitVec 2) (k : BitVec 3) (e : Nat), e = (if t = 0 then 4 else 2) →
    LaneResult (.vfadd m d a b t k) m d k e (fun s L =>
      s.toFloat t ((flane t (s.vreg a) L).add s.me.rm (flane t (s.vreg b) L)) % 2 ^ (8 * e)) ∧
    LaneResult (.vfsub m d a b t k) m d k e (fun s L =>
      s.toFloat t ((flane t (s.vreg a) L).add s.me.rm (flane t (s.vreg b) L).neg) % 2 ^ (8 * e)) ∧
    LaneResult (.vfmul m d a b t k) m d k e (fun s L =>
      s.toFloat t ((flane t (s.vreg a) L).mul (flane t (s.vreg b) L)) % 2 ^ (8 * e)) ∧
    LaneResult (.vfma m d a b t k) m d k e (fun s L => s.toFloat t
      ((flane t (s.vreg d) L).add s.me.rm ((flane t (s.vreg a) L).mul (flane t (s.vreg b) L))) % 2 ^ (8 * e)) ∧
    LaneResult (.vfnma m d a b t k) m d k e (fun s L => s.toFloat t
      ((flane t (s.vreg d) L).add s.me.rm ((flane t (s.vreg a) L).mul (flane t (s.vreg b) L)).neg) % 2 ^ (8 * e)) ∧
    LaneResult (.vfmin m d a b t k) m d k e (fun s L =>
      if (flane t (s.vreg a) L).isNan || (flane t (s.vreg b) L).isNan then (fltFmt t).nan % 2 ^ (8 * e)
      else if (flane t (s.vreg b) L).below (flane t (s.vreg a) L) then lane e (s.vreg b) L else lane e (s.vreg a) L) ∧
    LaneResult (.vfmax m d a b t k) m d k e (fun s L =>
      if (flane t (s.vreg a) L).isNan || (flane t (s.vreg b) L).isNan then (fltFmt t).nan % 2 ^ (8 * e)
      else if (flane t (s.vreg a) L).below (flane t (s.vreg b) L) then lane e (s.vreg b) L else lane e (s.vreg a) L) ∧
    LaneResult (.vfabs m d a t k) m d k e (fun s L => s.toFloat t (flane t (s.vreg a) L).abs % 2 ^ (8 * e)) ∧
    LaneResult (.vfneg m d a t k) m d k e (fun s L => s.toFloat t (flane t (s.vreg a) L).neg % 2 ^ (8 * e)) ∧
    LaneResult (.vscale m d a b t k) m d k e (fun s L => s.toFloat t
      ((flane t (s.vreg a) L).scale (max (-4096) (min 4096 (slane e (s.vreg b) L)))) % 2 ^ (8 * e)) ∧
    VectorResult (.vsel m d a b t k) m d (fun s v => ∀ L, L < 64 / e →
      lane e v L = if (s.kreg k).getLsbD L then lane e (s.vreg a) L else lane e (s.vreg b) L)

/-- Instruction i writes bit L of mask d to f for the active lanes below n, keeps the masked-off ones and clears the bits from n up;
k0 stays all ones (12 R254, 10 R230). -/
def MaskBits (i : Instr) (m : Bool) (d k : BitVec 3) (n : Nat) (f : State → Nat → Bool) : Prop :=
  ∃ v : State → Word, MaskResult i m d v ∧ ∀ s L, L < 64 →
    (v s).getLsbD L = if L < n then (if (s.kreg k).getLsbD L then f s L else (s.kreg d).getLsbD L) else false

/-- 12 R254, R267: lane comparisons into a mask (an order with a NaN is false and ne is true), the mask operations, and the moves between
masks and scalar registers. -/
def Parts.MaskResults : Prop :=
  ∀ (m : Bool) (d k l : BitVec 3) (a b : BitVec 5) (t : BitVec 2) (n : Nat), n = (if t = 0 then 16 else 32) →
    MaskBits (.vcmpEq m d a b t k) m d k n (fun s L => (flane t (s.vreg a) L).eq (flane t (s.vreg b) L)) ∧
    MaskBits (.vcmpLt m d a b t k) m d k n (fun s L => (flane t (s.vreg a) L).lt (flane t (s.vreg b) L)) ∧
    MaskBits (.vcmpLe m d a b t k) m d k n (fun s L =>
      (flane t (s.vreg a) L).lt (flane t (s.vreg b) L) || (flane t (s.vreg a) L).eq (flane t (s.vreg b) L)) ∧
    MaskBits (.vcmpNe m d a b t k) m d k n (fun s L => !(flane t (s.vreg a) L).eq (flane t (s.vreg b) L)) ∧
    MaskResult (.kand m d k l) m d (fun s => s.kreg k &&& s.kreg l) ∧
    MaskResult (.kor m d k l) m d (fun s => s.kreg k ||| s.kreg l) ∧
    MaskResult (.kxor m d k l) m d (fun s => s.kreg k ^^^ s.kreg l) ∧
    MaskResult (.knot m d k) m d (fun s => ~~~(s.kreg k)) ∧
    MaskResult (.kmovToMask m d a) m d (fun s => s.reg a) ∧
    ScalarResult (.kmovFromMask m a k) m a (fun s => s.kreg k)

/-- 12 R260: the moves of fixed latency: vbcast to the active lanes, vins into one lane, vslide by a signed count with zeros from outside,
vmovx sign-extending one lane. -/
def Parts.VectorMoves : Prop :=
  ∀ (m : Bool) (d a b : BitVec 5) (t : BitVec 2) (k : BitVec 3) (e : Nat), e = 2 ^ t.toNat →
    LaneResult (.vbcast m d a t k) m d k e (fun s _ => (s.reg a).toNat % 2 ^ (8 * e)) ∧
    LaneResult (.vslide m d a b t k) m d k e (fun s L =>
      if 0 ≤ (L : Int) + (s.reg b).toInt ∧ (L : Int) + (s.reg b).toInt < (64 / e : Nat)
      then lane e (s.vreg a) ((L : Int) + (s.reg b).toInt).toNat else 0) ∧
    VectorResult (.vins m d a b t) m d (fun s v => ∀ L, L < 64 / e →
      lane e v L = if L = (s.reg b).toNat % (64 / e) then (s.reg a).toNat % 2 ^ (8 * e) else lane e (s.vreg d) L) ∧
    ScalarResult (.vmovx m d a b t) m d (fun s => BitVec.ofInt 64 (slane e (s.vreg a) ((s.reg b).toNat % (64 / e))))

/-- Vector and mask results of fixed latency (12 R249, R254, R260, R267). -/
def Obligations.VectorFixedResults : Prop := Parts.VectorIntegerResults ∧ Parts.MaskResults ∧ Parts.VectorMoves

/-- Where P holds, instruction i leaves an operation that will write `ws` (03 R66), and changes nothing else but position and, under
stochastic rounding, the LFSR of its context, which takes n steps (02 R55). -/
def Delays (P : State → Prop) (i : Instr) (m : Bool) (n : State → Nat) (ws : State → List RegWrite → Prop) : Prop :=
  ∀ s : State, P s → s.NoTrapDue m → ∃ t l, exec i s = .next t ∧ ws s l ∧ s.Advanced t m ∧
    t = { s with cores := t.cores, nextId := s.nextId + 1 } ∧ (∀ c, c ≠ s.curCore → t.core c = s.core c) ∧
    t.mine = { s.mine with ctxs := t.mine.ctxs, ops := t.mine.ops } ∧
    (∃ o, t.mine.ops = s.mine.ops ++ [o] ∧ o.id = s.nextId ∧ o.ctx = s.curCtx ∧ o.fin = .ready l ∧ o.lanes = []) ∧
    (∀ x, x ≠ s.curCtx → t.ctx s.curCore x = s.ctx s.curCore x) ∧
    t.me = { s.me.At t.me with lfsr := lfsrAt s.me.lfsr (n s) } ∧ (∀ p, t.byteAt p = s.byteAt p)

/-- The writes are one write of vector register d whose lanes of e bytes come out as f where `on` says, and as they were elsewhere. -/
def WritesLanes (d : BitVec 5) (e : Nat) (on : Nat → Bool) (f : Nat → Nat) (l : List RegWrite) : Prop :=
  ∃ data bits, l = [.vec d.toNat data bits] ∧ ∀ (old : Vec) L, L < 64 / e →
    lane e ((old &&& ~~~bits) ||| (data &&& bits)) L = if on L then f L else lane e old L

/-- 12 R252, R260, R261: results of variable latency: reciprocal, reciprocal square root and power of two rounded to nearest even, vperm by
lane numbers modulo the lane count, and the reductions: the wrapped signed sum, the signed maximum and minimum of the active lanes, the
float trees of 02 R58, and zero when every lane is masked off. -/
def Parts.DelayedVectorResults : Prop :=
  ∀ (m : Bool) (d a b : BitVec 5) (t : BitVec 2) (k : BitVec 3) (e g : Nat), e = 2 ^ t.toNat → g = (if t = 0 then 4 else 2) →
    (∀ i f, (i, f) ∈ [(Instr.vfrcp m d a t k, fun x => (fltFmt t).rcp .rne x), (.vfrsqrt m d a t k, fun x => (fltFmt t).rsqrt .rne x),
        (.vfexp2 m d a t k, fun x => (fltFmt t).exp2 .rne x)] →
      Delays (fun _ => True) i m (fun _ => 0) (fun s l =>
        WritesLanes d g (fun L => (s.kreg k).getLsbD L) (fun L => f (flane t (s.vreg a) L) % 2 ^ (8 * g)) l)) ∧
    Delays (fun _ => True) (.vperm m d a b t k) m (fun _ => 0) (fun s l =>
      WritesLanes d e (fun L => (s.kreg k).getLsbD L) (fun L => lane e (s.vreg a) (lane e (s.vreg b) L % (64 / e))) l) ∧
    Delays (fun _ => True) (.vredsum m d a t k) m (fun _ => 0) (fun s l => l = [.scalar (s.dst d) (BitVec.ofInt 64
      (signedOf (8 * e) (((activeLanes (s.kreg k) (64 / e)).map fun L => lane e (s.vreg a) L).foldl (fun x y => x + y) 0)))]) ∧
    (∀ i up, (i, up) ∈ [(Instr.vredmax m d a t k, true), (.vredmin m d a t k, false)] →
      Delays (fun _ => True) i m (fun _ => 0) (fun s l => ∃ w, l = [.scalar (s.dst d) w] ∧
        (activeLanes (s.kreg k) (64 / e) = [] → w = 0) ∧
        (activeLanes (s.kreg k) (64 / e) ≠ [] → ∃ L ∈ activeLanes (s.kreg k) (64 / e), w = BitVec.ofInt 64 (slane e (s.vreg a) L) ∧
          ∀ j ∈ activeLanes (s.kreg k) (64 / e), if up then slane e (s.vreg a) j ≤ slane e (s.vreg a) L
            else slane e (s.vreg a) L ≤ slane e (s.vreg a) j))) ∧
    (∀ i (f : State → Nat → Nat → Nat), (i, f) ∈ [(Instr.vredsumFloat m d a t k, fun s x y =>
          s.toFloat 0 ((fp32.decode x).add s.me.rm (fp32.decode y))),
        (.vredmaxFloat m d a t k, fun _ x y => fp32.pick true x y), (.vredminFloat m d a t k, fun _ x y => fp32.pick false x y)] →
      Delays (fun _ => True) i m (fun _ => 0) (fun s l => ∃ w, l = [.scalar (s.dst d) w] ∧ w = s.floatReduce a t k (f s) ∧
        ((∀ L, L < 64 / g → (s.kreg k).getLsbD L = false) → w = 0)))

/-- 12 R262 to R266: the conversions, lane by lane: vcvt through the exact value of the source code, clearing the lanes above those it
converts; vquant to a block of 32 codes with the scale chosen for them above; vdequant back, into two registers for FP32. Under stochastic
rounding the LFSR takes one step an element. -/
def Parts.ConversionResults : Prop :=
  ∀ (m : Bool) (d a g : BitVec 5) (r : BitVec 2) (k : BitVec 3) (c : BitVec 5),
    ((Instr.vcvt m d a g r k c).wf = true →
      Delays (fun _ => True) (.vcvt m d a g r k c) m
        (fun s => if s.convMode r = 4 then 64 / max (elemBytes c.toNat) (elemBytes g.toNat) else 0)
        (fun s l => WritesLanes d (elemBytes g.toNat)
          (fun L => decide (64 / max (elemBytes c.toNat) (elemBytes g.toNat) ≤ L) || (s.kreg k).getLsbD L)
          (fun L => if 64 / max (elemBytes c.toNat) (elemBytes g.toNat) ≤ L then 0 else
            codeEncode g.toNat (s.convRm r L) (codeValue c.toNat (lane (elemBytes c.toNat) (s.vreg a) L)) %
              2 ^ (8 * elemBytes g.toNat)) l)) ∧
    ((Instr.vquant m d a g r k c).wf = true → g.toNat ≠ 16 →
      Delays (fun _ => True) (.vquant m d a g r k c) m (fun s => if s.convMode r = 4 then 32 else 0)
        (fun s l => ∃ (img : Vec) (x : Nat → FVal) (sc : Nat), l = [.vec d.toNat img (BitVec.allOnes 512)] ∧
          (∀ j, j < 32 → x j = if (s.kreg k).getLsbD j then s.blockSource a c.toNat j else .zero) ∧
          sc = chooseScale g.toNat ((List.range 32).map x ++ [(fp32.decode (lane 4 (s.vreg d) 15)).abs]) ∧
          bitsOf img.toNat 256 8 = sc % 256 ∧ ∀ j, j < 32 →
            bitsOf img.toNat (mxBits g.toNat * j) (mxBits g.toNat) =
              mxConvert g.toNat sc (s.convRm r j) (x j) % 2 ^ mxBits g.toNat)) ∧
    ((Instr.vdequant m d a g r k c).wf = true →
      Delays (fun _ => True) (.vdequant m d a g r k c) m (fun s => if s.convMode r = 4 then 32 else 0)
        (fun s l => (g.toNat ≠ 8 → WritesLanes d 2 (fun L => (s.kreg k).getLsbD L)
            (fun L => codeEncode g.toNat (s.convRm r L) (imageValue c.toNat (s.vreg a) L) % 2 ^ 16) l) ∧
          (g.toNat = 8 → ∃ l1 l2, l = l1 ++ l2 ∧
            WritesLanes d 4 (fun L => (s.kreg k).getLsbD L)
              (fun L => codeEncode g.toNat (s.convRm r L) (imageValue c.toNat (s.vreg a) L) % 2 ^ 32) l1 ∧
            WritesLanes (d + 1) 4 (fun L => (s.kreg k).getLsbD (16 + L))
              (fun L => codeEncode g.toNat (s.convRm r (16 + L)) (imageValue c.toNat (s.vreg a) (16 + L)) % 2 ^ 32) l2)))

/-- Vector results of variable latency (12 R252, R260 to R266). It rests on the model's own choice in log entry 5. -/
def Obligations.DelayedResults : Prop := Parts.DelayedVectorResults ∧ Parts.ConversionResults

/-- 12 R256, R257: vector loads and stores whose active lanes all lie in the TCM, naturally aligned: unit stride, byte stride and indexed
addresses. A load leaves the active lanes to its return; a store writes them in ascending order, so that of lanes that overlap the highest
stands, and no other byte. -/
def Obligations.TcmVectorAccesses : Prop :=
  ∀ (m : Bool) (d a b : BitVec 5) (t : BitVec 2) (k : BitVec 3) (e : Nat), e = 2 ^ t.toNat →
    ∀ (ld st : Instr) (addr : State → Nat → Addr),
      (ld, st, addr) ∈ [(Instr.vld m d a t k, Instr.vst m d a t k, fun s L => ptrVa (s.reg a) + BitVec.ofNat 56 (e * L)),
        (.vlds m d a b t k, .vsts m d a b t k, fun s L => ptrVa (s.reg a) + BitVec.ofInt 56 ((s.reg b).toInt * L)),
        (.vgath m d a b t k, .vscat m d a b t k, fun s L => ptrVa (s.reg a) + BitVec.ofInt 56 (e * slane e (s.vreg b) L))] →
      TcmLoad (fun s => ∀ L ∈ activeLanes (s.kreg k) (64 / e), TcmAddr (addr s L) (tcmOff (addr s L)) e ∧
          s.AccessFree (addr s L) e true false) ld m (fun _ => .vec d.toNat)
        (fun s => (activeLanes (s.kreg k) (64 / e)).map fun L => s.tcmLane L (addr s L) e (tcmOff (addr s L))) ∧
      ∀ s : State, s.NoTrapDue m → (∀ L ∈ activeLanes (s.kreg k) (64 / e), TcmAddr (addr s L) (tcmOff (addr s L)) e ∧
          s.AccessFree (addr s L) e false true) →
        ∃ u, exec st s = .next u ∧ s.Advanced u m ∧
          s.StoreFrame u (fun p => ∃ L ∈ activeLanes (s.kreg k) (64 / e), ∃ j, j < e ∧ p = .tcm s.curCore (tcmOff (addr s L) + j)) ∧
          ∀ L ∈ activeLanes (s.kreg k) (64 / e), (∀ L' ∈ activeLanes (s.kreg k) (64 / e), L < L' → addr s L' ≠ addr s L) →
            u.mine.tcm.read (tcmOff (addr s L)) e = lane e (s.vreg d) L

/-- 03 R66, 12 R257: RESULT_WRITEBACK of delayed vector results and vector loads: the lanes that the operation names change, the others and
every other register stay. -/
def Parts.VectorWriteback : Prop :=
  ∀ (s : State) (c x id v e : Nat) (o : Op), (s.core c).op? id = some o → o.id = id → o.ctx = x → (s.core c).divider ≠ some id →
    o.windowLeft = false → o.fault = none → o.lagTrap = false → (s.ctx c x).wait = .none → (s.core c).depAt ≠ some s.clock → e ∈ [1, 2, 4, 8] →
    (∀ data bits, o.fin = .ready [.vec v data bits] → o.lanes = [] →
      ∃ t, exec (.resultWriteback c x id none) s = .next t ∧
        (t.ctx c x).vec v = (((s.ctx c x).vec v &&& ~~~bits) ||| (data &&& bits)) ∧
        (∀ z, z ≠ v → (t.ctx c x).vec z = (s.ctx c x).vec z) ∧ (∀ r, t.readDst c x r = s.readDst c x r) ∧
        (∀ p, t.byteAt p = s.byteAt p)) ∧
    (∀ (mask : Word) (g : Nat → Lane), o.fin = .vec v → o.lanes = (activeLanes mask (64 / e)).map g →
      (∀ L, (g L).ix = L ∧ (g L).n = e ∧ (g L).done = true ∧ (g L).age = none) →
      ∃ t, exec (.resultWriteback c x id none) s = .next t ∧
        (∀ L, L < 64 / e → lane e ((t.ctx c x).vec v) L =
          if mask.getLsbD L then (g L).num else lane e ((s.ctx c x).vec v) L) ∧
        (∀ z, z ≠ v → (t.ctx c x).vec z = (s.ctx c x).vec z) ∧ (∀ r, t.readDst c x r = s.readDst c x r) ∧
        (∀ p, t.byteAt p = s.byteAt p))

/-- Results of variable latency (03 R66, R216, 08 R178, R186, 12 R257). -/
def Obligations.Writeback : Prop := Parts.WritebackResults ∧ Parts.VectorWriteback

/-! ### Contexts, tasks and deques (14 R289 to R304) -/

/-- 14 R304: ctxid gives the context's number, its core's flat number above it, and the launch id of context 0's record, or zero when there
is none, in the upper half. -/
def Obligations.ContextIdentity : Prop :=
  ∀ (m : Bool) (d : BitVec 5),
    ScalarResult (.ctxid m d) m d (fun s => BitVec.ofNat 64
      (s.curCtx + s.curCore * 16 + (if s.mine.task.isSome then s.mine.taskLid.toNat else 0) * 2 ^ 32))

/-- A message as its sender puts it on the networks. -/
def flying (id : Nat) (p : Pkt) : Flight := Flight.mk id .flying p

/-- What a delayed scalar result leaves: an operation that will write v to the register of field d, and the position moved on. -/
structure ResultIssued (u t : State) (m : Bool) (d : BitVec 5) (v : Word) : Prop where
  position : u.Advanced t m
  op : ∃ o, t.mine.ops = u.mine.ops ++ [o] ∧ o.id = u.nextId ∧ o.ctx = u.curCtx ∧ o.fin = .ready [.scalar (u.dst d) v] ∧ o.lanes = []
  registers : u.SameRegisters t
  memory : ∀ p, t.byteAt p = u.byteAt p

/-- 14 R292, R293: hstart starts a dormant helper at the address in a, in the issuer's mode and iteration, with an empty window whose first
register holds b, and holds the context while the helper is live; hexit ends its helper with an exit value once its results and writes are
done; hjoin gives that value of a dormant helper, and parks while it is live. A context that names itself, and context 0 for hexit, fault
ILLEGAL. -/
def Obligations.HelperContexts : Prop :=
  ∀ (m : Bool) (d a b : BitVec 5) (h : BitVec 4),
    Delays (fun s => h.toNat ≠ s.curCtx ∧ (s.ctx s.curCore h.toNat).st = .dormant) (.hjoin m d h) m (fun _ => 0)
      (fun s l => l = [.scalar (s.dst d) (s.ctx s.curCore h.toNat).exitVal]) ∧
    ∀ s : State, s.NoTrapDue m →
      (h.toNat ≠ s.curCtx → (s.ctx s.curCore h.toNat).st ≠ .dormant →
        (∃ t, exec (.hjoin m d h) s = .next t ∧ s.Moves t ∧ t.me.st = .parked ∧ t.me.pc = s.me.pc) ∧
        ((s.reg a).toNat % 4 = 0 → ∃ t, exec (.hstart m a b h) s = .next t ∧ s.Moves t ∧ t.me.st = .held ∧ t.me.pc = s.me.pc)) ∧
      (h.toNat ≠ s.curCtx → (s.ctx s.curCore h.toNat).st = .dormant → (s.reg a).toNat % 4 = 0 →
        ∃ t, exec (.hstart m a b h) s = .next t ∧ s.Advanced t m ∧ (∀ p, t.byteAt p = s.byteAt p) ∧
          (∀ x, x ≠ h.toNat → x ≠ s.curCtx → t.ctx s.curCore x = s.ctx s.curCore x) ∧ (∀ c, c ≠ s.curCore → t.core c = s.core c) ∧
          (t.ctx s.curCore h.toNat).st = .ready ∧ (t.ctx s.curCore h.toNat).pc = BitVec.ofNat 56 (s.reg a).toNat ∧
          (t.ctx s.curCore h.toNat).mode = s.me.mode ∧ (t.ctx s.curCore h.toNat).iter = s.me.iter ∧
          (t.ctx s.curCore h.toNat).base = (s.ctx s.curCore h.toNat).rslo ∧ (t.ctx s.curCore h.toNat).low = (s.ctx s.curCore h.toNat).rslo ∧
          (t.ctx s.curCore h.toNat).wpend = 0 ∧ t.regOf s.curCore h.toNat 8 = s.reg b ∧
          ∀ e, e ≠ (s.ctx s.curCore h.toNat).rslo.toNat → tget t.mine.ram e 0 = tget s.mine.ram e 0) ∧
      (h.toNat = s.curCtx → ∀ i ∈ [Instr.hstart m a b h, .hjoin m d h], exec i s = .next (s.faultHere
        { cause := .illegal, info := encodeWord i, addr := 0, undeliv := false })) ∧
      (s.curCtx = 0 → exec (.hexit m a) s = .next (s.faultHere
        { cause := .illegal, info := encodeWord (.hexit m a), addr := 0, undeliv := false })) ∧
      (s.curCtx ≠ 0 → s.quiet s.curCore s.curCtx = true → ∃ t, exec (.hexit m a) s = .next t ∧ t.me.st = .dormant ∧
        t.me.exitVal = s.reg a ∧ t.mine.ram = s.mine.ram ∧ (∀ p, t.byteAt p = s.byteAt p) ∧
        (∀ x, x ≠ s.curCtx → t.ctx s.curCore x = s.ctx s.curCore x) ∧ ∀ c, c ≠ s.curCore → t.core c = s.core c) ∧
      (s.curCtx ≠ 0 → s.quiet s.curCore s.curCtx = false → ∃ t, exec (.hexit m a) s = .next t ∧ s.Moves t ∧ t.me.st = .parked ∧
        t.me.pc = s.me.pc)

/-- Doubleword i of a task record. -/
def taskWord (record i : Nat) : Word := BitVec.ofNat 64 (bitsOf record (64 * i) 64)

/-- Context 0 of core c runs the task of a record at rec (14 R294, R296): user mode at its entry with an empty window whose first
six registers hold the arguments, the record's address and its launch word; tiles and captures are reset unless it succeeds
another task on the core. -/
structure TaskStarted (u t : State) (c : Nat) (rec : Addr) (record : Nat) (succ : Bool) : Prop where
  task : (t.core c).task = some rec.toNat ∧ (t.core c).taskLid = (taskWord record 5).setWidth 32
  context : (t.ctx c 0).st = .ready ∧ (t.ctx c 0).mode = .user ∧ (t.ctx c 0).pc = (taskWord record 0).setWidth 56 ∧
    (t.ctx c 0).base = (u.ctx c 0).rslo ∧ (t.ctx c 0).low = (u.ctx c 0).rslo ∧ (t.ctx c 0).wpend = 0 ∧ (t.ctx c 0).rep = none
  arguments : ∀ i, i < 4 → t.regOf c 0 (8 + i) = taskWord record (1 + i)
  identity : t.regOf c 0 12 = rec.setWidth 64 ∧ t.regOf c 0 13 = taskWord record 5
  unit : (t.core c).tiles = (if succ then (u.core c).tiles else []) ∧ (t.core c).capt = if succ then (u.core c).capt else []
  memory : ∀ p, t.byteAt p = u.byteAt p
  contexts : ∀ x, x ≠ 0 → t.ctx c x = u.ctx c x
  others : ∀ k, k ≠ c → t.core k = u.core k

/-- A record can be started on context 0 of a core: its entry is aligned and the window has room for the arguments. -/
def Startable (u : State) (c record : Nat) : Prop :=
  (taskWord record 0).toNat % 4 = 0 ∧ 6 ≤ (u.ctx c 0).ringN ∧ (u.ctx c 0).rshi.toNat ≤ 4096

/-- Context 0 of the issuing core has ended its task without a successor (14 R297, R298): it is dormant, and the count of the
launch fell by one when a task ended. -/
structure TaskEnded (u t : State) : Prop where
  context : (t.ctx u.curCore 0).st = .dormant ∧ t.mine.task = none
  count : ∀ q l, u.mine.task.isSome = true → u.mine.queue = some q → (u.queue q).launch = some l →
    (t.queue q).launch = some { l with count := l.count - 1 }
  registers : t.mine.ram = u.mine.ram
  memory : ∀ p, t.byteAt p = u.byteAt p
  contexts : ∀ x, x ≠ 0 → t.ctx u.curCore x = u.ctx u.curCore x
  others : ∀ k, k ≠ u.curCore → t.core k = u.core k

/-- An instruction that reads values `now` when it issues goes on with ws in state k: what it has kept when it waited before, and otherwise
what it reads now, which it keeps. -/
def ReadsAtIssue (s : State) (now ws : List Nat) (k : State) : Prop :=
  (s.me.keptNow = some ws ∧ k = s) ∨
    (s.me.keptNow = none ∧ ws = now ∧ k = s.modMe fun y => { y with kept := some (y.seq, y.pc, now) })

/-- The successor that an exit whose register a held w at issue has: that address, or when w is 0 what it has read of its record's SUCC before
it waited, or none without a record (14 R297). -/
def SuccessorOf (s : State) (w : Word) (v : Addr) : Prop :=
  (w ≠ 0 ∧ v = ptrVa w) ∨ (w = 0 ∧ s.mine.exitSucc = some (s.me.seq, s.me.pc, v)) ∨
    (w = 0 ∧ s.mine.exitSucc = none ∧ s.mine.task = none ∧ v = 0)

/-- 14 R297: exit on context 0, once its helpers have ended, its results are written and its writes performed. The address in a as it stood
when the exit issued, or doubleword 6 of the record when a is 0, names a successor: a record that is claimed starts at once; with none, or a
cancelled one, the task ends, and so it does on a service core, which takes no task (01 R16). An exit that waited uses the values that it read
before. A successor that is misaligned or local faults MISALIGN, a claim that faults faults the exit, and exit elsewhere faults ILLEGAL. It
rests on the model's own choices in log entries 13 and 82. -/
def Obligations.TaskExit : Prop :=
  ∀ (m : Bool) (a : BitVec 5) (s k : State) (w : Word) (v : Addr), s.me.rep = none →
    (s.curCtx ≠ 0 → exec (.exit m a) s = .next (s.faultHere
      { cause := .illegal, info := encodeWord (.exit m a), addr := 0, undeliv := false })) ∧
    (s.curCtx = 0 → ReadsAtIssue s [(s.reg a).toNat] [w.toNat] k → SuccessorOf s w v →
      (∀ x, 1 ≤ x → x ≤ 10 → (s.ctx s.curCore x).creator = none ∨ (s.ctx s.curCore x).st = .dormant) →
      s.mine.resultsOut 0 = false → s.writesDone s.curCore 0 = true →
      (v = 0 → ∃ t, exec (.exit m a) s = .next t ∧ TaskEnded s t) ∧
      (v ≠ 0 → (v.toNat % 64 ≠ 0 ∨ v.getLsbD 55 = true) →
        exec (.exit m a) s = .next (s.faultHere { cause := .misalign, info := 0, addr := v, undeliv := false })) ∧
      (v ≠ 0 → v.toNat % 64 = 0 → v.getLsbD 55 = false →
        (s.isService s.curCore = true → ∃ t, exec (.exit m a) s = .next t ∧ TaskEnded s t) ∧
        (s.isService s.curCore = false → ∀ u, u.curCore = s.curCore →
          (∀ record, claimM v k = .ok (.ok record, u) → Startable u s.curCore record →
            ∃ t, exec (.exit m a) s = .next t ∧ TaskStarted u t s.curCore v record true) ∧
          (∀ f, claimM v k = .ok (.fault f, u) → exec (.exit m a) s = .next (s.faultHere f)) ∧
          (claimM v k = .ok (.cancelled, u) → ∃ t, exec (.exit m a) s = .next t ∧ TaskEnded u t))))

/-- How many of a full deque's hardware entries a push moves to its ring: the oldest 32, or as many as the ring has room for (14 R299). -/
def spilled (k : Core) : Nat := min 32 (1024 - k.ringLen)

/-- An entry has joined a core's deque at the bottom: full hardware entries have moved their oldest to the ring's bottom slots first (14
R299). -/
def Pushed (k t : Core) (e : Nat) : Prop :=
  (k.deque.length < 64 → t.deque = e :: k.deque ∧ t.ringLo = k.ringLo ∧ t.ringHi = k.ringHi) ∧
  (64 ≤ k.deque.length → t.deque = e :: k.deque.take (64 - spilled k) ∧ t.ringLo = k.ringLo ∧ t.ringHi = k.ringHi + spilled k)

/-- 14 R299, R300, R302: pusht puts an aligned record of main memory at the bottom of the core's deque once the context's writes have
performed, and the launch counts one record more; it holds the context while the deque is full, or after a pop or a steal in the same cycle.
popt takes the bottom entry that its claim admits, gives its address later, and gives 0 when the deque is empty and no victim shows an entry,
after which no push comes in that cycle; with a victim it asks and parks; after a steal in the same cycle it is held. -/
def Parts.DequeInstructions : Prop :=
  ∀ (m : Bool) (d a : BitVec 5) (s : State), s.NoTrapDue m →
    ((ptrVa (s.reg a)).toNat % 64 ≠ 0 → exec (.pusht m a) s = .next (s.faultHere
      { cause := .misalign, info := 0, addr := ptrVa (s.reg a), undeliv := false })) ∧
    ((ptrVa (s.reg a)).toNat % 64 = 0 → (ptrVa (s.reg a)).getLsbD 55 = false → s.writesDone s.curCore s.curCtx = true →
      (s.mine.entries < 1088 → s.mine.inOrder s.clock rankPush = true →
        (s.mine.deque.length < 64 → ∃ t, exec (.pusht m a) s = .next t ∧ s.Advanced t m ∧ Pushed s.mine t.mine (ptrVa (s.reg a)).toNat ∧
          s.SameRegisters t ∧ (∀ p, t.byteAt p = s.byteAt p) ∧ t = { s with cores := t.cores, queues := t.queues } ∧
          (∀ c, c ≠ s.curCore → t.core c = s.core c) ∧ t.mine = { s.mine with ctxs := t.mine.ctxs, deque := t.mine.deque } ∧
          t.me = s.me.At t.me ∧
          ∀ q l, s.mine.queue = some q → (s.queue q).launch = some l → (t.queue q).launch = some { l with count := l.count + 1 }) ∧
        (∀ u, 64 ≤ s.mine.deque.length →
          s.ringStore s.myAgent s.curCore s.mine.ringHi (s.mine.deque.drop (64 - spilled s.mine)).reverse = .ok u () → s.SameIssuer u →
          (u.mine.deque, u.mine.ringLo, u.mine.ringHi) = (s.mine.deque, s.mine.ringLo, s.mine.ringHi) → u.NoTrapDue m →
          ∃ t, exec (.pusht m a) s = .next t ∧ u.Advanced t m ∧ Pushed s.mine t.mine (ptrVa (s.reg a)).toNat)) ∧
      (1088 ≤ s.mine.entries ∨ s.mine.inOrder s.clock rankPush = false →
        ∃ t, exec (.pusht m a) s = .next t ∧ s.Moves t ∧ t.me.st = .held ∧ t.me.pc = s.me.pc)) ∧
    ((∀ o ∈ s.mine.opsOf s.curCtx, o.acquire = true → o.allDone = true) → s.Released → s.mine.steal = none → s.me.wait = .none →
      (∀ e l u record, s.mine.deque = e :: l → s.mine.inOrder s.clock rankPop = true → s.draining s.curCore = false →
        claimM (BitVec.ofNat 56 e) s = .ok (.ok record, u) → s.SameIssuer u →
        ∃ t, exec (.popt m d) s = .next t ∧ ResultIssued u t m d (BitVec.ofNat 64 e) ∧ t.mine.deque = u.mine.deque.drop 1) ∧
      (s.mine.entries = 0 → s.mine.inOrder s.clock rankPop = true → s.nextVictim s.curCore (victimOrder s.curCore) = none →
        ∃ t, exec (.popt m d) s = .next t ∧ ResultIssued s t m d 0 ∧ t.mine.steal = none ∧ t.mine.inOrder s.clock rankPush = false) ∧
      (s.mine.inOrder s.clock rankPop = false → ∃ t, exec (.popt m d) s = .next t ∧ s.Moves t ∧ t.me.st = .held ∧ t.me.pc = s.me.pc) ∧
      (∀ v l, s.mine.entries = 0 → s.mine.inOrder s.clock rankPop = true →
          s.nextVictim s.curCore (victimOrder s.curCore) = some (v, l) →
        ∃ t, exec (.popt m d) s = .next t ∧ t.me.st = .parked ∧ t.me.wait = .steal ∧ t.me.pc = s.me.pc ∧ s.SameRegisters t ∧
          t.net = s.net ++ [flying s.nextId (.steal v s.curCore)]))

/-- 14 R300 to R302, 16 R345: DISPATCH takes the newest entry of a core whose context 0 has no task, claims its record and starts it; what a
draining launch still holds is discarded; with no entry and no victim it waits, and the round timer tries again 1,024 cycles later and no
sooner. A steal takes the oldest entry of a victim of the same launch, or finds none, and waits for the next cycle after what came before
it; its reply goes to the popt that asked, which goes on, and a reply whose round has gone is pushed on the thief's own deque. It rests on
the model's own choices in log entries 15, 23 and 62. -/
def Obligations.DispatchAndStealing : Prop :=
  ∀ (s : State) (c : Nat),
    (s.dispatches c = true → (s.core c).task = none → (s.core c).steal = none →
      (∀ e l u record, (s.core c).deque = e :: l → (s.core c).inOrder s.clock rankPop = true → s.draining c = false →
        s.claimByC0 c (BitVec.ofNat 56 e) = (u, .ok record) → (u.core c).mxq = [] → Startable u c record →
        ∃ t, exec (.dispatch c) s = .next t ∧ TaskStarted u t c (BitVec.ofNat 56 e) record false ∧
          (t.core c).deque = (u.core c).deque.drop 1) ∧
      (∀ e q x, (s.core c).deque = [e] → (s.core c).ringLen = 0 → (s.core c).inOrder s.clock rankPop = true → s.draining c = true →
        (s.core c).idleSince = none → s.nextVictim c (victimOrder c) = none → (s.core c).queue = some q → (s.queue q).launch = some x →
        ∃ t, exec (.dispatch c) s = .next t ∧ (t.core c).entries = 0 ∧ (t.queue q).launch = some { x with count := x.count - 1 } ∧
          (∀ y, t.ctx c y = s.ctx c y) ∧ ∀ p, t.byteAt p = s.byteAt p) ∧
      ((s.core c).entries = 0 → (s.core c).inOrder s.clock rankPop = true → s.nextVictim c (victimOrder c) = none →
        ((s.core c).idleSince = none → ∃ t, exec (.dispatch c) s = .next t ∧ (t.core c).idleSince = some s.clock ∧
          (t.core c).steal = none ∧ ∀ x, t.ctx c x = s.ctx c x) ∧
        (∀ n, (s.core c).idleSince = some n → (s.clock < n + 1024 → exec (.dispatchRoundTimer c) s = .next s) ∧
          (n + 1024 ≤ s.clock → ∃ t, exec (.dispatchRoundTimer c) s = .next t ∧ (t.core c).idleSince = some s.clock ∧
            (t.core c).steal = none ∧ ∀ x, t.ctx c x = s.ctx c x)))) ∧
    (∀ id h v thief, s.flight? id = some (Flight.mk id h (.steal v thief)) → s.forwarded v = c → (s.core c).moving = false →
      (∀ q, (s.core c).queue = some q → (s.core (s.forwarded thief)).queue = some q → (s.core c).inOrder s.clock (rankSteal thief) = true →
        (∀ l e, (s.core c).ringLen = 0 → (s.core c).deque = l ++ [e] →
          ∃ t, exec (.stealRequest id) s = .next t ∧ (t.core c).deque = l ∧ (∀ k, k ≠ c → t.core k = s.core k) ∧
            t.net = dropFirst (fun f => f.id == id) s.net ++ [flying s.nextId (.stealReply thief (some e))]) ∧
        (∀ e u, (s.core c).ringLen ≠ 0 → s.ringRead (.msg id) c (s.core c).ringLo = .ok u e →
          ∃ t, exec (.stealRequest id) s = .next t ∧ (t.core c).deque = (u.core c).deque ∧ (t.core c).ringLo = (u.core c).ringLo + 1 ∧
            t.net = dropFirst (fun f => f.id == id) u.net ++ [flying u.nextId (.stealReply thief (some e))])) ∧
      ((s.core c).queue.isSome → (s.core c).queue = (s.core (s.forwarded thief)).queue →
        (s.core c).inOrder s.clock (rankSteal thief) = false → exec (.stealRequest id) s = .next s) ∧
      ((s.core c).queue.isSome → (s.core c).queue = (s.core (s.forwarded thief)).queue → (s.core c).entries = 0 →
        (s.core c).inOrder s.clock (rankSteal thief) = true → ∃ t, exec (.stealRequest id) s = .next t ∧ (∀ k, k ≠ c → t.core k = s.core k) ∧
          t.core c = (s.core c).dequeUsed s.clock (rankSteal thief) ∧
          t.net = dropFirst (fun f => f.id == id) s.net ++ [flying s.nextId (.stealReply thief none)]) ∧
      ((s.core c).queue ≠ (s.core (s.forwarded thief)).queue →
        ∃ t, exec (.stealRequest id) s = .next t ∧ t.cores = s.cores ∧
          t.net = dropFirst (fun f => f.id == id) s.net ++ [flying s.nextId (.stealReply thief none)])) ∧
    (∀ id h thief e, s.flight? id = some (Flight.mk id h (.stealReply thief (some e))) → s.forwarded thief = c →
      (s.core c).moving = false →
      ((∀ r, (s.core c).steal = some r → r.waiting = false) → (s.core c).entries < 1088 → (s.core c).inOrder s.clock rankPush = true →
        (s.core c).deque.length < 64 → ∃ t, exec (.stealReply id) s = .next t ∧ Pushed (s.core c) (t.core c) e ∧
          t.net = dropFirst (fun f => f.id == id) s.net) ∧
      (∀ r x, (s.core c).steal = some r → r.waiting = true → r.forCtx = some x → (s.ctx c x).wait = .steal → (s.ctx c x).st = .parked →
        ∃ t, exec (.stealReply id) s = .next t ∧ (t.core c).steal = some { r with waiting := false, got := some e } ∧
          (t.ctx c x).st = .ready ∧ (t.ctx c x).wait = .none ∧ t.net = dropFirst (fun f => f.id == id) s.net))

/-- 14 R303: tcancel is one atomic on a record's flags, here in the TCM: it sets CANCEL_REQ of a claimed record and CANCELLED of another,
and writes no register. tpoll gives 0 while context 0 has no task, and the flags word read with acquire, after the context's releases,
otherwise. -/
def Parts.TaskCancellation : Prop :=
  ∀ (m : Bool) (d a : BitVec 5),
    TcmStore (fun s => TcmAddr (ptrVa (s.reg a) + 56) (tcmOff (ptrVa (s.reg a) + 56)) 8 ∧ s.AccessFree (ptrVa (s.reg a) + 56) 8 true true)
      (.tcancel m a) m (fun s => tcmOff (ptrVa (s.reg a) + 56)) 8
      (fun s => let f := s.mine.tcm.read (tcmOff (ptrVa (s.reg a) + 56)) 8; if f.testBit 2 then f ||| 1 else f ||| 8) ∧
    Delays (fun s => (s.ctx s.curCore 0).st = .dormant ∧ s.AfterReleases ∧ ∀ o ∈ s.mine.opsOf s.curCtx, o.acquire = true → o.allDone = true)
      (.tpoll m d) m (fun _ => 0) (fun s l => l = [.scalar (s.dst d) 0]) ∧
    ∀ s : State, s.NoTrapDue m → (∀ o ∈ s.mine.opsOf s.curCtx, o.acquire = true → o.allDone = true) → s.AfterReleases →
      (s.ctx s.curCore 0).st ≠ .dormant → ∀ w u, recordWordM 56 s = .ok (some w, u) → s.SameIssuer u →
        ∃ t, exec (.tpoll m d) s = .next t ∧ ResultIssued u t m d w

/-- The task instructions (14 R299, R300, R303). It rests on the model's own choice in log entry 23. -/
def Obligations.TaskInstructions : Prop := Parts.DequeInstructions ∧ Parts.TaskCancellation

/-- The issuing context may send an engine command: no earlier fence of kind eng and no acquire of the context is left (07 R161, R172). -/
def EngineFree (s : State) : Prop :=
  s.me.engWait = [] ∧ s.me.engWords = false ∧ ∀ o ∈ s.mine.opsOf s.curCtx, o.acquire = true → o.allDone = true
/-- The state in which an engine command goes on after the fences before it. -/
def pastFences (s : State) : State := s.modMe fun y => { y with engWait := [], engWords := false }

/-! ### Barriers and messages (14 R305 to R310, 15 R314 to R319) -/

/-- 15 R316, R318: what happens to an object. An arrival raises ARR; the last one of a phase, with no beats due, flips: GEN rises by one and
ARR is 0; one too many sets ABORT. A beat adds to BEATS modulo 2^32, and flips when it brings it to 0 with every arrival in. binit keeps GEN
and clears the rest but EXP and BEATS. An arrival leaves every bit from TIMEOUT up as it was, and a beat every bit from ABORT up. -/
def Parts.BarrierRules : Prop :=
  ∀ o : Nat, o < 2 ^ 256 →
    (Obj.arr o < Obj.exp o → (Obj.arr o + 1 = Obj.exp o ∧ Obj.beats o = 0) →
      let n := (Obj.arrive o).1
      (Obj.arrive o).2 = true ∧ Obj.gen n = (Obj.gen o + 1) % 2 ^ 32 ∧ Obj.arr n = 0 ∧ Obj.exp n = Obj.exp o ∧ Obj.beats n = 0 ∧
        Obj.abort n = Obj.abort o) ∧
    (Obj.arr o < Obj.exp o → ¬ (Obj.arr o + 1 = Obj.exp o ∧ Obj.beats o = 0) →
      let n := (Obj.arrive o).1
      (Obj.arrive o).2 = false ∧ Obj.gen n = Obj.gen o ∧ Obj.arr n = Obj.arr o + 1 ∧ Obj.exp n = Obj.exp o ∧ Obj.beats n = Obj.beats o ∧
        Obj.abort n = Obj.abort o) ∧
    (Obj.exp o ≤ Obj.arr o → Obj.abort (Obj.arrive o).1 = true ∧ Obj.exp (Obj.arrive o).1 = Obj.exp o ∧
      Obj.beats (Obj.arrive o).1 = Obj.beats o) ∧
    (∀ i, 97 ≤ i → (Obj.arrive o).1.testBit i = o.testBit i) ∧
    (∀ k i : Nat, 96 ≤ i → (Obj.beat o k).1.testBit i = o.testBit i) ∧
    (∀ e b i : Nat, 96 ≤ i → (Obj.init o e b).testBit i = false) ∧
    (∀ k : Nat, Obj.arr o = Obj.exp o → (Obj.beats o + k) % 2 ^ 32 = 0 →
      let n := (Obj.beat o k).1
      (Obj.beat o k).2 = true ∧ Obj.gen n = (Obj.gen o + 1) % 2 ^ 32 ∧ Obj.arr n = 0 ∧ Obj.exp n = Obj.exp o ∧ Obj.beats n = 0) ∧
    (∀ k : Nat, ¬ (Obj.arr o = Obj.exp o ∧ (Obj.beats o + k) % 2 ^ 32 = 0) →
      let n := (Obj.beat o k).1
      (Obj.beat o k).2 = false ∧ Obj.gen n = Obj.gen o ∧ Obj.arr n = Obj.arr o ∧ Obj.exp n = Obj.exp o ∧
        Obj.beats n = (Obj.beats o + k) % 2 ^ 32) ∧
    (∀ e b : Nat, let n := Obj.init o e b
      Obj.gen n = Obj.gen o ∧ Obj.exp n = e % 2 ^ 16 ∧ Obj.beats n = b % 2 ^ 32 ∧ Obj.arr n = 0 ∧ Obj.abort n = false ∧
        Obj.timeout n = false)

/-- 15 R315 to R319: the barrier instructions on an object that its checks accept and whose home is free: binit, barrive and bbeat perform
their rule there, after which the 32 bytes at the home hold the new object and the rest of its unit is as it was; bstat reads it and gives its word later; bwait goes on when the generation differs or ABORT is set, and otherwise
registers and parks, until the home's answer completes it. A poisoned unit faults POISON with nothing written. -/
def Parts.BarrierInstructions : Prop :=
  (∀ (m : Bool) (d a b : BitVec 5) (s u v : State) (vcid key pa : Nat) (o : Obj), s.NoTrapDue m → u.me = s.me →
      u.curCore = s.curCore → u.curCtx = s.curCtx → v.me = s.me → v.curCore = s.curCore → v.curCtx = s.curCtx →
    (∀ i rel f, (i, rel, f) ∈ [(Instr.binit m a b, false, fun o => (Obj.init o (fld (s.reg b) 0 16) (fld (s.reg b) 16 32), false)),
        (.barrive m a, true, Obj.arrive), (.bbeat m a b, true, fun o => Obj.beat o (fld (s.reg b) 0 32))] →
      objectM a rel false s = .ok ((vcid, key, pa), u) →
      (u.onObject u.myAgent vcid key pa f = .done v (o, false) → ∃ t, exec i s = .next t ∧ v.Moves t ∧ v.Advanced t m ∧
        ∀ off n, t.homeBytes vcid key (pa / 128) off n = v.homeBytes vcid key (pa / 128) off n) ∧
      (u.onObject u.myAgent vcid key pa f = .done v (o, true) → exec i s = .next (s.faultHere
        { cause := .poison, info := 0, addr := ptrVa (s.reg a), undeliv := false }))) ∧
    (objectM a false true s = .ok ((vcid, key, pa), u) → u.onObject u.myAgent vcid key pa (fun o => (o, false)) = .done v (o, false) →
      (∃ t, exec (.bstat m d a) s = .next t ∧ ResultIssued v t m d (BitVec.ofNat 64 (Obj.gen o + Obj.arr o * 2 ^ 32 +
        (Obj.abort o).toNat * 2 ^ 48 + (Obj.timeout o).toNat * 2 ^ 49 + (if Obj.beats o ≠ 0 then 2 ^ 50 else 0)))) ∧
      (Obj.gen o ≠ fld (s.reg b) 0 32 ∨ Obj.abort o = true → ∃ t, exec (.bwait m a b) s = .next t ∧ v.Moves t ∧ v.Advanced t m) ∧
      (Obj.gen o = fld (s.reg b) 0 32 → Obj.abort o = false → v.barrierWaiters (v.homeCore vcid (pa / 128)) < 64 →
        ∃ t, exec (.bwait m a b) s = .next t ∧ t.me.st = .parked ∧ t.me.wait = .bwait pa m ∧ t.me.pc = s.me.pc ∧ v.SameRegisters t ∧
          (∀ p, t.byteAt p = v.byteAt p) ∧ t = { v with cores := t.cores, bWaiters := t.bWaiters } ∧
          t.bWaiters = v.bWaiters ++ [{ home := v.homeCore vcid (pa / 128), addr := pa, core := s.curCore, ctx := s.curCtx }]))) ∧
  (∀ (s u r v : State) (w : Writer) (vcid key pa : Nat) (f : Obj → Obj × Bool) (o : Obj), s.seize w vcid (pa / 128) true = .done u () →
    r = (u.readVc vcid (pa / 128) none).1 → s.onObject w vcid key pa f = .done v (o, false) →
    o = r.homeBytes vcid key (pa / 128) (pa % 128) 32 ∧
    (r.HomeReady vcid (pa / 128) → pa % 128 + 32 ≤ 128 →
      v.homeBytes vcid key (pa / 128) (pa % 128) 32 = (f o).1 % 2 ^ 256 ∧
      ∀ off, off < 128 → (off < pa % 128 ∨ pa % 128 + 32 ≤ off) →
        v.homeBytes vcid key (pa / 128) off 1 = r.homeBytes vcid key (pa / 128) off 1)) ∧
  (∀ (s : State) (id c x pa : Nat) (h : Hold) (m : Bool), s.flight? id = some (Flight.mk id h (.bwaitAns c x)) →
    s.forwarded c = c → (s.ctx c x).wait = .bwait pa m → (s.ctx c x).st = .parked → (m = true → (s.ctx c x).ptrap = none) →
    ∃ t, exec (.bwaitAnswer id) s = .next t ∧ (t.ctx c x).pc = (s.ctx c x).advance.pc ∧ (∀ r, t.readDst c x r = s.readDst c x r) ∧
      (t.ctx c x).st = (if m ∧ (s.core c).resultsOut x then .parked else .ready) ∧ (∀ p, t.byteAt p = s.byteAt p) ∧
      t.net = dropFirst (fun f => f.id == id) s.net)

/-- Barrier objects (15 R314 to R319). It rests on the model's own choice in log entry 39. -/
def Obligations.Barriers : Prop := Parts.BarrierRules ∧ Parts.BarrierInstructions

/-- 14 R305, R306, R309, R310: msend sends the payload that its vector register holds at issue once the context's writes have performed, as
a handler message (CTX 15, whose entry must be aligned) or a directed one; mdep sends a deposit and holds its context for the answer; both
read their registers when they issue, and what they wait for does not change it; both fault PRIV in user mode towards another domain, and
ILLEGAL on a descriptor that names no context (mdep: or global 0). waitm goes on when a message is present and marks it seen, and parks
otherwise. -/
def Parts.MessageInstructions : Prop :=
  ∀ (m : Bool) (d a b : BitVec 5) (s : State) (da db : Word) (pv : Vec) (dst x j : Nat), s.NoTrapDue m → dst = fld da 0 13 →
      x = fld da 13 4 → j = fld da 17 3 →
    ((∃ k, ReadsAtIssue s [(s.reg a).toNat, (s.reg b).toNat, (s.vreg d).toNat] [da.toNat, db.toNat, pv.toNat] k) →
      (11 ≤ x ∧ x ≤ 14 → exec (.msend m d a b) s = .next (s.faultHere
        { cause := .illegal, info := encodeWord (.msend m d a b), addr := 0, undeliv := false })) ∧
      (x < 11 ∨ (x = 15 ∧ db.toNat % 4 = 0) →
        (s.me.mode = .user ∧ (s.core (s.forwarded dst)).domain ≠ s.mine.domain → exec (.msend m d a b) s = .next (s.faultHere
          { cause := .priv, info := 0, addr := 0, undeliv := false })) ∧
        (s.me.mode = .supervisor ∨ (s.core (s.forwarded dst)).domain = s.mine.domain →
          (s.writesDone s.curCore s.curCtx = true → ∃ t, exec (.msend m d a b) s = .next t ∧ s.Advanced t m ∧ s.SameRegisters t ∧
            (∀ p, t.byteAt p = s.byteAt p) ∧ t.me = s.me.At t.me ∧ t.mine.sent = s.mine.sent + 1 ∧
            t.net = s.net ++ [flying s.nextId (.msg dst (if x = 15 then none else some x)
              (BitVec.ofNat 56 db.toNat) pv (descriptor s.curCore s.curCtx) s.mine.domain (decide (s.me.mode = .supervisor)))]) ∧
          (s.writesDone s.curCore s.curCtx = false → ∃ t, exec (.msend m d a b) s = .next t ∧ s.Moves t ∧ t.me.st = .parked ∧
            t.me.pc = s.me.pc ∧ t.me.keptNow = some [da.toNat, db.toNat, pv.toNat])))) ∧
    ((∃ k, ReadsAtIssue s [(s.reg a).toNat, (s.reg b).toNat] [da.toNat, db.toNat] k) →
      (11 ≤ x ∨ j = 0 → exec (.mdep m a b) s = .next (s.faultHere
        { cause := .illegal, info := encodeWord (.mdep m a b), addr := 0, undeliv := false })) ∧
      (x < 11 → j ≠ 0 →
        (s.me.mode = .user ∧ (s.core (s.forwarded dst)).domain ≠ s.mine.domain → exec (.mdep m a b) s = .next (s.faultHere
          { cause := .priv, info := 0, addr := 0, undeliv := false })) ∧
        (s.me.mode = .supervisor ∨ (s.core (s.forwarded dst)).domain = s.mine.domain → s.writesDone s.curCore s.curCtx = true →
          ∃ t, exec (.mdep m a b) s = .next t ∧ t.me.st = .held ∧ t.me.wait = .deposit m ∧ t.me.pc = s.me.pc ∧
            s.SameRegisters t ∧ (∀ p, t.byteAt p = s.byteAt p) ∧ t.net = s.net ++ [flying s.nextId (.deposit dst x j db s.curCore s.curCtx)]))) ∧
    (s.me.mpend = true → s.me.mseen = false → ∃ t, exec (.waitm m) s = .next t ∧ s.OnlyMe t ∧ s.Advanced t m ∧ s.SameRegisters t ∧
      t.me = { s.me.At t.me with mseen := true } ∧ ∀ p, t.byteAt p = s.byteAt p) ∧
    (s.me.mpend = false → ∃ t, exec (.waitm m) s = .next t ∧ s.Moves t ∧ t.me.st = .parked ∧ t.me.wait = .message ∧ t.me.pc = s.me.pc) ∧
    (s.me.mpend = true → s.me.mseen = true → ∃ t, exec (.waitm m) s = .next t ∧ t.me.st = .parked ∧ t.me.wait = .message ∧
      t.me.mpend = false ∧ tget? t.mine.slotOwner s.me.mslot.toNat = none ∧ s.SameRegisters t)

/-- 14 R307 to R310, 10 R225, 17 R363: a message that its core accepts takes the lowest free slot. A handler message starts the lowest
eligible dormant helper at its address, in the destination's own mode, with the slot's address and the sender in its first registers; a
directed one is kept for its context, which wakes from waitm. Without a slot or a helper, or with a message pending, it waits in the router.
A deposit writes its global when DEPEN permits and is answered either way, one a cycle at a core; the answer completes the mdep, or faults DEP_DENIED. An arrival
at a vacated position goes on to the core that its forwarding entry names. -/
def Parts.MessageDelivery : Prop :=
  ∀ (s : State) (id : Nat) (h : Hold) (dst : Nat) (pc : Addr) (payload : Vec) (src : BitVec 17) (dom : Nat) (sup : Bool) (c : Nat),
    c = s.forwarded dst → s.deliverable id dst src dom sup = true →
    (s.flight? id = some (Flight.mk id h (.msg dst none pc payload src dom sup)) →
      (∀ n x, (s.core c).freeSlot? = some n → (s.core c).freeHelper? = some x → 2 ≤ (s.ctx c x).ringN → (s.ctx c x).rshi.toNat ≤ 4096 →
        ∃ t, exec (.handlerMessageDelivery id) s = .next t ∧ tget (t.core c).slots n 0 = payload ∧
          tget? (t.core c).slotOwner n = some x ∧ (t.ctx c x).st = .ready ∧ (t.ctx c x).pc = pc ∧ (t.ctx c x).msgSlot = some n ∧
          (t.ctx c x).msgStarted = true ∧ (t.ctx c x).mode = (if s.isService c then .supervisor else .user) ∧
          (t.ctx c x).iter = (s.ctx c 0).iter ∧ t.regOf c x 8 = BitVec.ofNat 64 (2 ^ 55 + 0x10000 + 64 * n) ∧
          t.regOf c x 9 = src.setWidth 64 ∧ (t.core c).received = (s.core c).received + 1 ∧
          (∀ y, y ≠ x → t.ctx c y = s.ctx c y) ∧ (∀ k, k ≠ c → t.core k = s.core k) ∧
          t.net = dropFirst (fun f => f.id == id) s.net) ∧
      ((s.core c).freeSlot? = none ∨ (s.core c).freeHelper? = none →
        ∃ t, exec (.handlerMessageDelivery id) s = .next t ∧ t.cores = s.cores ∧ t = s.waitInRouter
          (Flight.mk id h (.msg dst none pc payload src dom sup)))) ∧
    (∀ x, s.flight? id = some (Flight.mk id h (.msg dst (some x) pc payload src dom sup)) →
      (∀ n, (s.core c).freeSlot? = some n → (s.ctx c x).mpend = false → ∃ t, exec (.directedMessageDelivery id) s = .next t ∧
        tget (t.core c).slots n 0 = payload ∧ tget? (t.core c).slotOwner n = some x ∧ (t.ctx c x).mpend = true ∧
        (t.ctx c x).mseen = false ∧ (t.ctx c x).msrc = src ∧ (t.ctx c x).mslot = BitVec.ofNat 4 n ∧
        ((s.ctx c x).wait = .message → (s.ctx c x).st = .parked → (t.ctx c x).st = .ready ∧ (t.ctx c x).wait = .none ∧
          (t.ctx c x).pc = (s.ctx c x).pc) ∧ (∀ r, t.readDst c x r = s.readDst c x r) ∧ (∀ k, k ≠ c → t.core k = s.core k) ∧
        t.net = dropFirst (fun f => f.id == id) s.net) ∧
      ((s.core c).freeSlot? = none ∨ (s.ctx c x).mpend = true → ∃ t, exec (.directedMessageDelivery id) s = .next t ∧
        t.cores = s.cores ∧ t = s.waitInRouter (Flight.mk id h (.msg dst (some x) pc payload src dom sup)))) ∧
    (∀ x j v sc sx, 1 ≤ j → j ≤ 7 → (s.core c).moving = false → s.flight? id = some (Flight.mk id h (.deposit dst x j v sc sx)) →
      ((s.core c).depAt = some s.clock → exec (.deposit id) s = .next s) ∧
      ((s.core c).depAt ≠ some s.clock → ∃ t, exec (.deposit id) s = .next t ∧
        (t.core c).depAt = (if (s.ctx c x).depen.getLsbD j then some s.clock else (s.core c).depAt) ∧
        t.regOf c x j = (if (s.ctx c x).depen.getLsbD j then v else s.regOf c x j) ∧
        (∀ r, r ≠ .glob j → t.readDst c x r = s.readDst c x r) ∧ (∀ k, k ≠ c → t.core k = s.core k) ∧
        t.net = dropFirst (fun f => f.id == id) s.net ++ [flying s.nextId (.depAnswer sc sx ((s.ctx c x).depen.getLsbD j))])) ∧
    (∀ x m, (s.ctx c x).wait = .deposit m → (s.ctx c x).st = .held → (m = true → (s.ctx c x).ptrap = none) →
      (s.flight? id = some (Flight.mk id h (.depAnswer dst x true)) → ∃ t, exec (.depositAnswer id) s = .next t ∧
        (t.ctx c x).pc = (s.ctx c x).advance.pc ∧ (t.ctx c x).st = (if m ∧ (s.core c).resultsOut x then .parked else .ready) ∧
        (∀ r, t.readDst c x r = s.readDst c x r) ∧ ∀ p, t.byteAt p = s.byteAt p) ∧
      (s.flight? id = some (Flight.mk id h (.depAnswer dst x false)) → (s.core c).opsOf x = [] →
        ∃ t, exec (.depositAnswer id) s = .next t ∧ (t.ctx c x).st = .halted ∧ (t.ctx c x).pc = (s.ctx c x).pc ∧
          (t.ctx c x).ecause = 0x27 ∧ ∀ r, t.readDst c x r = s.readDst c x r)) ∧
    (∀ p e, p.target = some dst → s.flight? id = some (Flight.mk id h p) → s.fwds.find? (fun f => f.old == dst) = some e →
      (p.readdress e.new).target = some e.new ∧
      exec (.forwardedArrival id) s = .next (s.setFlight (Flight.mk id h (p.readdress e.new))))

/-- Messages and deposits (14 R305 to R310, 17 R363). It rests on the model's own choices in log entries 20 and 83. -/
def Obligations.Messages : Prop := Parts.MessageInstructions ∧ Parts.MessageDelivery

/-! ### Collectives (15 R320 to R332) -/

/-- The contribution of the issuing context to instance `inst` of a group (15 R324, R329): its vector register, or for a cmaxb its
lanes' magnitudes, counted once. -/
def contribution (u : State) (kind ty op gid inst pos vcid key pa : Nat) (v : Vec) : Contrib :=
  { launch := (match u.launchOf u.curCore with
      | some l => l.serial
      | none => 0), gid := gid, inst := inst, kind := kind, op := op, ty := ty,
    val := if kind = 1 then magnitudes ty v else v, count := 1, timedOut := false, nan := false, ovf := false, member := pos,
    area := pa, areaVcid := vcid, areaKey := key }

/-- A group of a router's slot, and the inputs that its table asks for. -/
def slotInputs (s : State) (pos : Nat) (x : RSlot) : List Input :=
  tableInputs (s.groupMembers x.launch x.gid) ((s.groupMembers x.launch x.gid).headD pos) pos

/-- A contribution that comes to a router by input i enters it and waits there for others (15 R321): it joins the open slot of its instance, or
opens a slot with a timer of its own (CTMO cycles, none for 0) in a router that holds none. `slots` are the router's slots then. -/
def Enters (s : State) (pos : Nat) (i : Input) (c : Contrib) (slots : List RSlot) : Prop :=
  (s.router pos).flushed.contains (c.launch, c.gid, c.inst) = false ∧
  ((∃ x, (s.router pos).slots.find? (fun x => x.launch == c.launch && x.gid == c.gid) = some x ∧ x.inst = c.inst ∧
      (∃ j ∈ slotInputs s pos x, j ≠ i ∧ ∀ g ∈ x.got, g.1 ≠ j) ∧
      slots = mapIf (fun y => y.launch == c.launch && y.gid == c.gid) (fun _ => { x with got := x.got ++ [(i, c)] }) (s.router pos).slots) ∨
    ((s.router pos).slots = [] ∧ (s.router pos).early = [] ∧
      (∃ j ∈ tableInputs (s.groupMembers c.launch c.gid) ((s.groupMembers c.launch c.gid).headD pos) pos, j ≠ i) ∧
      slots = [RSlot.mk c.launch c.gid c.inst [(i, c)] (if (s.core (s.forwarded pos)).ctmo = 0 then none
        else some (s.clock + (s.core (s.forwarded pos)).ctmo.toNat))]))

/-- What a cred or cmaxb goes on with in state k (15 R329): what its checks have given before its router kept it waiting, or what they give
now: a group that a GRP register of the core holds, an aligned area on a TRACKED page, the context's writes performed, and the data then in
its vector register. -/
def Contributes (s k : State) (d a b : BitVec 5) (gid slot vcid key pa : Nat) (v : Vec) : Prop :=
  (s.me.keptNow = some [gid, slot, vcid, key, pa, v.toNat] ∧ k = s) ∨
    (s.me.keptNow = none ∧ EngineFree s ∧ gid = fld (s.reg a) 0 8 ∧ s.mine.groupSlot gid = some slot ∧ (ptrVa (s.reg b)).toNat % 128 = 0 ∧
      v = s.vreg d ∧ ∃ u, trackedM .atomic 96 (ptrVa (s.reg b)) (pastFences s) = .ok ((vcid, key, pa), u) ∧ s.SameIssuer u ∧
        u.writesDone s.curCore s.curCtx = true ∧
        k = u.modMe fun y => { y with kept := some (y.seq, y.pc, [gid, slot, vcid, key, pa, v.toNat]) })

/-- 15 R324, R329, R330, 07 R166: cred and cmaxb, once no fence of kind eng holds them, of a group that a GRP register of the core holds,
with an aligned area: the contribution enters the origin router, the counter of the group's slot rises by one, and a cmaxb parks until its
release, or goes on when its release has come before it, whose maximum its area then takes; one that the router does not take yet is held
with what it has read; a contribution too far ahead faults COLL_OVERRUN. A group that no GRP register names faults ILLEGAL, and a misaligned
area MISALIGN. -/
def Parts.CollectiveInstructions : Prop :=
  ∀ (m : Bool) (d a b : BitVec 5) (ty o : BitVec 2) (s : State), s.NoTrapDue m →
    (EngineFree s → s.me.keptNow = none →
      ((∀ j, j < 4 → (tget s.mine.grp j 0).toNat ≠ 256 + fld (s.reg a) 0 8) → ∀ i ∈ [Instr.cred m d a b ty o, .cmaxb m d a b ty],
        exec i s = .next (s.faultHere { cause := .illegal, info := encodeWord i, addr := 0, undeliv := false })) ∧
      (∀ slot, s.mine.groupSlot (fld (s.reg a) 0 8) = some slot →
        (ptrVa (s.reg b)).toNat % 128 ≠ 0 → ∀ i ∈ [Instr.cred m d a b ty o, .cmaxb m d a b ty],
          exec i s = .next (s.faultHere { cause := .misalign, info := 0, addr := ptrVa (s.reg b), undeliv := false }))) ∧
    ∀ (k : State) (gid slot vcid key pa pos inst : Nat) (x : Vec), Contributes s k d a b gid slot vcid key pa x →
      pos = k.mine.origin.getD k.curCore → inst = tget (k.router pos).counters slot 0 →
      (∀ c, c = contribution k 0 ty.toNat o.toNat gid inst pos vcid key pa x →
        (∀ slots, Enters k pos .own c slots → ∃ t, exec (.cred m d a b ty o) s = .next t ∧ k.Advanced t m ∧ k.SameRegisters t ∧
          (∀ p, t.byteAt p = k.byteAt p) ∧ (t.router pos).slots = slots ∧ t.net = k.net ∧ tget (t.router pos).counters slot 0 = inst + 1) ∧
        (∀ v, k.routerTake k.myAgent pos .own c = .ok v ∨ k.routerTake k.myAgent pos .own c = .late v → k.SameIssuer v →
          ∃ t, exec (.cred m d a b ty o) s = .next t ∧ v.Advanced t m ∧ v.SameRegisters t ∧ (∀ p, t.byteAt p = v.byteAt p) ∧
            (t.router pos).slots = (v.router pos).slots ∧ tget (t.router pos).counters slot 0 = inst + 1) ∧
        (∀ v, k.routerTake k.myAgent pos .own c = .wait v → k.SameIssuer v → ∃ t, exec (.cred m d a b ty o) s = .next t ∧ v.Moves t ∧
          t.me.st = .held ∧ t.me.wait = .router ∧ t.me.keptNow = k.me.keptNow) ∧
        (k.routerTake k.myAgent pos .own c = .refused →
          exec (.cred m d a b ty o) s = .next (s.faultHere { cause := .collOverrun, info := 0, addr := 0, undeliv := false }))) ∧
      (∀ c, c = contribution k 1 ty.toNat 1 gid inst pos vcid key pa x →
        ((∀ q ∈ (k.router pos).kept, ¬ (q.1 = c.launch ∧ q.2.1 = gid ∧ q.2.2.1 = inst)) →
          (∀ slots, Enters k pos .own c slots → ∃ t, exec (.cmaxb m d a b ty) s = .next t ∧ t.me.st = .parked ∧ t.me.wait = .release gid inst m ∧
            t.me.pc = s.me.pc ∧ k.SameRegisters t ∧ (∀ p, t.byteAt p = k.byteAt p) ∧ (t.router pos).slots = slots ∧ t.net = k.net ∧
            (t.router pos).areas = (k.router pos).areas ++ [c] ∧ tget (t.router pos).counters slot 0 = inst + 1) ∧
          (∀ v, k.routerTake k.myAgent pos .own c = .ok v ∨ k.routerTake k.myAgent pos .own c = .late v → k.SameIssuer v →
            ∃ t, exec (.cmaxb m d a b ty) s = .next t ∧ t.me.st = .parked ∧ t.me.wait = .release gid inst m ∧ t.me.pc = s.me.pc ∧
              v.SameRegisters t ∧ (t.router pos).areas = (v.router pos).areas ++ [c] ∧ tget (t.router pos).counters slot 0 = inst + 1)) ∧
        (∀ mx v, (k.router pos).kept = [(c.launch, gid, inst, mx)] → k.writeMax k.myAgent c mx = .done v () → k.SameIssuer v →
          ∃ t, exec (.cmaxb m d a b ty) s = .next t ∧ v.Advanced t m ∧ v.SameRegisters t ∧ (∀ p, t.byteAt p = v.byteAt p) ∧
            tget (t.router pos).counters slot 0 = inst + 1))

/-- 15 R320 to R327, R330: routers. A contribution to a group without a slot opens one with its own timer (CTMO cycles, none for 0); one of
the open instance joins it; one of a flushed instance is a straggler, counted at the root; one behind another on its link, and one of any
other instance but the next, waits. Contributions combine in the order own, west, east, north, south, bridge, whatever order they came in;
their counts add. A slot whose timer expires at a core that is not the root sends its partial on, marked, and later contributions of that
instance are stragglers. A straggler raises LATE of the status word of its instance; a release writes the maximum into the 64 bytes of the
member's area, ends its cmaxb, and is held while the member's core is being migrated. -/
def Parts.CombiningRouters : Prop :=
  (∀ (s : State) (id pos : Nat) (h : Hold) (i : Input) (c : Contrib), s.flight? id = some (Flight.mk id h (.contrib pos i c)) →
      s.groupMembers c.launch c.gid ≠ [] →
    (s.linkFree id pos i = false → exec (.combiningContribution id) s = .next s) ∧
    (s.linkFree id pos i = true → (s.router pos).flushed.contains (c.launch, c.gid, c.inst) = true →
      ∃ t, exec (.combiningContribution id) s = .next t ∧ t.routers = s.routers ∧
        t.net = dropFirst (fun f => f.id == id) (s.net ++ [flying s.nextId (.late ((s.groupMembers c.launch c.gid).headD pos) c.launch c.gid c.inst)])) ∧
    (s.linkFree id pos i = true → (s.router pos).flushed.contains (c.launch, c.gid, c.inst) = false →
      (∀ x, (s.router pos).slots.find? (fun x => x.launch == c.launch && x.gid == c.gid) = some x →
        c.inst < x.inst ∨ x.inst + 1 < c.inst → exec (.combiningContribution id) s = .next s) ∧
      (∀ slots, Enters s pos i c slots → ∃ t, exec (.combiningContribution id) s = .next t ∧
        t.net = dropFirst (fun f => f.id == id) s.net ∧ (t.router pos).slots = slots ∧ ∀ p, t.byteAt p = s.byteAt p))) ∧
  (∀ (x : RSlot) (a b : Contrib) (i j : Input), i.rank < j.rank → (x.got = [(i, a), (j, b)] ∨ x.got = [(j, b), (i, a)]) →
    x.value = some (a.combine b)) ∧
  (∀ (a b : Contrib), a.kind = 0 → a.ty = 2 → b.kind = a.kind → b.ty = a.ty → b.op = a.op → (a.combine b).count = a.count + b.count ∧
    (a.combine b).timedOut = (a.timedOut || b.timedOut) ∧ ∀ L, L < 16 → lane 4 (a.combine b).val L =
      if a.op = 0 then (lane 4 a.val L + lane 4 b.val L) % 2 ^ 32
      else if a.op = 1 then (if signedOf 32 (lane 4 a.val L) < signedOf 32 (lane 4 b.val L) then lane 4 b.val L else lane 4 a.val L)
      else if signedOf 32 (lane 4 b.val L) < signedOf 32 (lane 4 a.val L) then lane 4 b.val L else lane 4 a.val L) ∧
  (∀ (s : State) (pos gid p due : Nat) (x : RSlot) (v : Contrib) (i : Input), (s.router pos).slots = [x] → x.gid = gid →
    x.due = some due → due ≤ s.clock → (∃ j ∈ slotInputs s pos x, ∀ g ∈ x.got, g.1 ≠ j) → x.value = some v → (s.router pos).early = [] →
    s.groupMembers x.launch x.gid ≠ [] → pos ≠ (s.groupMembers x.launch x.gid).headD pos →
    nextHop pos ((s.groupMembers x.launch x.gid).headD pos) = some (p, i) →
    ∃ t, exec (.combiningTimeout pos gid) s = .next t ∧ t.net = s.net ++ [flying s.nextId (.contrib p i { v with timedOut := true })] ∧
      (t.router pos).slots = [] ∧ (t.router pos).flushed = (x.launch, x.gid, x.inst) :: (s.router pos).flushed ∧
      ∀ q, t.byteAt q = s.byteAt q) ∧
  (∀ (s u : State) (id root q gid inst : Nat) (h : Hold) (c : Contrib) (o : Obj), s.flight? id = some (Flight.mk id h (.late root q gid inst)) →
    (s.router root).done = [c] → c.same q gid inst = true →
    s.onObject (.msg id) c.areaVcid c.areaKey (c.area + 64) (fun o => (setBits o 176 16 (min 65535 (bitsOf o 176 16 + 1)), false)) = .done u (o, false) →
    exec (.lateCount id) s = .next (u.drop id)) ∧
  (∀ (s : State) (id root q gid inst : Nat) (h : Hold), s.flight? id = some (Flight.mk id h (.late root q gid inst)) →
    (s.router root).done = [] → ∃ t, exec (.lateCount id) s = .next t ∧ (t.router root).late = (q, gid, inst) :: (s.router root).late ∧
      t.net = dropFirst (fun f => f.id == id) s.net) ∧
  (∀ (s u : State) (id c q gid inst x : Nat) (h : Hold) (v : Vec) (k : Contrib) (m : Bool),
    s.flight? id = some (Flight.mk id h (.cmaxRelease c q gid inst v)) → (s.router c).areas = [k] → k.same q gid inst = true →
    (s.core (s.forwarded c)).moving = false → s.writeMax (.msg id) k v = .done u () → (u.router c).areas = [k] → u.forwarded c = c → (u.core c).parkedFor gid inst = some (x, m) → (u.ctx c x).st = .parked →
    (m = true → (u.ctx c x).ptrap = none) →
    ∃ t, exec (.cmaxbRelease id) s = .next t ∧ (t.ctx c x).pc = (u.ctx c x).advance.pc ∧
      (t.ctx c x).st = (if m ∧ (u.core c).resultsOut x then .parked else .ready) ∧ (t.router c).areas = [] ∧
      (∀ p, t.byteAt p = u.byteAt p) ∧ ∀ x off n, t.homeBytes k.areaVcid k.areaKey x off n = u.homeBytes k.areaVcid k.areaKey x off n) ∧
  (∀ (s : State) (id c q gid inst : Nat) (h : Hold) (v : Vec), s.flight? id = some (Flight.mk id h (.cmaxRelease c q gid inst v)) →
    (s.core (s.forwarded c)).moving = true → exec (.cmaxbRelease id) s = .next s) ∧
  (∀ (s r u : State) (w : Writer) (c : Contrib) (v : Vec), s.seize w c.areaVcid (c.area / 128) true = .done r () →
    s.writeMax w c v = .done u () → r.HomeReady c.areaVcid (c.area / 128) → c.area % 128 = 0 →
    u.homeBytes c.areaVcid c.areaKey (c.area / 128) 0 64 = v.toNat ∧
      ∀ off, 64 ≤ off → off < 128 → u.homeBytes c.areaVcid c.areaKey (c.area / 128) off 1 = r.homeBytes c.areaVcid c.areaKey (c.area / 128) off 1)

/-- Collectives (15 R320 to R330). It rests on the model's own choice in log entry 18. -/
def Obligations.Collectives : Prop := Parts.CollectiveInstructions ∧ Parts.CombiningRouters

/-! ### Control registers and the system instructions (03 R79, R80, 10 R232, 17 R357 to R363) -/

/-- The frame of a write of control registers: nothing changes but fields of the issuing core and context that are no scalar, vector or
mask register, and the position. -/
structure CsrFrame (s t : State) : Prop where
  rest : t = { s with cores := t.cores }
  others : ∀ c, c ≠ s.curCore → t.core c = s.core c
  contexts : ∀ x, x ≠ s.curCtx → t.ctx s.curCore x = s.ctx s.curCore x
  registers : t.me.globs = s.me.globs ∧ t.me.vecs = s.me.vecs ∧ t.me.masks = s.me.masks ∧ t.mine.ram = s.mine.ram
  memory : ∀ p, t.byteAt p = s.byteAt p

/-- The registers that a write sets field by field, with the bits that are RW (03 R79, 00 R8): AGE, RSLO, RSHI, SPILLP, ECAUSE, EINFO,
REPST, DEPEN, STALETMO, CTMO, HMSG, MXK, MXSA, MXSB, MXCFG, MXBAR and EPC. -/
def plainCsrs : List (Nat × Nat) :=
  [(0x002, 2 ^ 64 - 1), (0x004, 0xFFF), (0x005, 0x1FFF), (0x006, 2 ^ 64 - 1), (0x009, 2 ^ 56 - 4), (0x00A, 0xFFFFFFFF000000FF),
    (0x00B, 2 ^ 64 - 1), (0x00C, 0x80000007FFFFFFFF), (0x012, 0xFE), (0x105, 0xFFFFFFFF), (0x106, 0xFFFFFFFF), (0x107, 0x7FE),
    (0x200, 0x1FFFF), (0x201, 0xFFFFFFFF), (0x202, 0xFFFFFFFF), (0x203, 0x0000FFFF1FFF000F), (0x204, 0xFFFFFFFFFFFFFFE1)]

/-- 10 R232, 03 R80: csrr reads into d. csrw writes the register's RW bits and leaves its reserved ones zero; csrs and csrc give d the old
value and set or clear the bits of a, and with a = x0 write nothing. No other register of the plain list changes. -/
def Parts.CsrAccess : Prop :=
  ∀ (m : Bool) (d a : BitVec 5) (c : BitVec 12),
    ScalarResult (.csrr m d c) m d (fun s => s.csrRead s.curCore s.curCtx c.toNat) ∧
    (∀ i ∈ [Instr.csrs m d 0 c, .csrc m d 0 c], ScalarResult i m d (fun s => s.csrRead s.curCore s.curCtx c.toNat)) ∧
    ∀ (mask : Nat) (s : State), (c.toNat, mask) ∈ plainCsrs → s.NoTrapDue m →
      (∃ t, exec (.csrw m a c) s = .next t ∧ s.Advanced t m ∧ CsrFrame s t ∧
        t.csrRead s.curCore s.curCtx c.toNat = s.reg a &&& BitVec.ofNat 64 mask ∧
        ∀ n k, (n, k) ∈ plainCsrs → n ≠ c.toNat → t.csrRead s.curCore s.curCtx n = s.csrRead s.curCore s.curCtx n) ∧
      (a ≠ 0 → ∀ (i : Instr) (v : Word), (i, v) ∈ [(Instr.csrs m d a c, s.csrRead s.curCore s.curCtx c.toNat ||| s.reg a),
          (.csrc m d a c, s.csrRead s.curCore s.curCtx c.toNat &&& ~~~(s.reg a))] →
        ∃ t, exec i s = .next t ∧ s.Advanced t m ∧ t.csrRead s.curCore s.curCtx c.toNat = v &&& BitVec.ofNat 64 mask ∧
          t.readDst s.curCore s.curCtx (s.dst d) = (if s.dst d = .none then 0 else s.csrRead s.curCore s.curCtx c.toNat) ∧
          (∀ e, e ≠ s.dst d → t.readDst s.curCore s.curCtx e = s.readDst s.curCore s.curCtx e) ∧ ∀ p, t.byteAt p = s.byteAt p)

/-- 03 R79, R80, 10 R214, 17 R349, 02 R53, R55: registers with a rule of their own. A write that the table denies faults PRIV in user mode
and is discarded in supervisor mode; INH of TVEC stays; RMODE ignores a value above 4; LFSR takes 1 for 0. -/
def Parts.CsrRules : Prop :=
  ∀ (m : Bool) (a : BitVec 5) (s : State), s.NoTrapDue m →
    (∀ c : BitVec 12, s.csrDenied c.toNat = true → s.me.mode = .user → exec (.csrw m a c) s = .next (s.faultHere
      { cause := .priv, info := 0, addr := 0, undeliv := false })) ∧
    (∀ c : BitVec 12, s.csrDenied c.toNat = true → s.me.mode = .supervisor → ∃ t, exec (.csrw m a c) s = .next t ∧ s.Moves t ∧ s.Advanced t m) ∧
    (∀ n, s.csrDenied n = true ↔ (n ∈ [0x013, 0x100, 0x103, 0x104] ∨ (s.me.mode = .user ∧
      (n ∈ [0x003, 0x101, 0x102, 0x205] ∨ (0x110 ≤ n ∧ n ≤ 0x113) ∨ (0x120 ≤ n ∧ n ≤ 0x127))))) ∧
    (∃ t, exec (.csrw m a 0x008) s = .next t ∧ s.Advanced t m ∧ CsrFrame s t ∧ t.me.inh = s.me.inh ∧
      t.me.tvec = BitVec.ofNat 64 ((s.reg a).toNat / 4 * 4)) ∧
    (∃ t, exec (.csrw m a 0x010) s = .next t ∧ s.Advanced t m ∧ CsrFrame s t ∧
      t.me.rmode = if (s.reg a).toNat % 8 ≤ 4 then (s.reg a).setWidth 3 else s.me.rmode) ∧
    (∃ t, exec (.csrw m a 0x011) s = .next t ∧ s.Advanced t m ∧ CsrFrame s t ∧
      t.me.lfsr = if (s.reg a).setWidth 32 = 0#32 then 1 else (s.reg a).setWidth 32) ∧
    (s.me.mode = .supervisor → ∃ t, exec (.csrw m a 0x003) s = .next t ∧ s.Advanced t m ∧ t.me.base = (s.reg a).setWidth 12 ∧
      t.me.low = (s.reg a).extractLsb' 16 12 ∧ t.me.wpend = (s.reg a).extractLsb' 62 2 ∧ t.me.globs = s.me.globs ∧
      t.mine.ram = s.mine.ram ∧ ∀ p, t.byteAt p = s.byteAt p) ∧
    (∀ j, j < 4 → s.me.mode = .supervisor → ∃ t, exec (.csrw m a (BitVec.ofNat 12 (0x110 + j))) s = .next t ∧ s.Advanced t m ∧
      CsrFrame s t ∧ tget t.mine.grp j 0 = (s.reg a).setWidth 9) ∧
    (∀ j, j < 4 → ∃ t, exec (.csrw m a (BitVec.ofNat 12 (0x118 + j))) s = .next t ∧ s.Advanced t m ∧
      CsrFrame s t ∧ tget t.mine.capt j 0 = (s.reg a).setWidth 25)

/-- Control registers (03 R79, R80, 10 R232). -/
def Obligations.ControlRegisters : Prop := Parts.CsrAccess ∧ Parts.CsrRules

/-- CTX and CORE of a supervisor descriptor name context x of core c, which is not being migrated and so is not waited for (17 R357, R363). -/
def Names (s : State) (w : Word) (c x : Nat) : Prop :=
  fld w 13 4 = x ∧ x < 11 ∧ s.forwarded (fld w 0 13) = c ∧ w.getLsbD 33 = false ∧ (s.core c).moving = false

/-- A status in register d, and the position moved on (17 R357). -/
structure StatusGiven (s t : State) (m : Bool) (d : BitVec 5) (status : Nat) : Prop where
  position : t.me.pc = s.me.advance.pc
  value : t.readDst s.curCore s.curCtx (s.dst d) = if s.dst d = .none then 0 else BitVec.ofNat 64 status
  registers : ∀ e, e ≠ s.dst d → t.readDst s.curCore s.curCtx e = s.readDst s.curCore s.curCtx e
  memory : ∀ p, t.byteAt p = s.byteAt p

/-- 03 R77, 17 R357 to R361: halt, resume, kill and migr fault PRIV in user mode; a context number of 11 to 14 gives status 2. halt stops a
live context of another core where it stands, keeping what it waits for, and leaves a dormant one; resume lets a halted one go on at its
resume point, or at its EPC when the descriptor asks, stepping over breakpoints, and gives status 1 when none is halted; kill of a helper
ends it with the code in bits 47 to 40 and bit 63 set as its exit value, and gives status 1 when it is dormant; migr gives status 2 for a
position that is no compute core and 1 for a core without a launch. -/
def Parts.Supervision : Prop :=
  ∀ (m : Bool) (d a : BitVec 5) (s : State) (c x : Nat), s.NoTrapDue m →
    (s.me.mode = .user → ∀ i ∈ [Instr.halt m d a, .resume m d a, .kill m d a, .migr m d a], exec i s = .next (s.faultHere
      { cause := .priv, info := 0, addr := 0, undeliv := false })) ∧
    (s.me.mode = .supervisor → 11 ≤ fld (s.reg a) 13 4 → fld (s.reg a) 13 4 ≤ 14 → ∀ i ∈ [Instr.halt m d a, .resume m d a, .kill m d a],
      ∃ t, exec i s = .next t ∧ StatusGiven s t m d 2 ∧ s.Advanced t m) ∧
    (s.me.mode = .supervisor → Names s (s.reg a) c x → c ≠ s.curCore →
      (∃ t, exec (.halt m d a) s = .next t ∧ StatusGiven s t m d 0 ∧ s.Advanced t m ∧ (∀ y, y ≠ x → t.ctx c y = s.ctx c y) ∧
        (∀ k, k ≠ c → k ≠ s.curCore → t.core k = s.core k) ∧
        ((s.ctx c x).st = .dormant ∨ (s.ctx c x).st = .halted → t.ctx c x = s.ctx c x) ∧
        ((s.ctx c x).st ≠ .dormant → t.ctx c x = { s.ctx c x with st := .halted })) ∧
      ((s.ctx c x).st ≠ .halted → (s.core c).treeHalted = false → ∃ t, exec (.resume m d a) s = .next t ∧ StatusGiven s t m d 1 ∧ s.Advanced t m ∧ t.core c = s.core c) ∧
      ((s.ctx c x).st = .halted → (s.ctx c x).ranged = false → (s.ctx c x).wait = .none → (s.ctx c x).ptrap = none → (s.ctx c x).rep = none →
        (s.ctx c x).repst.getLsbD 63 = false →
        ∃ t, exec (.resume m d a) s = .next t ∧ StatusGiven s t m d 0 ∧ s.Advanced t m ∧ (∀ y, y ≠ x → t.ctx c y = s.ctx c y) ∧
          (t.ctx c x).st = .ready ∧ (t.ctx c x).pc = (if (s.reg a).getLsbD 32 then (s.ctx c x).epc else (s.ctx c x).pc) ∧
          (t.ctx c x).stepOver = true ∧ (t.ctx c x).fetched = [] ∧ (∀ r, t.readDst c x r = s.readDst c x r)) ∧
      ((s.ctx c x).st = .dormant → ∃ t, exec (.kill m d a) s = .next t ∧ StatusGiven s t m d 1 ∧ s.Advanced t m ∧ t.core c = s.core c) ∧
      (x ≠ 0 → (s.ctx c x).st ≠ .dormant → ∃ t, exec (.kill m d a) s = .next t ∧ StatusGiven s t m d 0 ∧
        (t.ctx c x).st = .dormant ∧ (t.ctx c x).exitVal = BitVec.ofNat 64 (2 ^ 63 + fld (s.reg a) 40 8) ∧
        (t.core c).ram = (s.core c).ram ∧ (∀ y, y ≠ x → t.ctx c y = s.ctx c y))) ∧
    (s.me.mode = .supervisor → c = s.forwarded (fld (s.reg a) 0 13) → c ≠ s.curCore → (s.core c).moving = false → s.me.keptNow = none →
      ((s.isCompute c = false ∨ s.isCompute (fld (s.reg a) 48 13) = false) →
        ∃ t, exec (.migr m d a) s = .next t ∧ StatusGiven s t m d 2 ∧ s.Advanced t m ∧ t.fwds = s.fwds) ∧
      (s.isCompute c = true → s.isCompute (fld (s.reg a) 48 13) = true → (s.core c).queue = none →
        ∃ t, exec (.migr m d a) s = .next t ∧ StatusGiven s t m d 1 ∧ s.Advanced t m ∧ t.fwds = s.fwds))

/-- 17 R361 to R363, 13 R270: migr of a core that runs a launch to a free compute core begins its migration: the core issues nothing, but for
contributions that their routers have not taken, and holds its arrivals, and the issuer is parked. The migration goes on by itself: a core with
something outstanding only waits; one that has nothing outstanding, an empty first-level cache, no matrix operation and no scratch moves to a
core of the same domain: the contexts, registers and TCM stand at the new position, a SAVED tile arrives LAZY, the old position runs nothing,
and a forwarding entry names the new one for what still arrives at the old. The issuer's migr waits while the core moves, gives status 0 when
it has, and 1 when the launch was killed meanwhile. -/
def Parts.Migration : Prop :=
  ∀ (m : Bool) (d a : BitVec 5) (s : State) (c new : Nat), s.NoTrapDue m → c ≠ s.curCore →
    (s.me.mode = .supervisor → c = s.forwarded (fld (s.reg a) 0 13) → new = fld (s.reg a) 48 13 → s.me.keptNow = none →
      ((s.core c).moving = true → ∃ t, exec (.migr m d a) s = .next t ∧ s.Moves t ∧ t.me.st = .parked ∧ t.me.pc = s.me.pc) ∧
      ((s.core c).moving = false → s.migrStatus c new = 0 → ∃ t, exec (.migr m d a) s = .next t ∧ (t.core c).moving = true ∧
        (t.core c).mover = some (s.curCore, s.curCtx, new) ∧ t.agenda = s.agenda ++ [.migr c 1] ∧ t.me.st = .parked ∧ t.me.pc = s.me.pc ∧
        t.me.keptNow = some [c, new, 0] ∧ t.fwds = s.fwds ∧ s.SameRegisters t ∧ (∀ x, t.ctx c x = s.ctx c x) ∧
        ∀ x, (s.ctx c x).wait ≠ .router → t.mayIssue c x = false)) ∧
    (s.me.mode = .supervisor → s.me.keptNow = some [c, new, 0] →
      ((s.core c).moving = true → ∃ t, exec (.migr m d a) s = .next t ∧ s.Moves t ∧ t.me.st = .parked ∧ t.me.pc = s.me.pc) ∧
      ((s.core c).moving = false → ∃ t, exec (.migr m d a) s = .next t ∧ StatusGiven s t m d 1 ∧ s.Advanced t m ∧ t.fwds = s.fwds)) ∧
    (s.me.mode = .supervisor → s.me.keptNow = some [c, new, 1] →
      ∃ t, exec (.migr m d a) s = .next t ∧ StatusGiven s t m d 0 ∧ s.Advanced t m ∧ t.fwds = s.fwds) ∧
    (∀ i x, (s.core c).mover = some (i, x, new) → s.drained c = false → s.migrGo c = { s with agenda := s.agenda ++ [.migr c 1] }) ∧
    (∀ i x q, (s.core c).mover = some (i, x, new) → i ≠ c → i ≠ new → new ≠ c → (∀ f ∈ s.fwds, f.old ≠ i) → (s.core c).queue = some q →
      s.drained c = true → (s.core c).ops = [] → (s.core new).ops = [] → (s.core c).l1 = [] → s.returning c = false → (s.core c).mxq = [] →
      s.scrubs? new = false → (s.core c).bsplit = 0 → (s.core new).bsplit = 0 → (s.core new).domain = (s.core c).domain →
      (s.dbgOf (clusterOf new)).frozen = false → ∀ t, t = s.migrGo c →
        t.fwds = s.fwds ++ [{ old := c, new := new, queue := q }] ∧ ((∀ f ∈ s.fwds, f.old ≠ c) → t.forwarded c = new) ∧
        (∀ n p, (s.ctx i x).kept = some (n, p, [c, new, 0]) → (t.ctx i x).kept = some (n, p, [c, new, 1])) ∧
        (t.core new).moving = false ∧ (t.core c).moving = false ∧
        (t.core new).ram = (s.core c).ram ∧ (t.core new).tcm = (s.core c).tcm ∧
        (∀ i, (t.core new).tile i = if ((s.core c).tile i).st = 1 then { (s.core c).tile i with st := 3, content := [] } else (s.core c).tile i) ∧
        (t.core new).queue = some q ∧ (t.core new).deque = (s.core c).deque ∧ (t.core new).ringLo = (s.core c).ringLo ∧
        (t.core new).ringHi = (s.core c).ringHi ∧ (t.core new).domain = (s.core c).domain ∧
        (∀ x, (t.ctx new x).pc = (s.ctx c x).pc ∧ (t.ctx new x).globs = (s.ctx c x).globs ∧ (t.ctx new x).vecs = (s.ctx c x).vecs ∧
          (t.ctx new x).masks = (s.ctx c x).masks ∧ (t.ctx new x).mode = (s.ctx c x).mode ∧ (t.ctx new x).st = (s.ctx c x).st) ∧
        (t.core c).queue = none ∧ ∀ x, (t.ctx c x).st = .dormant)

/-- The supervisor instructions (17 R357 to R363). It rests on the model's own choices in log entries 11 and 21. -/
def Obligations.SupervisorInstructions : Prop := Parts.Supervision ∧ Parts.Migration

/-! ### Tiles and the matrix unit (13 R268 to R288, 09 R210 to R212) -/

/-- The frame of an instruction that changes tile t alone: other tiles, every register and every byte of memory stay. -/
structure TileFrame (s t : State) (n : Nat) : Prop extends State.OnlyMine s t where
  core : t.mine = { s.mine with ctxs := t.mine.ctxs, tiles := t.mine.tiles }
  contexts : ∀ x, x ≠ s.curCtx → t.ctx s.curCore x = s.ctx s.curCore x
  me : t.me = s.me.At t.me
  tiles : ∀ j, j ≠ n → t.mine.tile j = s.mine.tile j
  memory : ∀ p, t.byteAt p = s.byteAt p

/-- A tile that instructions may use at once: not BUSY, of a valid shape, and not LAZY (13 R268, R270, R283). -/
structure TileReady (s : State) (n : Nat) : Prop where
  idle : s.mine.tileBusy n = false
  shape : shapeOk (s.mine.tile n).rows (s.mine.tile n).rowb (s.mine.tile n).fmt = true
  loaded : (s.mine.tile n).st ≠ 3

/-- 13 R268, R272, R274, R283: the tile instructions that use no memory. tcfg takes a valid shape, or ROWS = 0 for none, and clears the
tile, and faults ILLEGAL on an invalid one; tzero clears; tvrow and tvcol write a row or a column inside the shape and make the tile DIRTY;
trowv and tcolv give one later, zero outside the shape; tstat gives TSHAPE later and never waits. A BUSY tile holds the context, a tile
without a shape faults TILE_UNCONF, and reading a poisoned one faults POISON, each with the tile's number. It rests on the model's own
choice in log entry 38. -/
def Obligations.TileRegisters : Prop :=
  ∀ (m : Bool) (t : BitVec 3) (a : BitVec 5) (i : BitVec 6),
    Delays (fun _ => True) (.tstat m t a) m (fun _ => 0) (fun s l => l = [.scalar (s.dst a) (BitVec.ofNat 64
      ((s.mine.tile t.toNat).rows + (s.mine.tile t.toNat).rowb * 2 ^ 8 + (s.mine.tile t.toNat).fmt * 2 ^ 16 + (s.mine.tile t.toNat).st * 2 ^ 24 +
        (s.mine.tile t.toNat).psn.toNat * 2 ^ 26 + (s.mine.tileBusy t.toNat).toNat * 2 ^ 27))]) ∧
    Delays (fun s => TileReady s t.toNat ∧ (s.mine.tile t.toNat).psn = false) (.trowv m t a i) m (fun _ => 0) (fun s l =>
      ∃ v, l = [.vec a.toNat v (BitVec.allOnes 512)] ∧ ∀ j, j < 64 → lane 1 v j =
        if i.toNat < (s.mine.tile t.toNat).rows ∧ j < (s.mine.tile t.toNat).rowb then lane 1 ((s.mine.tile t.toNat).row i.toNat) j else 0) ∧
    Delays (fun s => TileReady s t.toNat ∧ (s.mine.tile t.toNat).psn = false) (.tcolv m t a i) m (fun _ => 0) (fun s l =>
      ∃ v, l = [.vec a.toNat v (BitVec.allOnes 512)] ∧ ∀ e, e = fmtBytes (s.mine.tile t.toNat).fmt → ∀ j, j < 64 / e → lane e v j =
        if j < (s.mine.tile t.toNat).rows ∧ i.toNat < (s.mine.tile t.toNat).rowb / e
        then lane e ((s.mine.tile t.toNat).row j) i.toNat else 0) ∧
    ∀ s : State, s.NoTrapDue m →
      (s.mine.tileBusy t.toNat = true → ∀ k ∈ [Instr.tcfg m t a, .tzero m t, .tldr m t a i, .tstr m t a i, .tvrow m t a i, .trowv m t a i,
        .tvcol m t a i, .tcolv m t a i, .tsave m t], ∃ u, exec k s = .next u ∧ s.Moves u ∧ u.me.st = .held ∧ u.me.pc = s.me.pc) ∧
      (s.mine.tileBusy t.toNat = false → (s.mine.tile t.toNat).rows = 0 → ∀ k ∈ [Instr.tzero m t, .tldr m t a i, .tstr m t a i,
        .tvrow m t a i, .trowv m t a i, .tvcol m t a i, .tcolv m t a i, .tsave m t], exec k s = .next (s.faultHere
          { cause := .tileUnconf, info := BitVec.ofNat 32 t.toNat, addr := 0, undeliv := false })) ∧
      (TileReady s t.toNat → (s.mine.tile t.toNat).psn = true → ∀ k ∈ [Instr.tstr m t a i, .trowv m t a i, .tcolv m t a i],
        exec k s = .next (s.faultHere { cause := .poison, info := BitVec.ofNat 32 t.toNat, addr := 0, undeliv := false })) ∧
      (s.mine.tileBusy t.toNat = false →
        (fld (s.reg a) 0 5 = 0 ∨ shapeOk (fld (s.reg a) 0 5) (fld (s.reg a) 8 7) (fld (s.reg a) 16 5) = true →
          ∃ u, exec (.tcfg m t a) s = .next u ∧ s.Advanced u m ∧ TileFrame s u t.toNat ∧
            u.mine.tile t.toNat = Tile.mk (fld (s.reg a) 0 5) (fld (s.reg a) 8 7) (fld (s.reg a) 16 5) 0 false []) ∧
        (fld (s.reg a) 0 5 ≠ 0 → shapeOk (fld (s.reg a) 0 5) (fld (s.reg a) 8 7) (fld (s.reg a) 16 5) = false →
          exec (.tcfg m t a) s = .next (s.faultHere
            { cause := .illegal, info := encodeWord (.tcfg m t a), addr := 0, undeliv := false })) ∧
        ((s.mine.tile t.toNat).rows ≠ 0 → ∃ u, exec (.tzero m t) s = .next u ∧ s.Advanced u m ∧ TileFrame s u t.toNat ∧
          u.mine.tile t.toNat = { s.mine.tile t.toNat with st := 0, psn := false, content := [] })) ∧
      (TileReady s t.toNat →
        (∃ u, exec (.tvrow m t a i) s = .next u ∧ s.Advanced u m ∧ TileFrame s u t.toNat ∧
          (i.toNat < (s.mine.tile t.toNat).rows → (u.mine.tile t.toNat).st = 2 ∧
            (∀ j, j < (s.mine.tile t.toNat).rowb → lane 1 ((u.mine.tile t.toNat).row i.toNat) j = lane 1 (s.vreg a) j) ∧
            ∀ r, r ≠ i.toNat → (u.mine.tile t.toNat).row r = (s.mine.tile t.toNat).row r) ∧
          ((s.mine.tile t.toNat).rows ≤ i.toNat → u.mine.tile t.toNat = s.mine.tile t.toNat)) ∧
        (∀ e, e = fmtBytes (s.mine.tile t.toNat).fmt → ∃ u, exec (.tvcol m t a i) s = .next u ∧ s.Advanced u m ∧ TileFrame s u t.toNat ∧
          (i.toNat < (s.mine.tile t.toNat).rowb / e → (u.mine.tile t.toNat).st = 2 ∧ ∀ r, r < (s.mine.tile t.toNat).rows →
            ∀ j, j < (s.mine.tile t.toNat).rowb / e → lane e ((u.mine.tile t.toNat).row r) j =
              if j = i.toNat then lane e (s.vreg a) r else lane e ((s.mine.tile t.toNat).row r) j) ∧
          ((s.mine.tile t.toNat).rowb / e ≤ i.toNat → u.mine.tile t.toNat = s.mine.tile t.toNat)))

/-- 13 R271, R274: tldr, tstr and tsave on the TCM. A row inside the shape is loaded when the load returns, or its bytes are stored at once;
a row outside it moves on; a row of 4-byte alignment that does not cross a unit is one access. tsave stores sixteen rows of 64 bytes at
TSAVEP + 1024 times the tile, zero outside the shape, and leaves the tile SAVED; a SAVED tile moves on. -/
def Obligations.TileMemory : Prop :=
  ∀ (m : Bool) (t : BitVec 3) (a : BitVec 5) (i : BitVec 6) (s : State) (off n : Nat) (v : Tile), s.NoTrapDue m → TileReady s t.toNat →
      v = s.mine.tile t.toNat → n = v.rowb →
    (v.rows ≤ i.toNat → (∃ u, exec (.tldr m t a i) s = .next u ∧ s.Moves u ∧ s.Advanced u m) ∧
      (v.psn = false → ∃ u, exec (.tstr m t a i) s = .next u ∧ s.Moves u ∧ s.Advanced u m)) ∧
    (i.toNat < v.rows → (ptrVa (s.reg a)).toNat = 2 ^ 55 + off → off % 4 = 0 → off % 128 + n ≤ 128 → off + n ≤ 0x10000 →
      (s.AccessFree (ptrVa (s.reg a)) n true false → ∃ u o, exec (.tldr m t a i) s = .next u ∧ s.ReadIssued u o ∧ s.Advanced u m ∧
        o.fin = .tileRow t.toNat i.toNat ∧ o.lanes = [s.tcmLane 0 (ptrVa (s.reg a)) n off]) ∧
      (v.psn = false → s.AccessFree (ptrVa (s.reg a)) n false true → ∃ u, exec (.tstr m t a i) s = .next u ∧ s.Advanced u m ∧
        s.StoreFrame u (fun p => ∃ j, j < n ∧ p = .tcm s.curCore (off + j)) ∧
        ∀ j, j < n → (u.byteAt (.tcm s.curCore (off + j))).toNat = lane 1 (v.row i.toNat) j)) ∧
    (v.st = 1 → ∃ u, exec (.tsave m t) s = .next u ∧ s.Moves u ∧ s.Advanced u m) ∧
    (v.st ≠ 1 → s.mine.tsavep.toNat % 2 ^ 56 + 1024 * t.toNat = 2 ^ 55 + off → off % 64 = 0 → off + 1024 ≤ 0x10000 →
      (∀ j, j < 16 → s.AccessFree (BitVec.ofNat 56 (2 ^ 55 + off + 64 * j)) 64 false true) →
      ∃ u, exec (.tsave m t) s = .next u ∧ s.Advanced u m ∧ u.mine.tile t.toNat = { v with st := 1 } ∧
        (∀ j, j ≠ t.toNat → u.mine.tile j = s.mine.tile j) ∧ s.SameRegisters u ∧ u.me = s.me.At u.me ∧
        (∀ r j, r < 16 → j < 64 → (u.byteAt (.tcm s.curCore (off + 64 * r + j))).toNat =
          if r < v.rows ∧ j < n then lane 1 (v.row r) j else 0) ∧
        s.SameBytes u fun p => ∃ j, j < 1024 ∧ p = .tcm s.curCore (off + j))

/-- The registers that a matrix operation captures at issue (13 R275). -/
structure Captured (s : State) (o : MxOp) (t : Nat) (neg : Bool) (a b : Word) : Prop where
  operands : o.tile = t ∧ o.neg = neg ∧ o.a = a ∧ o.b = b ∧ o.k = s.mine.mxk.toNat ∧ o.sa = s.mine.mxsa ∧ o.sb = s.mine.mxsb
  config : o.acc = s.mine.mxcfg.getLsbD 0 ∧ o.grp = fld s.mine.mxcfg 1 3 ∧ o.bar = s.mine.mxbar
  origin : o.mode = s.me.mode ∧ o.origin = s.curCore ∧ o.launch = (s.launchOf s.curCore).map fun l => l.serial
  fresh : o.step = 0 ∧ o.begun = false ∧ o.opErr = false ∧ o.uncorr = false ∧ o.abandoned = false

/-- Operands that lie in main memory at their alignment, with their strides, and no barrier object (13 R280 order 5). -/
def OperandsOk (s : State) (a b : Word) : Prop :=
  (ptrVa a).toNat % elemAlign (ptrFmt a) = 0 ∧ (ptrVa b).toNat % elemAlign (ptrFmt b) = 0 ∧
    s.mine.mxsa.toNat % elemAlign (ptrFmt a) = 0 ∧ s.mine.mxsb.toNat % elemAlign (ptrFmt b) = 0 ∧
    (ptrVa a).getLsbD 55 = false ∧ (ptrVa b).getLsbD 55 = false ∧ s.mine.mxbar.toNat % 2 ^ 56 / 32 = 0

/-- 13 R275 to R283, R287: mxw writes an engine register and mxr gives one later; a user write of MXSTEP faults PRIV. mma holds its context while a tile of its group is BUSY or the queue holds four, and then, its checks passed in order, queues an operation with
the registers as they stand; mmar sends it to the core and under the tag that MXCFG names, with the issuer's groups. A tile without a shape faults TILE_UNCONF, and
an unsupported pair or group ILLEGAL. -/
def Obligations.MatrixInstructions : Prop :=
  ∀ (m : Bool) (t : BitVec 3) (a b : BitVec 5) (n : BitVec 1) (r : BitVec 8) (s : State), s.NoTrapDue m → r.toNat < 6 →
    Delays (fun _ => True) (.mxr m a r) m (fun _ => 0) (fun s l => l = [.scalar (s.dst a) (s.csrRead s.curCore s.curCtx (0x200 + r.toNat))]) ∧
    (s.me.mode = .user → r = 5 → exec (.mxw m a r) s = .next (s.faultHere { cause := .priv, info := 0, addr := 0, undeliv := false })) ∧
    (∀ mask, (0x200 + r.toNat, mask) ∈ plainCsrs → ∃ u, exec (.mxw m a r) s = .next u ∧ s.Advanced u m ∧ CsrFrame s u ∧
      u.csrRead s.curCore s.curCtx (0x200 + r.toNat) = s.reg a &&& BitVec.ofNat 64 mask) ∧
    (EngineFree s → ∀ ts, ts = groupTiles (fld s.mine.mxcfg 1 3) t.toNat →
      ((∃ i ∈ ts, s.mine.tileBusy i = true) ∨ 4 ≤ s.mine.mxq.length →
        ∃ u, exec (.mma m t a b n) s = .next u ∧ s.Moves u ∧ u.me.st = .held ∧ u.me.pc = s.me.pc) ∧
      ((∀ i ∈ ts, s.mine.tileBusy i = false) → s.mine.mxq.length < 4 →
        ((∃ i ∈ ts, (s.mine.tile i).rows = 0) → ∃ i ∈ ts, (s.mine.tile i).rows = 0 ∧ exec (.mma m t a b n) s = .next (s.faultHere
          { cause := .tileUnconf, info := BitVec.ofNat 32 i, addr := 0, undeliv := false })) ∧
        ((∀ i ∈ ts, (s.mine.tile i).rows ≠ 0 ∧ (s.mine.tile i).st ≠ 3) →
          (pairOk (s.reg a) (s.reg b) s.mine.mxk.toNat = none ∨ groupOk (fld s.mine.mxcfg 1 3) t.toNat = false →
            exec (.mma m t a b n) s = .next (s.faultHere
              { cause := .illegal, info := encodeWord (.mma m t a b n), addr := 0, undeliv := false })) ∧
          (∀ dst, pairOk (s.reg a) (s.reg b) s.mine.mxk.toNat = some dst → groupOk (fld s.mine.mxcfg 1 3) t.toNat = true →
            s.mine.groupShapes (fld s.mine.mxcfg 1 3) t.toNat dst = true → (∀ i ∈ ts, (s.mine.tile i).psn = false) →
            OperandsOk s (s.reg a) (s.reg b) →
            ∃ u o, exec (.mma m t a b n) s = .next u ∧ s.Advanced u m ∧ s.SameRegisters u ∧
              (∀ p, u.byteAt p = s.byteAt p) ∧ u.mine.tiles = s.mine.tiles ∧ u.mine.mxq = s.mine.mxq ++ [o] ∧ o.issuer = some s.curCtx ∧
              Captured s o t.toNat (decide (n = 1)) (s.reg a) (s.reg b))))) ∧
    (EngineFree s →
      (pairOk (s.reg a) (s.reg b) s.mine.mxk.toNat = none ∨ groupOk (fld s.mine.mxcfg 1 3) t.toNat = false →
        exec (.mmar m t a b n) s = .next (s.faultHere
          { cause := .illegal, info := encodeWord (.mmar m t a b n), addr := 0, undeliv := false })) ∧
      ((pairOk (s.reg a) (s.reg b) s.mine.mxk.toNat).isSome = true → groupOk (fld s.mine.mxcfg 1 3) t.toNat = true →
        OperandsOk s (s.reg a) (s.reg b) → ∃ u o gs, exec (.mmar m t a b n) s = .next u ∧ s.Advanced u m ∧ s.SameRegisters u ∧
          (∀ p, u.byteAt p = s.byteAt p) ∧ u.mine.mxq = s.mine.mxq ∧ o.issuer = none ∧ Captured s o t.toNat (decide (n = 1)) (s.reg a) (s.reg b) ∧
          u.net = s.net ++ [flying s.nextId (.mmar (fld s.mine.mxcfg 16 13) o (BitVec.ofNat 16 (fld s.mine.mxcfg 32 16)) gs)] ∧
          ∀ g, g ∈ gs ↔ ∃ j, j < 4 ∧ (tget s.mine.grp j 0).getLsbD 8 = true ∧ (tget s.mine.grp j 0).setWidth 8 = g))

/-- 13 R281, R284, R285, R287, 09 R208, R212, 02 R59: the sequencer. A step reads its units, keeps those that it has while it waits, adds to
every element of the group the exact sum of its K indices' INT8 products modulo 2^32, or accumulates them in the order of the pair, and lets
its pins go; it counts. An operand that is poisoned poisons the tiles and changes no element; one that is refused may leave elements updated.
An operation with its steps done, or with an error, leaves the queue and its tiles cease to be BUSY; one that is stopped or interrupted
stands once the step that it has begun is over, and only then do PEND and STEP say so. A command that its target captures joins its queue, whole, and one that its target's
registers do not capture, or whose launch its target no longer runs, and that names no object to complete at, is dropped. It rests on the
model's own choices in log entries 8 and 22. -/
def Obligations.MatrixSequencer : Prop :=
  (∀ (got : List OpUnit) (ra rb : Addr) (ks : List Nat) (c : Nat) (x y : Nat → Int),
      (∀ k ∈ ks, x k = (BitVec.ofNat 8 (operandBytes got (ra + BitVec.ofInt 56 k).toNat 1)).toInt ∧
        y k = (BitVec.ofNat 8 (operandBytes got (rb + BitVec.ofInt 56 k).toNat 1)).toInt) →
    (accumulate got false 1 1 ra rb ks c).1 = (BitVec.ofInt 32 (c + (ks.map fun k => x k * y k).sum)).toNat ∧
    (accumulate got true 1 1 ra rb ks c).1 = (BitVec.ofInt 32 (c - (ks.map fun k => x k * y k).sum)).toNat) ∧
  (∀ (s u : State) (core : Nat) (o : MxOp) (l : List MxOp) (v : Tile), (s.core core).mxq = o :: l →
      v = (s.core core).tile o.tile → shapeOk v.rows v.rowb v.fmt = true →
      (∀ j ∈ o.tiles, ((s.core core).tile j).rows = v.rows ∧ ((s.core core).tile j).rowb = v.rowb) →
    ((s.core core).mxstop ≠ 0 → (s.core core).mxbuf = [] → o.abandoned = false → exec (.matrixStep core) s = .next s) ∧
    ((s.core core).mxstop = 0 → (s.core core).mxbuf = [] → (s.core core).mxpend = false → o.abandoned = false → o.begun = true →
      o.opErr = true ∨ (o.k + 31) / 32 ≤ o.step → o.bar.toNat % 2 ^ 56 / 32 = 0 →
        ∃ t, exec (.matrixStep core) s = .next t ∧ (t.core core).mxq = l ∧ (t.core core).tiles = (s.core core).tiles ∧
          ∀ p, t.byteAt p = s.byteAt p) ∧
    (∀ s₀ f, o.begun = true → o.opErr = false → o.step < (o.k + 31) / 32 → ((s.core core).mxbuf ≠ [] ∧ s₀ = s) ∨ ((s.core core).mxbuf = [] ∧
        (s.core core).mxstop = 0 ∧ (s.core core).mxpend = false ∧ o.abandoned = false ∧ s₀ = s.modCore core fun k => k.setMx o) →
      s₀.fetchUnits core (decide (o.mode = .supervisor)) (o.units (s.core core) o.step) = (u, f) → (u.core core).mxq = o :: l → (u.core core).tiles = (s.core core).tiles →
      (f = .wait → exec (.matrixStep core) s = .next u) ∧
      (f = .all → ∃ t p, exec (.matrixStep core) s = .next t ∧ (t.core core).mxq = p :: l ∧ p.step = o.step + 1 ∧ p.opErr = false ∧
        p.tile = o.tile ∧ (t.core core).mxbuf = [] ∧
        (∀ r c, r < (o.dims (s.core core)).1 → c < (o.dims (s.core core)).2 → (t.core core).groupElem o r c =
          (accumulate (u.core core).mxbuf o.neg (ptrFmt o.a) (ptrFmt o.b) (rowStart o.a o.sa r) (rowStart o.b o.sb c) (o.ks o.step)
            ((s.core core).groupElem o r c)).1 % 2 ^ 32) ∧
        (∀ j, j ∉ o.tiles → (t.core core).tile j = (s.core core).tile j) ∧ (t.core core).ram = (u.core core).ram ∧
        ((u.core core).mxstop ≠ 0 → o.abandoned = false → (t.core core).mxpend = true ∧ (t.core core).mxstep = BitVec.ofNat 32 (o.step + 1)) ∧
        ((u.core core).mxstop = 0 → (t.core core).mxpend = (u.core core).mxpend ∧ (t.core core).mxstep = (u.core core).mxstep) ∧
        ((u.core core).pins = [] → ∀ q, t.byteAt q = u.byteAt q)) ∧
      (f = .poison → ∃ t p, exec (.matrixStep core) s = .next t ∧ (t.core core).mxq = p :: l ∧ p.step = o.step ∧ p.opErr = true ∧
        p.uncorr = true ∧ (t.core core).mxbuf = [] ∧ ∀ j, j ∈ o.tiles → (t.core core).tile j = { (s.core core).tile j with psn := true }) ∧
      (f = .refused → ∃ t p, exec (.matrixStep core) s = .next t ∧ (t.core core).mxq = p :: l ∧ p.step = o.step ∧ p.opErr = true ∧
        (t.core core).mxbuf = [] ∧ ∀ j, j ∉ o.tiles → (t.core core).tile j = (s.core core).tile j))) ∧
  (∀ (s : State) (id dst core : Nat) (h : Hold) (o : MxOp) (tag : BitVec 16) (gs : List (BitVec 8)),
      s.flight? id = some (Flight.mk id h (.mmar dst o tag gs)) → core = s.forwarded dst → (s.core core).moving = false →
    (∀ x, s.isCompute core = true → s.launchOf core = some x → o.launch = some x.serial → (s.core core).captures tag gs = true →
      (∀ i ∈ groupTiles o.grp o.tile, (s.core core).tileBusy i = false ∧ ((s.core core).tile i).st ≠ 3) → (s.core core).admits o = true →
      (s.core core).mxq.length < 4 → ∃ t, exec (.mmarCommand id) s = .next t ∧ (t.core core).mxq = (s.core core).mxq ++ [o] ∧
        (t.core core).tiles = (s.core core).tiles ∧ t.net = dropFirst (fun f => f.id == id) s.net ∧ ∀ p, t.byteAt p = s.byteAt p) ∧
    ((∀ x, s.launchOf core = some x → o.launch ≠ some x.serial) ∨ (s.core core).captures tag gs = false → o.bar.toNat % 2 ^ 56 / 32 = 0 →
      exec (.mmarCommand id) s = .next (s.drop id)))

/-! ### The copy engine (09 R194 to R206) -/

/-- Channel n has begun the command of a block for the issuing context (09 R202, R204), and no other channel, register or byte has changed. -/
structure ChannelStarted (s t : State) (n : Nat) (blk : List Word) : Prop where
  command : (t.channel n).busy = true ∧ (t.channel n).blk = blk ∧ (t.channel n).malf = malformed blk (decide (s.me.mode = .supervisor)) ∧
    (t.channel n).lfsr = blkSeed blk
  issuer : (t.channel n).core = s.curCore ∧ (t.channel n).domain = s.mine.domain ∧ (t.channel n).mode = s.me.mode ∧
    (t.channel n).queue = s.mine.queue
  fresh : (t.channel n).written = [] ∧ (t.channel n).own = [] ∧ (t.channel n).beats = [] ∧ (t.channel n).units = 0 ∧ (t.channel n).fail = none ∧
    (t.channel n).cancel = false ∧ (t.channel n).nan = false ∧ (t.channel n).sat = false
  channels : ∀ k, k ≠ n → t.channel k = s.channel k
  registers : s.SameRegisters t
  memory : ∀ p, t.byteAt p = s.byteAt p

/-- A ce.start waits for its channel, and keeps its block and channel: it reads neither again (09 R204). -/
structure ChannelAwaited (s t : State) (n raw : Nat) : Prop where
  held : t.me.st = .held ∧ t.me.pc = s.me.pc ∧ t.me.keptNow = some [raw, n]
  channels : t.channels = s.channels
  registers : s.SameRegisters t
  memory : ∀ p, t.byteAt p = s.byteAt p

/-- The eight words of 64 bytes. -/
def blockWords (raw : Nat) : List Word := (List.range 8).map fun i => BitVec.ofNat 64 (bitsOf raw (64 * i) 64)

/-- 09 R202, R204 to R206: ce.start of a block in the TCM: an idle channel of the cluster takes the eight words, the issuer's core, domain
and mode, and whether the block is malformed; a busy one holds the context, which goes on with the block that it has read and checked; a
misaligned block faults MISALIGN, as does a misaligned barrier object, and MIG in user mode PRIV. ce.cancel marks a busy channel of the issuer's domain (or any, in supervisor mode) that has not failed; ce.stat gives its progress, or the
last status while it is idle, later. -/
def Parts.CopyInstructions : Prop :=
  ∀ (m : Bool) (a b : BitVec 5) (s : State) (n off raw : Nat) (blk : List Word), s.NoTrapDue m → off = tcmOff (ptrVa (s.reg a)) →
      n = 32 * clusterOf s.curCore + fld (s.reg b) 0 5 → blk = blockWords raw →
    Delays (fun _ => True) (.ceStat m a b) m (fun _ => 0) (fun s l => l = [.scalar (s.dst a)
      (s.chanStat (s.channel (32 * clusterOf s.curCore + fld (s.reg b) 0 5)))]) ∧
    (s.me.keptNow = none → EngineFree s →
      ((ptrVa (s.reg a)).toNat % 64 ≠ 0 → exec (.ceStart m a b) s = .next (s.faultHere
        { cause := .misalign, info := 0, addr := ptrVa (s.reg a), undeliv := false })) ∧
      (TcmAddr (ptrVa (s.reg a)) off 64 → s.AccessFree (ptrVa (s.reg a)) 64 true false → (∀ o ∈ s.mine.opsOf s.curCtx, o.fin ≠ .block) →
          raw = s.mine.tcm.read off 64 →
        (blkMig blk = true → s.me.mode = .user → exec (.ceStart m a b) s = .next (s.faultHere
          { cause := .priv, info := 0, addr := 0, undeliv := false })) ∧
        (blkMig blk = false ∨ s.me.mode = .supervisor →
          ((blkWord blk 5).toNat % 2 ^ 56 % 32 ≠ 0 → exec (.ceStart m a b) s = .next (s.faultHere
            { cause := .misalign, info := 0, addr := ptrVa (blkWord blk 5), undeliv := false })) ∧
          ((blkWord blk 5).toNat % 2 ^ 56 = 0 →
            ((s.channel n).busy = false → ∃ t, exec (.ceStart m a b) s = .next t ∧ s.Advanced t m ∧ ChannelStarted s t n blk) ∧
            ((s.channel n).busy = true → ∃ t, exec (.ceStart m a b) s = .next t ∧ ChannelAwaited s t n raw))))) ∧
    (∀ k, s.me.keptNow = some [raw, k] →
      ((s.channel k).busy = false → ∃ t, exec (.ceStart m a b) s = .next t ∧ s.Advanced t m ∧ ChannelStarted s t k blk) ∧
      ((s.channel k).busy = true → ∃ t, exec (.ceStart m a b) s = .next t ∧ ChannelAwaited s t k raw)) ∧
    ((s.channel n).busy = true → (s.me.mode = .supervisor ∨ (s.channel n).domain = s.mine.domain) →
      ∃ t, exec (.ceCancel m b) s = .next t ∧ s.Advanced t m ∧ s.SameRegisters t ∧ (∀ p, t.byteAt p = s.byteAt p) ∧
        (t.channel n) = { s.channel n with cancel := (s.channel n).fail.isNone && !(s.channel n).malf } ∧
        ∀ k, k ≠ n → t.channel k = s.channel k) ∧
    ((s.channel n).busy = false ∨ (s.me.mode = .user ∧ (s.channel n).domain ≠ s.mine.domain) →
      ∃ t, exec (.ceCancel m b) s = .next t ∧ s.Advanced t m ∧ s.Moves t)

/-- Byte a of local space is byte p of the TCM or the scratch of the module, for a write of channel n (09 R201). -/
def LocalByte (s : State) (n a : Nat) (p : ByteAt) : Prop :=
  ∃ c o, (s.localByte (s.chanCore n) (decide ((s.channel n).mode = .supervisor)) a true = .ok (.tcm c o) ∧ p = .tcm c o) ∨
    (s.localByte (s.chanCore n) (decide ((s.channel n).mode = .supervisor)) a true = .ok (.scratch c o) ∧ p = .scratch c o)

/-- What a window writes into local space (09 R196, R199): byte p changes only where a unit of the window has a byte that the command writes
there, and then it takes a byte that a part of the window gives for that address. `rd` gives the source's bytes. -/
def WindowWritten (s t : State) (n : Nat) (w : List Nat) (rd : Nat → Nat) (p : ByteAt) : Prop :=
  let b := (s.channel n).blk
  ((∀ u i, u ∈ w → i < 128 → (tget (windowDsts b w) u 0).testBit i = true → ¬ LocalByte s n (128 * u + i) p) → t.byteAt p = s.byteAt p) ∧
  ∀ u i, u ∈ w → i < 128 → (tget (windowDsts b w) u 0).testBit i = true → LocalByte s n (128 * u + i) p →
    ∃ q ∈ windowParts b w, ∃ st, ∃ z ∈ (copyPart b (s.channel n).lfsr rd q st).1, ∃ j, j < z.2.1 ∧
      LocalByte s n (z.1 + BitVec.ofNat 56 j).toNat p ∧ t.byteAt p = BitVec.ofNat 8 (bitsOf z.2.2 (8 * j) 8)

/-- 09 R196, R199 to R201, 24 R421, 06 R135: the channels. A window takes at most 64 destination units that no window has written; equal
formats copy their bytes as they stand. COPY_WINDOW of a command none of whose operations is on its way translates its destination, and a
refused address fails the command with its cause and nothing is written; with a destination in the TCM or scratch and every source unit read,
each byte of the window's units that some part of the command writes takes a byte of such a part, and no other byte changes. A failed,
malformed or cancelled command lets go what it owns and copies nothing more; a frozen channel begins no unit and lets nothing go.
COPY_COMPLETE gives the channel back with the low 16 bits of the status word: its malformed, failed, NaN, saturated and cancelled bits and
its cause. -/
def Parts.CopyChannels : Prop :=
  (∀ (b : CopyBlock) (w : List Nat) (u i : Nat), u ∈ w → i < 128 → ((tget (windowDsts b w) u 0).testBit i = true ↔
    ∃ p, p < blkParts b ∧ ∃ sp ∈ dstSpans b p, ∃ j, j < sp.2 ∧ (sp.1 + BitVec.ofNat 56 j).toNat = 128 * u + i)) ∧
  (∀ (b : CopyBlock) (done : List Nat) (q p : Nat) (l : List Nat), l.length ≤ 64 →
    (windowFrom b done q p l).length ≤ 64 ∧ ∀ u ∈ windowFrom b done q p l, u ∈ l ∨ u ∉ done) ∧
  (∀ (b : CopyBlock) (seed : BitVec 32) (rd : Nat → Nat) (p : Nat) (st : Conv), ptrFmt (blkSrc b) = ptrFmt (blkDst b) → ptrFmt (blkDst b) < 11 →
    copyPart b seed rd p st = (((dstSpans b p).zip (srcSpans b p)).map fun q => (q.1.1, q.1.2, readBytes rd q.2.1 q.1.2), st)) ∧
  (∀ (s : State) (cluster ch n : Nat) (b : CopyBlock), n = 32 * cluster + ch % 32 → (s.channel n).busy = true → s.chanOps n = [] →
      b = (s.channel n).blk →
    ((s.dbgOf cluster).frozen = false → (s.channel n).stopping = true → (s.channel n).beats = [] → ∃ t, exec (.copyWindow cluster ch) s = .next t ∧ (t.channel n).own = [] ∧
      (t.channel n).written = (s.channel n).written ∧ ((s.channel n).own = [] → ∀ p, t.byteAt p = s.byteAt p)) ∧
    ((s.dbgOf cluster).frozen = true → (∀ x ∈ (s.channel n).beats.head?, x.begun = false) →
      ∃ t, exec (.copyWindow cluster ch) s = .next t ∧ t.channel n = s.channel n ∧ ∀ p, t.byteAt p = s.byteAt p) ∧
    ((s.dbgOf cluster).frozen = false → (s.channel n).stopping = false → (s.channel n).beats = [] → (s.channel n).own = [] → ∀ w,
        w = windowFrom b (s.channel n).written (blkParts b) 0 [] → w ≠ [] →
      (∀ e u, (s.copyAcks n).copyTargets n .write (windowDsts b w) = (.error (some e), u) → u.channel n = s.channel n →
        ∃ t, exec (.copyWindow cluster ch) s = .next t ∧ t.channel n = { s.channel n with fail := some e } ∧ ∀ p, t.byteAt p = u.byteAt p) ∧
      (∀ u v x dt rt got, (s.copyAcks n).copyTargets n .write (windowDsts b w) = (.ok dt, u) →
        u.copyTargets n .read (windowNeed b w) = (.ok rt, v) → v.chanOps n = [] → v.channel n = s.channel n → blkMig b = false →
        (∀ p ∈ rt, ∀ e pa, p.2 ≠ .at (.remote e pa)) → v.copyReads n (windowNeed b w) rt = .done x (.ok got) → x.channel n = s.channel n →
        x.chanOps n = [] → (∀ p ∈ dt, p.2 = .loc) →
        ∃ t, exec (.copyWindow cluster ch) s = .next t ∧ (t.channel n).written = (s.channel n).written ++ w ∧ (t.channel n).busy = true ∧
          t.net = x.net ∧ ∀ p, WindowWritten x t n w (fun a => match got.find? fun q => q.1 == a / 128 with
            | some q => unitGet q.2.data (a % 128) 1
            | none => 0) p)) ∧
    ((s.dbgOf cluster).frozen = true → exec (.copyComplete cluster ch) s = .next s) ∧
    ((s.dbgOf cluster).frozen = false → (s.channel n).beats = [] → (s.channel n).own = [] →
      (s.channel n).stopping = true ∨ windowFrom b (s.channel n).written (blkParts b) 0 [] = [] → (blkWord b 5).toNat % 2 ^ 56 = 0 →
      ∃ t, exec (.copyComplete cluster ch) s = .next t ∧ (t.channel n).busy = false ∧
        (t.channel n).lastDomain = (s.channel n).domain ∧ (t.channel n).last = BitVec.ofNat 16 (1 + (s.channel n).malf.toNat * 2 +
          (s.channel n).fail.isSome.toNat * 8 + (s.channel n).nan.toNat * 16 + (s.channel n).sat.toNat * 32 +
          (s.channel n).cancel.toNat * 128 + (s.channel n).fail.getD 0 % 256 * 256) ∧
        (∀ k, k ≠ n → t.channel k = s.channel k) ∧ ∀ p, t.byteAt p = s.byteAt p))

/-- The copy engine (09 R196 to R206). It rests on the model's own choices in log entries 22 and 32. -/
def Obligations.CopyEngine : Prop := Parts.CopyInstructions ∧ Parts.CopyChannels

/-! ### Virtual caches and scrubs (05 R108 to R131) -/

/-- Word i of a command image in a vector register. -/
def imageWordOf (v : Vec) (i : Nat) : Word := v.extractLsb' (64 * i) 64

/-- A status in register d, and nothing of the caches changed (05 R129). -/
structure CacheStatus (s t : State) (m : Bool) (d : BitVec 5) (status : Nat) : Prop where
  position : s.Advanced t m
  value : t.readDst s.curCore s.curCtx (s.dst d) = if s.dst d = .none then 0 else BitVec.ofNat 64 status
  registers : ∀ e, e ≠ s.dst d → t.readDst s.curCore s.curCtx e = s.readDst s.curCore s.curCtx e
  memory : ∀ p, t.byteAt p = s.byteAt p

/-- 05 R113, R114, R122, R127, R129 to R131: the cache instructions, in supervisor mode once the context's accesses have performed. vcdef
defines a FREE record from a well-formed image whose shares conflict with none, activates a DEFINED one whose shares are not foreign, and
begins the retirement of an ACTIVE one (or zeroes a DEFINED one); vcresize makes an ACTIVE cache RESIZING with its new layout; each gives 0,
or 1 for a wrong state, 2 for a bad image and 3 for a conflict, with the record as it was. vcflush and vcinv queue behind at most three
others, and a record that fails a check faults VC_FAULT with the check and the cache; vcstat gives the record's state later. User mode
faults PRIV, but for vcflush, vcinv and vcstat. -/
def Parts.CacheInstructions : Prop :=
  ∀ (m : Bool) (a b : BitVec 5) (s : State) (id : Nat) (v : Vec), s.NoTrapDue m → id = fld (s.reg b) 0 8 → v = s.vreg a →
    (s.me.mode = .user → ∀ i ∈ [Instr.vcdef m a b, .vcresize m a b], exec i s = .next (s.faultHere
      { cause := .priv, info := 0, addr := 0, undeliv := false })) ∧
    (s.me.mode = .supervisor → s.Settled → fld (s.reg b) 10 54 = 0 →
      (fld (s.reg b) 8 2 = 0 →
        ((s.cdr id).w0.getLsbD 63 = true → ∃ t, exec (.vcdef m a b) s = .next t ∧ CacheStatus s t m b 1 ∧ t.cdrs = s.cdrs) ∧
        ((s.cdr id).w0.getLsbD 63 = false →
          (imageOk (imageWordOf v 0) (imageWordOf v 1) (imageWordOf v 2) (imageWordOf v 3) = false →
            ∃ t, exec (.vcdef m a b) s = .next t ∧ CacheStatus s t m b 2 ∧ t.cdrs = s.cdrs) ∧
          (imageOk (imageWordOf v 0) (imageWordOf v 1) (imageWordOf v 2) (imageWordOf v 3) = true →
            (s.sharesConflict (imageWordOf v 0, imageWordOf v 1) id = true →
              ∃ t, exec (.vcdef m a b) s = .next t ∧ CacheStatus s t m b 3 ∧ t.cdrs = s.cdrs) ∧
            (s.sharesConflict (imageWordOf v 0, imageWordOf v 1) id = false → ∃ t, exec (.vcdef m a b) s = .next t ∧ CacheStatus s t m b 0 ∧
              (t.cdr id).state = 1 ∧ (t.cdr id).w0.getLsbD 63 = true ∧ fld (t.cdr id).w0 37 23 = fld (imageWordOf v 0) 37 23 ∧
              (t.cdr id).w1 = imageWordOf v 1 ∧ (t.cdr id).epoch = 0 ∧ (t.cdr id).rclm = false ∧ ∀ k, k ≠ id → t.cdr k = s.cdr k)))) ∧
      (fld (s.reg b) 8 2 = 1 →
        ((s.cdr id).state ≠ 1 → ∃ t, exec (.vcdef m a b) s = .next t ∧ CacheStatus s t m b 1 ∧ t.cdrs = s.cdrs) ∧
        ((s.cdr id).state = 1 → s.sharesConflict (s.cdr id).geo id = false → s.foreignShares (s.cdr id).geo (s.cdr id).domain = false →
          ∃ t, exec (.vcdef m a b) s = .next t ∧ CacheStatus s t m b 0 ∧ (t.cdr id).state = 2 ∧ ∀ k, k ≠ id → t.cdr k = s.cdr k)) ∧
      (fld (s.reg b) 8 2 = 2 →
        ((s.cdr id).state = 1 → ∃ t, exec (.vcdef m a b) s = .next t ∧ CacheStatus s t m b 0 ∧ t.cdr id = Cdr.reset) ∧
        ((s.cdr id).state = 2 → imageWordOf v 4 = 0 → ∃ t, exec (.vcdef m a b) s = .next t ∧ CacheStatus s t m b 0 ∧ (t.cdr id).state = 4))) ∧
    (s.me.mode = .supervisor → s.Settled → s.me.engWait = [] → s.me.engWords = false → fld (s.reg b) 8 56 = 0 → (s.cdr id).state = 2 →
      imageOk (imageWordOf v 0) (imageWordOf v 1) (imageWordOf v 2) (imageWordOf v 3) = true →
      fld (imageWordOf v 0) 50 10 = (s.cdr id).domain → fld (s.cdr id).w0 37 3 &&& (7 - fld (imageWordOf v 0) 37 3) = 0 →
      s.sharesConflict (imageWordOf v 0, imageWordOf v 1) id = false → Geo.meets (imageWordOf v 0, imageWordOf v 1) (s.cdr id).geo = false →
      imageWordOf v 4 = 0 → ∃ t, exec (.vcresize m a b) s = .next t ∧ CacheStatus s t m b 0 ∧ (t.cdr id).state = 3 ∧
        (t.cdr id).shadow = some (imageWordOf v 0, imageWordOf v 1) ∧ (t.cdr id).progress = 0 ∧ ∀ k, k ≠ id → t.cdr k = s.cdr k) ∧
    (∀ c, c = fld (s.reg a) 0 8 → ∀ i kind, (i, kind) ∈ [(Instr.vcflush m a 0, 2), (.vcinv m a 0, 3)] →
      (∀ n, s.vcCommandCheck c = some n → exec i s = .next (s.faultHere
        { cause := .vcFault, info := BitVec.ofNat 32 (n + 256 * c), addr := 0, undeliv := false })) ∧
      (s.vcCommandCheck c = none → s.me.engWait = [] → s.me.engWords = false → s.Settled → ((s.cdr c).ops.filter fun o => o.kind != 5).length < 4 →
        ∃ t, exec i s = .next t ∧ s.Advanced t m ∧ s.SameRegisters t ∧ (∀ p, t.byteAt p = s.byteAt p) ∧
          (t.cdr c).ops = (s.cdr c).ops ++ [s.vcOp kind 0] ∧
          (t.cdr c).w0 = (s.cdr c).w0 ∧ ∀ k, k ≠ c → t.cdr k = s.cdr k)) ∧
    (s.me.mode = .user → (s.cdr id).state ≠ 0 → (s.cdr id).domain ≠ s.mine.domain → exec (.vcstat m a b) s = .next (s.faultHere
      { cause := .vcFault, info := BitVec.ofNat 32 (2 + 256 * id), addr := 0, undeliv := false })) ∧
    (s.me.mode = .supervisor ∨ (s.cdr id).state = 0 ∨ (s.cdr id).domain = s.mine.domain → ∃ t w, exec (.vcstat m a b) s = .next t ∧
      ResultIssued s t m a w ∧ ((s.cdr id).state = 0 → w = 0) ∧ ((s.cdr id).state ≠ 0 → (∀ o ∈ (s.cdr id).ops, o.kind < 8) → w.toNat % 8 = (s.cdr id).state ∧
        fld w 3 10 = (s.cdr id).domain ∧ fld w 20 8 = id ∧ (w.getLsbD 15 = true ↔ fld w 16 4 ≠ 0)))

/-- 05 R120, R122 to R131: the background work of a cache. A set of a RESIZING cache holds its requests from the moment it is to migrate,
waits while a unit of its lines that no pin holds is being served, and while there is no room at the new place, where it presses the line
that has to leave; then its lines move and the progress is one higher. After the last the new layout is in force,
ACTIVE, with EPOCH one higher. A flush that finds no dirty line or M copy left, and an invalidation that finds no line left, leaves the
queue; a RETIRING cache without lines, operations and accesses on their way becomes FREE. -/
def Parts.CacheBackground : Prop :=
  ∀ (s : State) (v : Nat),
    (∀ h t₀, (s.cdr v).shadow = some h → (s.cdr v).progress < Geo.sets (s.cdr v).geo →
      t₀ = s.holdSet v (s.cdr v).geo (s.cdr v).progress →
      ((∃ l ∈ s.oldSet v, ∃ u ∈ l.unitNums (s.cdr v).geo, t₀.calm v u = false ∧ t₀.pinned v u = false) → exec (.vcSetMigrated v) s = .next t₀) ∧
      ((∀ l ∈ s.oldSet v, ∀ u ∈ l.unitNums (s.cdr v).geo, t₀.calm v u = true ∨ t₀.pinned v u = true) →
        (∀ u x, t₀.moveLines (s.cdr v).geo h (s.oldSet v) = (u, some x) → exec (.vcSetMigrated v) s = .next (t₀.pressFor h x)) ∧
        (∀ u, t₀.moveLines (s.cdr v).geo h (s.oldSet v) = (u, none) → ∃ t, exec (.vcSetMigrated v) s = .next t ∧
          (t.cdr v).progress = (s.cdr v).progress + 1 ∧ t.vlines = u.vlines ∧ (∀ x ∈ t.setHolds, x.vcid = v → x.moving = false) ∧
          ∀ p, t.byteAt p = u.byteAt p))) ∧
    (∀ h, (s.cdr v).shadow = some h → Geo.sets (s.cdr v).geo ≤ (s.cdr v).progress → (s.cdr v).bar = none →
      ∃ t, exec (.vcSetMigrated v) s = .next t ∧ (t.cdr v).state = 2 ∧ (t.cdr v).shadow = none ∧ (t.cdr v).w1 = h.2 ∧
        fld (t.cdr v).w0 37 23 = fld h.1 37 23 ∧ (t.cdr v).epoch = (s.cdr v).epoch + 1 ∧ (∀ k, k ≠ v → t.cdr k = s.cdr k) ∧
        ∀ p, t.byteAt p = s.byteAt p) ∧
    (∀ op ops, (s.cdr v).ops = op :: ops → ((s.cdr v).state ≠ 3 ∨ op.kind = 5) → op.bar = 0 →
      (op.kind = 2 → (∀ l ∈ s.vlines, l.vcid = v → l.dirty = false) → s.heldUnits v = [] →
        ∃ t, exec (.vcOperationComplete v) s = .next t ∧ (t.cdr v).ops = ops ∧ (t.cdr v).w0 = (s.cdr v).w0 ∧ t.vlines = s.vlines ∧
          (∀ k, k ≠ v → t.cdr k = s.cdr k) ∧ ∀ p, t.byteAt p = s.byteAt p) ∧
      (op.kind ≠ 2 → (∀ l ∈ s.vlines, l.vcid ≠ v) → s.heldUnits v = [] → (op.kind = 5 → s.usesCache v = false) →
        ∃ t, exec (.vcOperationComplete v) s = .next t ∧ (t.cdr v).ops = ops ∧ (t.cdr v).w0 = (s.cdr v).w0 ∧ t.vlines = s.vlines ∧
          (∀ k, k ≠ v → t.cdr k = s.cdr k) ∧ ∀ p, t.byteAt p = s.byteAt p)) ∧
    ((s.cdr v).state = 4 → (s.cdr v).ops = [] → (s.cdr v).bar = none → (∀ l ∈ s.vlines, l.vcid ≠ v) → s.heldUnits v = [] →
      s.usesCache v = false → ∃ t, exec (.vcRetireComplete v) s = .next t ∧ t.cdr v = Cdr.reset ∧ t.vlines = s.vlines ∧ (∀ k, k ≠ v → t.cdr k = s.cdr k) ∧
        ∀ p, t.byteAt p = s.byteAt p) ∧
    ((s.cdr v).state ≠ 4 → exec (.vcRetireComplete v) s = .next s) ∧ ((s.cdr v).shadow = none → exec (.vcSetMigrated v) s = .next s)

/-- Virtual caches (05 R113 to R131). It rests on the model's own choice in log entry 27. -/
def Obligations.VirtualCaches : Prop := Parts.CacheInstructions ∧ Parts.CacheBackground

/-- A scrub that is over leaves the contexts that wait for nothing of it as they are; its one waiting writer has its register written and goes
on, after the marker of its instruction when that carries one, and a halted one stays halted. -/
def Parts.ScrubWriters : Prop :=
  ∀ (u : State) (id : Nat),
    ((∀ k y m r w, (u.ctx k y).wait ≠ .scrub id m r w) → u.endScrub id = { u with scrubs := tdel u.scrubs id }) ∧
    (∀ k y m r w, y < 11 → (u.ctx k y).wait = .scrub id m r w → (∀ k' y' m' r' w', (u.ctx k' y').wait = .scrub id m' r' w' → k' = k ∧ y' = y) →
      ∃ v, u.endScrub id = (if m = true ∧ (u.ctx k y).st ≠ .halted then v.park k y else v) ∧
        (v.ctx k y).wait = .none ∧ (v.ctx k y).st = (if (u.ctx k y).st = .halted then .halted else .ready) ∧ (v.ctx k y).pc = (u.ctx k y).pc ∧
        v.readDst k y r = (if r = .none then 0 else w) ∧
        (∀ k' y' e, (k' = k → e = r → y' ≠ y ∧ ∀ n, r ≠ .ram n) → v.readDst k' y' e = u.readDst k' y' e) ∧
        (∀ k' y' j, (v.ctx k' y').vec j = (u.ctx k' y').vec j ∧ (v.ctx k' y').mask j = (u.ctx k' y').mask j) ∧
        (∀ k', (v.core k').domain = (u.core k').domain ∧ (v.core k').bsplit = (u.core k').bsplit) ∧ v.cdrs = u.cdrs ∧
        (∀ p, v.byteAt p = u.byteAt p) ∧ tget? v.scrubs id = none)

/-- 05 R108, R109, R122, 10 R230: a write that changes DOMAIN takes effect when its scrub is over: the scalar, vector and mask registers of
the core are zero, and foreign scratch shares read zero; one that names the same domain does nothing. A write that
changes BSPLIT moves the bound at once; more than 16 shares, or the same number, does nothing. Its scrub waits for the reclaims and then
zeroes the shares that changed sides. A scrub for an activation makes the cache ACTIVE. After each the waiting writer goes on. -/
def Parts.ScrubEffects : Prop :=
  ∀ (s : State) (c : Nat) (v : Word),
    ((s.core c).moving = false → v.toNat % 1024 = (s.core c).domain → exec (.domainWrite c v) s = .next s) ∧
    ((s.core c).moving = false → v.toNat % 1024 ≠ (s.core c).domain → ∃ t, exec (.domainWrite c v) s = .next t ∧ (t.core c).domain = (s.core c).domain ∧
      (t.core c).scrubbing = some s.nextId ∧ tget? t.scrubs s.nextId = some (.domain c (v.toNat % 1024) none) ∧
      (t.core c).ram = (s.core c).ram ∧ (∀ x, t.mayIssue c x = false) ∧ ∀ p, t.byteAt p = s.byteAt p) ∧
    (∀ id d x, tget? s.scrubs id = some (.domain c d x) → ∃ t : State, exec (.scrubComplete id) s = .next (t.endScrub id) ∧
        (t.core c).domain = d ∧ (t.core c).ram = [] ∧ (∀ y e, t.readDst c y e = 0) ∧ (∀ y j, (t.ctx c y).vec j = 0) ∧
        (∀ y j, (t.ctx c y).mask j = if j = 0 then BitVec.ofNat 64 (2 ^ 64 - 1) else 0) ∧
        (∀ o, o / 65536 < (s.core c).bsplit → tget (s.core c).owners (o / 65536) 0 ≠ d → t.byteAt (.scratch c o) = 0) ∧
        (∀ o, o / 65536 < (s.core c).bsplit → tget (s.core c).owners (o / 65536) 0 = d → t.byteAt (.scratch c o) = s.byteAt (.scratch c o)) ∧
        (∀ k y, (t.ctx k y).wait = (s.ctx k y).wait ∧ (t.ctx k y).st = (s.ctx k y).st) ∧ ∀ k, k ≠ c → t.core k = s.core k) ∧
    ((s.core c).moving = false → v.toNat % 32 = (s.core c).bsplit ∨ 16 < v.toNat % 32 → exec (.bsplitWrite c v) s = .next s) ∧
    ((s.core c).moving = false → v.toNat % 32 ≤ 16 → v.toNat % 32 ≠ (s.core c).bsplit → ∃ t, exec (.bsplitWrite c v) s = .next t ∧
      (t.core c).bsplit = v.toNat % 32 ∧ (t.core c).domain = (s.core c).domain ∧ (t.core c).ram = (s.core c).ram ∧
      tget? t.scrubs s.nextId = some (.bsplit c (s.core c).bsplit (v.toNat % 32) none) ∧ ∀ p, t.byteAt p = s.byteAt p) ∧
    (∀ id old new x, tget? s.scrubs id = some (.bsplit c old new x) →
      ((∃ k ∈ s.cachesBelow c new, ∃ o ∈ (s.cdr k).ops, o.kind = 5) → exec (.scrubComplete id) s = .next s) ∧
      ((∀ k ∈ s.cachesBelow c new, ∀ o ∈ (s.cdr k).ops, o.kind ≠ 5) → ∃ t : State, exec (.scrubComplete id) s = .next (t.endScrub id) ∧
        (t.core c).bsplit = (s.core c).bsplit ∧
        (∀ o, (min old new ≤ o / 65536 ∧ o / 65536 < max old new) → t.byteAt (.scratch c o) = 0) ∧
        (∀ o, ¬ (min old new ≤ o / 65536 ∧ o / 65536 < max old new) → t.byteAt (.scratch c o) = s.byteAt (.scratch c o)) ∧
        (∀ o, t.byteAt (.tcm c o) = s.byteAt (.tcm c o)) ∧ (∀ k y, t.ctx k y = s.ctx k y) ∧ ∀ k, k ≠ c → t.core k = s.core k)) ∧
    (∀ id k x, tget? s.scrubs id = some (.activate k c x) → (s.cdr k).state = 1 → (s.cdr k).scrubId = some id →
      ∃ t : State, exec (.scrubComplete id) s = .next (t.endScrub id) ∧ (t.cdr k).state = 2 ∧ (t.cdr k).scrubId = none ∧
        (∀ j, j ≠ k → t.cdr j = s.cdr j) ∧ ∀ j y, t.ctx j y = s.ctx j y)

/-- Scrubs (05 R108, R109, R122, 10 R230). -/
def Obligations.Scrubs : Prop := Parts.ScrubWriters ∧ Parts.ScrubEffects

/-! ### Translations and pages (04 R91 to R98, R102 to R105) -/

/-- 04 R91 to R93, R98: tlbfill and tlbprobe. A malformed image, a refusal without a named cause and a target outside the cluster give
status 2; a source unit that the issuer's L1 does not hold gives 1; none of them changes a TLB. A well-formed image without sources stands
in the target's L2 TLB, alone among the entries of its domain that overlap it, with status 0. A refusal gives 3, and with the wake bit the
context that waits for that tag halts with the cause, the info and its address; a fill with the wake bit makes it ready. tlbprobe gives the
entry of either TLB that matches a domain, or zero, later, and removes it with INV. User mode faults PRIV. -/
def Parts.TranslationEntries : Prop :=
  ∀ (m : Bool) (a b : BitVec 5) (s : State) (v : Vec) (c tag : Nat), s.NoTrapDue m → v = s.vreg a → c = entTarget v → tag = (s.reg b).toNat % 65536 →
    (s.me.mode = .user → ∀ i ∈ [Instr.tlbfill m a b, .tlbprobe m a b], exec i s = .next (s.faultHere
      { cause := .priv, info := 0, addr := 0, undeliv := false })) ∧
    (s.me.mode = .supervisor →
      ((entWord v 0).getLsbD 63 = true →
        (entOk v s.curCore = false → ∃ t, exec (.tlbfill m a b) s = .next t ∧ CacheStatus s t m b 2 ∧ t.homes = s.homes ∧
          ∀ k, (t.core k).l1tlb = (s.core k).l1tlb ∧ (t.core k).l2tlb = (s.core k).l2tlb) ∧
        (entOk v s.curCore = true →
          (0 < entNsrc v → s.mine.copy? ((entWord v 4).toNat % 2 ^ 42 / 128) .tracked = none →
            ∃ t, exec (.tlbfill m a b) s = .next t ∧ CacheStatus s t m b 1 ∧ t.homes = s.homes ∧
              ∀ k, (t.core k).l1tlb = (s.core k).l1tlb ∧ (t.core k).l2tlb = (s.core k).l2tlb) ∧
          (entNsrc v = 0 → (s.reg b).getLsbD 16 = false → ∃ t, exec (.tlbfill m a b) s = .next t ∧ CacheStatus s t m b 0 ∧ t.homes = s.homes ∧
            (t.core c).l2tlb.head? = some (entOf v) ∧
            (∀ f ∈ (t.core c).l1tlb ++ (t.core c).l2tlb.drop 1, f.domain = (entOf v).domain → (entOf v).covers (f.vpn * 4096) = false) ∧
            ∀ k, k ≠ c → (t.core k).l1tlb = (s.core k).l1tlb ∧ (t.core k).l2tlb = (s.core k).l2tlb) ∧
          (∀ r, entNsrc v = 0 → (s.reg b).getLsbD 16 = true → (s.core c).xreq? tag = some r → r.agent = 0 → (s.ctx c r.slot).wait = .xlate tag →
            (s.ctx c r.slot).st ≠ .halted → (c ≠ s.curCore ∨ r.slot ≠ s.curCtx) → ∃ t, exec (.tlbfill m a b) s = .next t ∧ CacheStatus s t m b 0 ∧
              (t.core c).l2tlb.head? = some (entOf v) ∧ (t.ctx c r.slot).st = .ready ∧ (t.ctx c r.slot).wait = .none ∧
              (t.core c).xreq? tag = none))) ∧
      ((entWord v 0).getLsbD 63 = false →
        (refusalCause ((entWord v 0).toNat % 256) = none ∨ clusterOf c ≠ clusterOf s.curCore → ∃ t, exec (.tlbfill m a b) s = .next t ∧
          CacheStatus s t m b 2 ∧ ∀ k, (t.core k).xreqs = (s.core k).xreqs) ∧
        (∀ e, refusalCause ((entWord v 0).toNat % 256) = some e → clusterOf c = clusterOf s.curCore →
          ((s.reg b).getLsbD 16 = false → ∃ t, exec (.tlbfill m a b) s = .next t ∧ CacheStatus s t m b 3 ∧
            ∀ k, (t.core k).xreqs = (s.core k).xreqs) ∧
          (∀ r, (s.reg b).getLsbD 16 = true → (s.core c).xreq? tag = some r → r.agent = 0 → (s.ctx c r.slot).wait = .xlate tag →
            (s.ctx c r.slot).st ≠ .halted → (s.core c).opsOf r.slot = [] → (c ≠ s.curCore ∨ r.slot ≠ s.curCtx) →
            ∃ t, exec (.tlbfill m a b) s = .next t ∧ CacheStatus s t m b 3 ∧ (t.ctx c r.slot).st = .halted ∧
              (t.ctx c r.slot).ecause = BitVec.ofNat 64 (e.code + (entWord v 1).toNat % 2 ^ 32 * 2 ^ 32) ∧
              (t.ctx c r.slot).einfo = r.va.setWidth 64 ∧ (t.core c).xreq? tag = none))) ∧
      (∀ n va, n = (s.reg a).toNat % 8192 → va = (s.reg b).toNat % 2 ^ 56 →
        (clusterOf n ≠ clusterOf s.curCore → ∃ t, exec (.tlbprobe m a b) s = .next t ∧ ResultIssued s t m a 0 ∧
          ∀ k, (t.core k).l1tlb = (s.core k).l1tlb ∧ (t.core k).l2tlb = (s.core k).l2tlb) ∧
        (clusterOf n = clusterOf s.curCore → ∀ hit : TlbEnt → Bool,
          (∀ e, hit e = (e.covers va && decide (e.domain = (s.reg a).toNat / 65536 % 1024))) →
          (((s.core n).l1tlb ++ (s.core n).l2tlb).find? hit = none → ∃ t, exec (.tlbprobe m a b) s = .next t ∧ ResultIssued s t m a 0 ∧
            ∀ k, (t.core k).l1tlb = (s.core k).l1tlb ∧ (t.core k).l2tlb = (s.core k).l2tlb) ∧
          (∀ e, ((s.core n).l1tlb ++ (s.core n).l2tlb).find? hit = some e → ∃ t w, exec (.tlbprobe m a b) s = .next t ∧ ResultIssued s t m a w ∧
            w.getLsbD 63 = true ∧ w.getLsbD 62 = (s.core n).l1tlb.any hit ∧ w.getLsbD 61 = e.srcs.isEmpty ∧
            w.getLsbD 60 = (s.reg a).getLsbD 32 ∧ fld w 57 3 = e.size % 8 ∧ fld w 56 1 = 0 ∧ fld w 12 44 = e.pfn % 2 ^ 44 ∧
            fld w 10 2 = e.cls.code ∧ fld w 4 6 = 0 ∧ w.getLsbD 3 = e.sup ∧ w.setWidth 3 = e.xwr ∧
            ((s.reg a).getLsbD 32 = true → (t.core n).l1tlb = (s.core n).l1tlb.filter (fun f => !hit f) ∧
              (t.core n).l2tlb = (s.core n).l2tlb.filter (fun f => !hit f)) ∧
            ((s.reg a).getLsbD 32 = false → (t.core n).l1tlb = (s.core n).l1tlb ∧ (t.core n).l2tlb = (s.core n).l2tlb) ∧
            ∀ k, k ≠ n → (t.core k).l1tlb = (s.core k).l1tlb ∧ (t.core k).l2tlb = (s.core k).l2tlb))))

/-- 04 R94, R95: a core that holds no entry derived from a unit answers at once; any other drops those it holds and answers once the accesses
made through them have performed. The home forgets the core that answers, and its T-sharers with the last answer, when it grants the writer
that it serves. -/
def Parts.TranslationSharers : Prop :=
  (∀ (s : State) (id u vcid c : Nat) (removed : Bool) (h : Hold), s.flight? id = some (Flight.mk id h (.tinv u vcid c removed)) →
    (removed = false → (s.core c).derives u = false → ∃ t, exec (.translationInvalidation id) s = .next t ∧ t.cores = s.cores ∧
      (∀ p, t.byteAt p = s.byteAt p) ∧ t.net = dropFirst (fun f => f.id == id) s.net ++ [flying s.nextId (.tinvAck u vcid c)]) ∧
    (removed = true ∨ (s.core c).derives u = true → ∃ t, exec (.translationInvalidation id) s = .next t ∧
      (t.core c).l1tlb = (s.core c).l1tlb.filter (fun e => !e.srcs.contains u) ∧
      (t.core c).l2tlb = (s.core c).l2tlb.filter (fun e => !e.srcs.contains u) ∧ (∀ k, k ≠ c → t.core k = s.core k) ∧
      (∀ p, t.byteAt p = s.byteAt p) ∧ (∀ x, t.ctx c x = s.ctx c x) ∧
      t.net = if s.usesSource c u ∧ (s.core c).moving = false then (s.setFlight (Flight.mk id h (.tinv u vcid c true))).net
        else dropFirst (fun f => f.id == id) s.net ++ [flying s.nextId (.tinvAck u vcid c)])) ∧
  (∀ (s : State) (id u vcid c : Nat) (h : Hold) (l : List Nat), s.flight? id = some (Flight.mk id h (.tinvAck u vcid c)) →
      l = (s.home vcid u).tacks.filter (fun x => x != c) →
    ((s.home vcid u).busy = none → ∃ t, exec (.translationInvalidationAck id) s = .next t ∧ t.net = dropFirst (fun f => f.id == id) s.net ∧
      t.home vcid u = { s.home vcid u with tacks := l, tshare := if l = [] then [] else (s.home vcid u).tshare } ∧
      (∀ v' u', (v', u') ≠ (vcid, u) → v' < 256 → vcid < 256 → t.home v' u' = s.home v' u') ∧ t.cores = s.cores) ∧
    (∀ k key, (s.home vcid u).busy = some (.own k key .m) → l = [] → (s.home vcid u).acks = [] →
      (s.home vcid u).snoop = false → s.grantInFlight vcid u = false → ∃ t d p, exec (.translationInvalidationAck id) s = .next t ∧
        t.net.getLast? = some (flying s.nextId (.grant u vcid key k .m d p)) ∧ (t.home vcid u).tshare = [] ∧ (t.home vcid u).sharers = [k] ∧
        (t.home vcid u).dir = .m) ∧
    (∀ k key, (s.home vcid u).busy = some (.own k key .m) → l ≠ [] → ∃ t, exec (.translationInvalidationAck id) s = .next t ∧
        t.net = dropFirst (fun f => f.id == id) s.net ∧ (t.home vcid u).tshare = (s.home vcid u).tshare))

/-- Translation entries (04 R91 to R98). It rests on the model's own choice in log entry 42. -/
def Obligations.Translation : Prop := Parts.TranslationEntries ∧ Parts.TranslationSharers

/-- The page operand of pblock and punblock: its base without the size code, which is in the low three bits (04 R105). -/
def pageBase (w : Word) : Nat := w.toNat % 2 ^ 56 / 8 * 8

/-- A page operand names a naturally aligned page of this module's HBM. -/
def LocalPage (s : State) (w : Word) (size : Nat) : Prop :=
  size ≤ 4 ∧ pageBase w % 2 ^ pageBits size = 0 ∧ pageBase w / 2 ^ 42 = s.devNum ∧ pageBase w % 2 ^ 42 < 2 ^ 40

/-- 04 R102 to R105: pblock makes a page BLOCKED and moves the stamped waiters of its units to its queue; punblock opens a blocked page, or
has its queued accesses return to their requesters and take their slots at the new page, ahead of what that page queued. Both wait for the
context's accesses; a size or alignment that no page has faults MISALIGN, another place than the module's HBM XLATE, and user mode PRIV. -/
def Parts.BlockingPages : Prop :=
  ∀ (m : Bool) (a b : BitVec 5) (s : State) (size : Nat), s.NoTrapDue m → size = (s.reg a).toNat % 8 →
    (s.me.mode = .user → ∀ i ∈ [Instr.pblock m a, .punblock m a b], exec i s = .next (s.faultHere
      { cause := .priv, info := 0, addr := 0, undeliv := false })) ∧
    (s.me.mode = .supervisor → s.accessesDone s.curCore s.curCtx = false → ∀ i ∈ [Instr.pblock m a, .punblock m a b],
      ∃ t, exec i s = .next t ∧ s.Moves t ∧ t.me.st = .parked ∧ t.me.pc = s.me.pc) ∧
    (s.me.mode = .supervisor → s.Settled →
      (∀ i ∈ [Instr.pblock m a, .punblock m a b],
        (4 < size ∨ pageBase (s.reg a) % 2 ^ pageBits size ≠ 0 → exec i s = .next (s.faultHere
          { cause := .misalign, info := 0, addr := BitVec.ofNat 56 (s.reg a).toNat, undeliv := false })) ∧
        (size ≤ 4 → pageBase (s.reg a) % 2 ^ pageBits size = 0 → (pageBase (s.reg a) / 2 ^ 42 ≠ s.devNum ∨ 2 ^ 40 ≤ pageBase (s.reg a) % 2 ^ 42) →
          exec i s = .next (s.faultHere
            { cause := .xlate, info := 0, addr := BitVec.ofNat 56 (s.reg a).toNat, undeliv := false }))) ∧
      (LocalPage s (s.reg a) size → ∀ base, base = pageBase (s.reg a) % 2 ^ 42 →
        (∀ p, s.page? base size = some p → ∃ t, exec (.pblock m a) s = .next t ∧ s.Advanced t m ∧ s.Moves t) ∧
        (∀ p, s.page? base size = none → p = PageBlk.mk base size .blocked [] [] [] → ∃ t, exec (.pblock m a) s = .next t ∧ s.Advanced t m ∧
          s.SameRegisters t ∧ (∀ q, t.byteAt q = s.byteAt q) ∧ (t.page? base size).isSome ∧ t.pages.drop 1 = s.pages ∧
          t.stWaiters = s.stWaiters.filter (fun w => !p.has (128 * (w.unit / 256))) ∧
          ((∀ w ∈ s.stWaiters, p.has (128 * (w.unit / 256)) = false) → t.pages = p :: s.pages ∧ t.net = s.net)) ∧
        (∀ new p, LocalPage s (s.reg b) size → new = pageBase (s.reg b) % 2 ^ 42 → s.page? base size = some p → p.st = .blocked →
          (base = new → ∃ t, exec (.punblock m a b) s = .next t ∧ s.Advanced t m ∧ s.SameRegisters t ∧ (∀ q, t.byteAt q = s.byteAt q) ∧
            t.page? base size = (if p.queue = [] then none else some (PageBlk.mk base size .replaying [] p.queue [])) ∧
            t.net = s.net.map fun f => if f.id ∈ p.queue then { f with hold := .replay } else f) ∧
          (∀ q, base ≠ new → s.page? new size = some q → q.st = .blocked → ∃ t, exec (.punblock m a b) s = .next t ∧ s.Advanced t m ∧
            s.SameRegisters t ∧ (∀ q, t.byteAt q = s.byteAt q) ∧ t.page? base size = none ∧
            t.page? new size = (if p.queue ++ q.queue = [] then none else some (PageBlk.mk new size .replaying [] (p.queue ++ q.queue) []))))))

/-- A message that stands at no page's slot and in no queue of a set that migrates. -/
def NoSlot (s : State) (id : Nat) : Prop := (∀ p ∈ s.pages, id ∉ p.slots) ∧ ∀ h ∈ s.setHolds, id ∉ h.queue

/-- 04 R102, R103: an access that arrives at a page that is not OPEN is queued while fewer than 64 are, and refused otherwise; a refused one
is sent again. A returned access whose requester no longer waits for it leaves and settles its slot; one whose requester translates it to a
TRACKED unit of the page that holds its slot goes there, and its lane stands at the new unit. A packet, a write-back and an access of the host
name no address of this module: a returned one goes on at its own unit. -/
def Parts.BlockedAccesses : Prop :=
  (∀ (s : State) (id u : Nat) (k : Pkt) (p : PageBlk), s.flight? id = some (flying id k) → k.unit? = some u → s.blockOf (128 * u) = some p →
      id ∉ p.slots → s.cameTo (.msg id) u = false →
    (p.queue.length - p.moved.length < 64 → ∃ t, exec (.blockedPageAccess id) s = .next t ∧ t.flight? id = some (Flight.mk id .queued k) ∧
      t.pages.head? = some { p with queue := p.queue ++ [id] } ∧ (∀ g, g.id ≠ id → (g ∈ t.net ↔ g ∈ s.net)) ∧
      t = { s with net := t.net, pages := t.pages }) ∧
    (64 ≤ p.queue.length - p.moved.length → ∃ t, exec (.blockedPageAccess id) s = .next t ∧ t.flight? id = some (Flight.mk id .refused k) ∧
      (∀ g, g.id ≠ id → (g ∈ t.net ↔ g ∈ s.net)) ∧ t = { s with net := t.net })) ∧
  (∀ (s : State) (id : Nat) (k : Pkt), s.flight? id = some (Flight.mk id .refused k) →
    ((∀ p n j, k ≠ .pktOut p n j) → ∃ t, exec (.backoffRetry id) s = .next t ∧ t.flight? id = some (flying id k) ∧
      (∀ g, g.id ≠ id → (g ∈ t.net ↔ g ∈ s.net)) ∧ t = { s with net := t.net }) ∧
    (∀ p n j, k = .pktOut p n j → s.fabricUp = true → ∃ t i, exec (.backoffRetry id) s = .next t ∧ t.cores = s.cores ∧
      t.net = dropFirst (fun f => f.id == id) s.net ++ [flying s.nextId (.pktOut p s.clock i)] ∧
      ∀ r ∈ t.fabReqs, r.core = p.core → r.tag = p.tag → r.inc = p.inc → r.sentAt = s.clock)) ∧
  (∀ (s : State) (id u v key c c' : Nat) (x : Dir) (f : Flight), f = Flight.mk id .replay (.ownReq u v key c' x) → s.flight? id = some f →
    s.forwarded c' = c →
    ((∀ o ∈ (s.core c).ops, ∀ l ∈ o.lanes, replayLane f.pkt o l = false) → NoSlot s id →
      ∃ t, exec (.replayAccess id) s = .next t ∧ t.net = dropFirst (fun g => g.id == id) s.net ∧ t.cores = s.cores ∧ t.pages = s.pages) ∧
    (∀ o l w e pa b, (s.core c).ops = [o] → o.lanes = [l] → replayLane f.pkt o l = true →
      s.engineXlateAt o.pc c (s.core c).domain 4 (o.ctx + 16 * id) o.sup l.accOf l.va = (.hit (.unit e pa), w) → e.cls = .tracked →
      w.freeTags c 1 ≠ [] → s.blockOf pa = some b → id ∈ b.slots →
      ∃ t, exec (.replayAccess id) s = .next t ∧ t.flight? id = some (flying id (.ownReq (pa / 128) e.vcid e.key c x)) ∧ t.pages = s.pages ∧
        (t.core c).ops = [{ o with lanes := [{ l with place := .unit e.vcid .tracked e.key pa, srcs := e.srcs }] }])) ∧
  (∀ (s : State) (id : Nat) (k : Pkt), s.flight? id = some (Flight.mk id .replay k) → NoSlot s id →
    ((∃ q, k = .pktIn q) ∨ (∃ c l u v key w d p, k = .writeBack c l u v key w d p) ∨ (∃ a n d, k = .hostAcc a n d)) →
    exec (.replayAccess id) s = .next (s.setFlight (flying id k)))

/-- Blocked pages (04 R102 to R105). It rests on the model's own choices in log entries 29, 59 and 74. -/
def Obligations.PageBlocking : Prop := Parts.BlockingPages ∧ Parts.BlockedAccesses

/-! ### Homes and coherence (06 R133 to R151, 18 R366 to R370) -/

/-- No resize holds a unit's requests or keeps it at an old home (05 R123, R125). -/
def Unmoved (s : State) (v u : Nat) : Prop := s.setHold v u = none ∧ tget? (s.cdr v).stay u = none

/-- A unit of an OPEN page that no agent holds or asks for, in a cache that holds no line: its home has it as HBM does. -/
structure Untouched (s : State) (v u : Nat) : Prop where
  home : s.home v u = HomeUnit.reset
  grant : s.grantInFlight v u = false
  page : s.blockOf (128 * u) = none
  sets : Unmoved s v u
  agents : s.copyOwner v u = none ∧ s.pinned v u = false
  lines : ∀ l ∈ s.vlines, l.vcid ≠ v

/-- A unit as its home holds it. -/
def unitNow (s : State) (v u : Nat) : VUnit := (s.readVc v u none).2

/-- 06 R134, R136, R137, 05 R120, 18 R369: TRACKED requests. A request at an OPEN page waits in arrival order while its home serves or grants
another, while another has come before it, and, for ownership, for a pin; else, once its line stands
in the cache, it is granted at once when no agent stands against it: M to a writer, E to a reader of a unit in I, S to another;
every other holder is recalled first. A recall takes the copy or leaves it in S, and modified data goes along with the answer; the last answer
lets the home grant M, with that data. A grant puts the copy in the L1, where the waiting store of its core performs. The host's answer clears
HOST, and what it had modified is in the unit. It rests on the model's own choices in log entries 28 and 30. -/
def Obligations.TrackedRequests : Prop :=
  (∀ (s : State) (id u v key c : Nat) (x st : Dir), s.flight? id = some (flying id (.ownReq u v key c x)) → NoSlot s id → s.blockOf (128 * u) = none →
      Unmoved s v u → c < 2 ^ 20 → st = (if x = .e ∧ (s.home v u).dir ≠ .i then .s else x) →
    ((s.home v u).busy.isSome ∨ s.grantInFlight v u = true ∨ (s.home v u).tacks ≠ [] ∨ (s.copyOwner v u).isSome ∨
        s.turnAt (.msg id) v u (decide (x = .m)) = false ∨ (x = .m ∧ s.pinned v u = true) →
      (∀ p ∈ (s.home v u).queue, p.1 ≠ .msg id) → ∃ t, exec (.ownershipRequest id) s = .next t ∧ t.net = s.net ∧
        t.home v u = { s.home v u with queue := (s.home v u).queue.filter (fun p => s.waits p.1) ++ [(.msg id, decide (x = .m))] } ∧
        t.cores = s.cores) ∧
    (∀ w, (s.home v u).busy = none → s.turnAt (.msg id) v u (decide (x = .m)) = true → s.grantInFlight v u = false → (s.home v u).host = false →
      (s.home v u).snoop = false → (s.home v u).tacks = [] → s.copyOwner v u = none →
      (x = .m → (s.home v u).tshare = [] ∧ s.pinned v u = false) →
      s.fillFor v u (if x = .m then none else some c) false = .done w () → w.home v u = s.home v u → w.net = s.net → w.nextId = s.nextId →
      w.pages = s.pages → w.setHolds = s.setHolds →
      ((∀ a ∈ (s.home v u).sharers, a = c) ∨ (x ≠ .m ∧ (s.home v u).dir ≠ .e ∧ (s.home v u).dir ≠ .m) → ∃ t q, exec (.ownershipRequest id) s = .next t ∧
        q = w.peekVc v u (if x = .m then none else some c) ∧
        t.net.getLast? = some (flying s.nextId (.grant u v key c st (q.under key).data (q.poisonFor key))) ∧ lists (t.home v u).sharers c = true ∧
        (t.home v u).dir = st) ∧
      (∀ a ∈ agents (s.home v u).sharers, a ≠ c → a < 16384 → (x = .m ∨ (s.home v u).dir = .e ∨ (s.home v u).dir = .m) →
        ∃ t, exec (.ownershipRequest id) s = .next t ∧
        (∃ n, flying n (.recall u v a (decide (x = .m ∨ (s.home v u).dir = .m))) ∈ t.net) ∧ (t.home v u).busy = some (.own c key st) ∧
        t.grantInFlight v u = false ∧ t.cores = w.cores))) ∧
  (∀ (s : State) (id u v a : Nat) (inv : Bool) (h : Hold), s.flight? id = some (Flight.mk id h (.recall u v a inv)) →
    (a < 8192 → (s.core a).copy? u .tracked = none → ∃ t, exec (.recallCopy id) s = .next t ∧ t.cores = s.cores ∧
      t.net = dropFirst (fun f => f.id == id) s.net ++ [flying s.nextId (.invAck u v a none)]) ∧
    (∀ cp, a < 8192 → (s.core a).copy? u .tracked = some cp → ∃ t, exec (.recallCopy id) s = .next t ∧
      (t.core a).copy? u .tracked = (if inv then none else some { cp with st := .s }) ∧ (∀ k, k ≠ a → t.core k = s.core k) ∧
      t.net = dropFirst (fun f => f.id == id) s.net ++
        [flying s.nextId (.invAck u v a (if cp.st = .m then some (cp.key, cp.data, cp.poison) else none))]) ∧
    (8192 ≤ a → ∃ t, exec (.recallCopy id) s = .next t ∧ (∀ i ∈ (t.core (a - 8192)).icache, i.unit = u → i.cls ≠ .tracked) ∧
      t.net = dropFirst (fun f => f.id == id) s.net ++ [flying s.nextId (.invAck u v a none)])) ∧
  (∀ (s : State) (id u v a : Nat) (h : Hold) (data : Option (Nat × Unit128 × Bool)), s.flight? id = some (Flight.mk id h (.invAck u v a data)) →
      a < 8192 → (s.core a).copy? u .tracked = none → s.grantInFlight v u = false →
    (∀ x y, data = none → x ∈ (s.home v u).acks → x ≠ a → (s.home v u).busy = some y → ∃ t, exec (.invalidationAcknowledgement id) s = .next t ∧
      t.net = dropFirst (fun f => f.id == id) s.net ∧ (t.home v u).acks = (s.home v u).acks.filter (fun x => x != a) ∧
      (t.home v u).sharers = (s.home v u).sharers.filter (fun x => x != a) ∧ (t.home v u).busy = some y) ∧
    (∀ c key d p, data = some (key, d, p) → (s.home v u).busy = some (.own c key .m) → (∀ x ∈ (s.home v u).acks, x = a) → (s.home v u).tacks = [] →
      (s.home v u).snoop = false → (∀ l ∈ s.vlines, l.vcid ≠ v) → ∃ t n, exec (.invalidationAcknowledgement id) s = .next t ∧
        t.net.getLast? = some (flying n (.grant u v key c .m d p)) ∧ (t.home v u).sharers = [c] ∧ (t.home v u).dir = .m ∧ (t.home v u).acks = [])) ∧
  (∀ (s : State) (id u v key c : Nat) (h : Hold) (st : Dir) (d : Unit128) (p : Bool), s.flight? id = some (Flight.mk id h (.grant u v key c st d p)) →
      (s.core c).copyOf u = none → (∀ f ∈ s.net, f.hold ≠ .served) →
      ((s.core c).l1.filter fun y => y.unit % 64 == u % 64).length < 4 →
    ((s.core c).ops = [] → ∃ t, exec (.grant id) s = .next t ∧ t.net = dropFirst (fun f => f.id == id) s.net ∧ (t.home v u).busy = none ∧
      (t.core c).copy? u .tracked = some { unit := u, vcid := v, cls := .tracked, key := key, st := st, data := d, stamp := 0, dirty := 0, writers := [], poison := p } ∧
      (∀ k, k ≠ c → t.core k = s.core k) ∧ ∀ q, t.byteAt q = s.byteAt q) ∧
    (∀ o l pa w z m, (s.core c).ops = [o] → o.lanes = [l] → l.done = false → l.place = .unit v .tracked key pa → pa / 128 = u → l.op = .write w m → st = .m →
      o.fin = .none → o.fault = none → o.ctx ≠ noCtx → (s.home v u).tshare = [] → l.op.apply l.n (unitGet d (pa % 128) l.n) = some z → ∃ t y, exec (.grant id) s = .next t ∧
        (t.core c).ops = [] ∧ (t.core c).copy? u .tracked = some y ∧ y.st = .m ∧ y.data = unitPut d (pa % 128) l.n z ∧ y.poison = p)) ∧
  (∀ (s : State) (id u v : Nat) (inv : Bool) (h : Hold), s.flight? id = some (Flight.mk id h (.bisnp u v inv)) → (s.home v u).busy = none →
    (∃ t, exec (.bisnpResponse id none) s = .next t ∧ t.net = dropFirst (fun f => f.id == id) s.net ∧ t.cores = s.cores ∧
      t.home v u = { s.home v u with host := false, hostDirty := false, snoop := false } ∧ ∀ q, t.byteAt q = s.byteAt q) ∧
    (∀ d, (s.home v u).tshare = [] → s.pinned v u = false → (∀ l ∈ s.vlines, l.vcid ≠ v) →
      (∀ a ∈ agents (s.home v u).sharers, ∀ cp, (s.core a).copy? u .tracked = some cp → cp.st ≠ .m) → ∃ t, exec (.bisnpResponse id (some d)) s = .next t ∧
      (∀ a ∈ agents (s.home v u).sharers, a < 8192 → (t.core a).copy? u .tracked = none) ∧
      (t.home v u).host = false ∧ (t.home v u).hostDirty = false ∧ (t.home v u).snoop = false ∧ (unitNow t v u).data = d ∧
      (unitNow t v u).tag = some (s.dev.hostcfg.toNat % 1024) ∧ (unitNow t v u).poison = false))

/-- 06 R142, R143, R149 to R151: STAMPED traffic, of an operation with one lane at its unit. A store performs at its home with the iteration
of its issue as the stamp, is acknowledged, and answers the waiters whose bound the stamp meets, unless it lowers it. A read whose bound the
stamp meets has the data and its age at once; beyond the bound, try takes the data as stale, trap ends with the age, and wait queues at the
home, or is refused when the bank holds 32 waiters. A bounded read that is late is withdrawn and will trap. It rests on the model's own
choice in log entry 40. -/
def Obligations.StampedTraffic : Prop :=
  (∀ (s : State) (id c c' u v key pa op : Nat) (o : Op) (l : Lane) (f : Flight) (old : VUnit), s.forwarded c' = c → (s.core c).op? op = some o → o.lanes = [l] →
      l.done = false → l.place = .unit v .stamped key pa → pa / 128 = u → s.flight? id = some f → NoSlot s id → Untouched s v u →
      s.stampedNext f = true → s.matesLet f o = true → old = (s.hbmUnit u).under key →
    (∀ w m z, f = flying id (.stStore c' op u) → l.op = .write w m → o.fin = .none → o.fault = none → l.op.apply l.n (unitGet old.data (pa % 128) l.n) = some z →
      ∃ t, exec (.stampedStoreAtHome id) s = .next t ∧ (t.core c).op? op ≠ some o ∧ (unitNow t v u).data = unitPut old.data (pa % 128) l.n z ∧
        (unitNow t v u).stamp = o.iter ∧ (unitNow t v u).tag = some key ∧
        (0 ≤ ageOf o.iter old.stamp → ∀ w ∈ t.stWaiters, w.unit = homeKey v u → accepts w.lag w.iter o.iter = false)) ∧
    (f = flying id (.stRead c' op u) → l.op = .read → (∀ d, o.due = some d → s.clock ≤ d) → (s.hbmUnit u).poison = false →
      (accepts o.lag o.iter old.stamp = true ∨ o.ldlMode = 2 → ∃ t, exec (.stampedReadAtHome id) s = .next t ∧
        (t.core c).op? op = some { o with stale := o.stale || !accepts o.lag o.iter old.stamp, lanes := [{ l with done := true, age := some (o.iter - old.stamp), data := BitVec.ofNat 512 (unitGet old.data (pa % 128) l.n) }] } ∧
        (o.noInstall = false → (s.core c).copyOf u = none → ∃ cp, (t.core c).copy? u .stamped = some cp ∧ cp.data = old.data ∧ cp.stamp = old.stamp)) ∧
      (accepts o.lag o.iter old.stamp = false → o.ldlMode = 1 → ∃ t, exec (.stampedReadAtHome id) s = .next t ∧
        (t.core c).op? op = some { o with lagTrap := true, lanes := [{ l with done := true, age := some (o.iter - old.stamp) }] }) ∧
      (accepts o.lag o.iter old.stamp = false → o.ldlMode = 0 →
        (s.bankWaiters (s.homeCore v u) < 32 → ∃ t w, exec (.stampedReadAtHome id) s = .next t ∧ t.stWaiters = s.stWaiters ++ [w] ∧ w.home = s.homeCore v u ∧
          w.unit = homeKey v u ∧ w.core = c ∧ w.op = op ∧ w.iter = o.iter ∧ w.lag = o.lag ∧ t.net = dropFirst (fun g => g.id == id) s.net ∧ t.cores = s.cores) ∧
        (32 ≤ s.bankWaiters (s.homeCore v u) → ∃ t, exec (.stampedReadAtHome id) s = .next t ∧ t.stWaiters = s.stWaiters ∧ t.cores = s.cores ∧
          t.flight? id = some { f with hold := .refused })))) ∧
  (∀ (s : State) (c x n : Nat) (o : Op) (l : Lane), (s.core c).op? n = some o → o.ctx = x → o.lanes = [l] → l.done = false →
      (∃ v key pa, l.place = .unit v .stamped key pa) → (∃ d b k g, o.fin = .ldl d b k g) → (∀ r ∈ s.fabReqs, s.forwarded r.core ≠ c) →
    (∀ d, o.due = some d → d < s.clock → ∃ t, exec (.staleTimeout c x n) s = .next t ∧
      (t.core c).op? n = some { o with lagTrap := true, stale := true, lanes := [{ l with done := true }] } ∧
      (∀ w ∈ t.stWaiters, w.remote = none → w.core = c → w.op ≠ n) ∧ ∀ q, t.byteAt q = s.byteAt q) ∧
    ((∀ d, o.due = some d → s.clock ≤ d) → exec (.staleTimeout c x n) s = .next s))

/-- An access of the host that arrives by its link is the next: no earlier one of the link is on its way to its home (18 R366, R369). -/
structure HostTurn (s : State) (addr : Nat) : Prop where
  fresh : ∀ f ∈ s.net, f.id ≠ s.nextId
  slot : NoSlot s s.nextId
  link : ∀ f ∈ s.net, ∀ a n d, f.pkt = .hostAcc a n d → hostLink a ≠ hostLink addr ∨ f.hold ≠ .flying ∨ s.cameTo (.msg f.id) (a / 128) = true

/-- 06 R138, 18 R366 to R370: a write-back merges its dirty words into the unit at its home and leaves the stamp; one of every word brings
the unit whole with its poison. A store to the host window performs with the host's completion. A host read that HEN allows gives the bytes
under HDOM's key and sets HOST; a host write merges them and leaves the stamp; either waits while its home serves another, and is tried again.
Without HEN a read gives zeros and a write nothing; without
an entry of the export table the same, counted in REJH. It rests on the model's own choices in log entries 28 and 33. -/
def Obligations.HostAndWriteBack : Prop :=
  (∀ (s : State) (id c u v key : Nat) (x : List Nat) (words : BitVec 16) (d : Unit128) (p : Bool), s.flight? id = some (flying id (.writeBack c x u v key words d p)) →
      NoSlot s id → Untouched s v u → ∃ t, exec (.writeBack id) s = .next t ∧ (unitNow t v u).tag = some key ∧
        (unitNow t v u).stamp = ((s.hbmUnit u).under key).stamp ∧
        (words = BitVec.allOnes 16 → (unitNow t v u).data = d ∧ (unitNow t v u).poison = p) ∧
        (words ≠ BitVec.allOnes 16 → (unitNow t v u).poison = (s.hbmUnit u).poison ∧ ∀ i, i < 16 → (unitNow t v u).data.extractLsb' (64 * i) 64 =
          if words.getLsbD i then d.extractLsb' (64 * i) 64 else ((s.hbmUnit u).under key).data.extractLsb' (64 * i) 64)) ∧
  (∀ (s : State) (id c c' op w pa z : Nat) (o : Op) (l : Lane) (h : Hold), s.flight? id = some (Flight.mk id h (.hostStore c' op w)) → s.forwarded c' = c →
      (s.core c).op? op = some o → o.lanes = [l] → l.done = false → l.op ≠ .later → l.place = .hostw pa → pa / 8 = w →
      l.op.apply l.n (s.hostMem.read pa l.n) = some z →
    ∃ t, exec (.hostAcknowledgement id) s = .next t ∧ (∀ j, j < l.n → t.byteAt (.host (pa + j)) = BitVec.ofNat 8 (z / 256 ^ j)) ∧
      (∀ q, (∀ j, j < l.n → q ≠ .host (pa + j)) → t.byteAt q = s.byteAt q) ∧ ∀ o', (t.core c).op? op = some o' → ∀ l' ∈ o'.lanes, l'.done = true) ∧
  (∀ (s : State) (addr n u dom : Nat) (d : Unit128), u = addr / 128 → dom = s.dev.hostcfg.toNat % 1024 → HostTurn s addr →
    (s.dev.hostcfg.getLsbD 10 = false →
      exec (.hostCxlMemRead addr n) s = .next { s with hostOut := s.hostOut ++ [.memRead addr n 0 false], nextId := s.nextId + 1 } ∧
      exec (.hostCxlMemWrite addr n d) s = .next { s with nextId := s.nextId + 1 }) ∧
    (s.dev.hostcfg.getLsbD 10 = true →
      (s.exportVc dom addr (fun w => w.getLsbD 61) = none → exec (.hostCxlMemRead addr n) s = .next { s with
        hostOut := s.hostOut ++ [.memRead addr n 0 false], dev := { s.dev with rejh := satInc s.dev.rejh }, nextId := s.nextId + 1 }) ∧
      (s.exportVc dom addr (fun w => w.getLsbD 61 && w.getLsbD 62) = none → exec (.hostCxlMemWrite addr n d) s = .next { s with
        dev := { s.dev with rejh := satInc s.dev.rejh }, nextId := s.nextId + 1 }) ∧
      (∀ v, s.exportVc dom addr (fun w => w.getLsbD 61) = some v →
        (Untouched s v u → ∃ t, exec (.hostCxlMemRead addr n) s = .next t ∧
          t.hostOut = s.hostOut ++ [.memRead addr n (BitVec.ofNat 1024 (unitGet ((s.hbmUnit u).under dom).data (addr % 128) n)) ((s.hbmUnit u).poisonFor dom)] ∧
          (t.home v u).host = true ∧ t.cores = s.cores ∧ ∀ q, t.byteAt q = s.byteAt q) ∧
        (s.blockOf (128 * u) = none → (s.home v u).busy.isSome → ∃ t, exec (.hostCxlMemRead addr n) s = .next t ∧ t.hostOut = s.hostOut ∧
          t.agenda = s.agenda ++ [.hostMem s.nextId 1] ∧ t.flight? s.nextId = some (flying s.nextId (.hostAcc addr n none)) ∧ t.cores = s.cores ∧
          ∀ q, t.byteAt q = s.byteAt q)) ∧
      (∀ v, s.exportVc dom addr (fun w => w.getLsbD 61 && w.getLsbD 62) = some v →
        (Untouched s v u → addr % 128 + n ≤ 128 → ∃ t, exec (.hostCxlMemWrite addr n d) s = .next t ∧
          (unitNow t v u).data = unitPut ((s.hbmUnit u).under dom).data (addr % 128) n (d.toNat % 2 ^ (8 * n)) ∧ (unitNow t v u).tag = some dom ∧
          (unitNow t v u).stamp = ((s.hbmUnit u).under dom).stamp ∧ t.hostOut = s.hostOut) ∧
        (s.blockOf (128 * u) = none → (s.home v u).busy.isSome → ∃ t, exec (.hostCxlMemWrite addr n d) s = .next t ∧ t.hostOut = s.hostOut ∧
          t.agenda = s.agenda ++ [.hostMem s.nextId 1] ∧ t.flight? s.nextId = some (flying s.nextId (.hostAcc addr n (some d))) ∧ t.cores = s.cores ∧
          ∀ q, t.byteAt q = s.byteAt q))))

/-! ### The fabric (08 R187 to R193, 18 R371 to R382, 17 R365) -/

/-- Operation packet p has arrived, none of its core is before it at its unit, and an export entry gives the cache v for its n bytes within one unit that
nobody holds: its home serves it now. -/
structure Served (s : State) (id : Nat) (p : Packet) (opc n : Nat) (write : Bool) (v : Nat) : Prop where
  flight : s.flight? id = some (flying id (.pktIn p))
  code : p.opc = opc
  slot : NoSlot s id
  next : s.packetNext (flying id (.pktIn p)) p = true
  up : s.fabricUp = true
  partition : s.inPartition p.dev = true
  turn : s.turnOf (.msg id) = none
  inside : 0 < n ∧ p.loc % 128 + n ≤ 128
  permit : s.permit p p.loc write = some v
  unit : Untouched s v (p.loc / 128)

/-- Packet q is the last that the module sent, on some route (18 R374). -/
def Replied (s t : State) (q : Packet) : Prop := ∃ n i via, t.net.getLast? = some (flying n (.pktOut { q with via := via } s.clock i))

/-- The unit that a packet names, under the packet's key. -/
def packetUnit (s : State) (p : Packet) : VUnit := (s.hbmUnit (p.loc / 128)).under p.domain

/-- The unit is poisoned for the packet's key. -/
def packetPoison (s : State) (p : Packet) : Bool := (s.hbmUnit (p.loc / 128)).poisonFor p.domain

/-- 18 R368, R376, R377, 08 R186 to R188, 06 R151: operation packets at their homes. A packet that no export entry permits is discarded
without a reply and counted in REJF. A LOAD is answered with the bytes and the stamp (of a STAMPED unit beyond its bound: stale data, status
2, a waiter or status 3, as ldl); a STORE merges the bytes of its mask and is acknowledged; an ATOMIC and a CAS2 act on the unit and answer
the old bytes; an ENQ puts its link in front of the head and answers the old head. Poisoned bytes are answered with status 1. A stamp is set
by a packet of class STAMPED and by no other. A WITHDRAW removes the waiter of its request and no other. -/
def Parts.FabricHomes : Prop :=
  (∀ (s : State) (id : Nat) (p : Packet) (i : Instr) (w : Bool), s.flight? id = some (flying id (.pktIn p)) → NoSlot s id → s.packetNext (flying id (.pktIn p)) p = true →
    s.blockOf (128 * (p.loc / 128)) = none → (i, p.opc, w) ∈ [(Instr.load id, 0, false), (.store id, 1, true), (.atomic id, 2, true), (.cas2Packet id, 3, true), (.enq id, 4, true), (.chase id, 5, false)] →
    0 < p.len → s.permit p p.loc w = none → ∃ t, exec i s = .next t ∧ t.net = dropFirst (fun f => f.id == id) s.net ∧ t.dev.rejf = satInc s.dev.rejf ∧ t.cores = s.cores ∧
      ∀ q, t.byteAt q = s.byteAt q) ∧
  (∀ (s : State) (id v : Nat) (p : Packet), Served s id p 0 p.len false v →
    ((p.cls ≠ 1 ∨ accepts p.lag p.stamp (packetUnit s p).stamp = true ∨ p.mode = 2) → ∃ t, exec (.load id) s = .next t ∧ t.cores = s.cores ∧ (∀ q, t.byteAt q = s.byteAt q) ∧
      Replied s t (if packetPoison s p then replyTo p 8 1 p.len 0 false 0
        else replyTo p 8 0 p.len (packetUnit s p).stamp (decide (p.cls = 1) && !accepts p.lag p.stamp (packetUnit s p).stamp)
          (unitGet (packetUnit s p).data (p.loc % 128) p.len))) ∧
    (p.cls = 1 → accepts p.lag p.stamp (packetUnit s p).stamp = false →
      (p.mode = 1 → ∃ t, exec (.load id) s = .next t ∧ t.cores = s.cores ∧ Replied s t (replyTo p 8 2 p.len (packetUnit s p).stamp false 0)) ∧
      (p.mode = 0 → 32 ≤ s.bankWaiters (s.homeCore v (p.loc / 128)) → ∃ t, exec (.load id) s = .next t ∧ t.cores = s.cores ∧ t.stWaiters = s.stWaiters ∧
        Replied s t (replyTo p 8 3 p.len 0 false 0)) ∧
      (p.mode = 0 → s.bankWaiters (s.homeCore v (p.loc / 128)) < 32 → ∃ t w, exec (.load id) s = .next t ∧ t.net = dropFirst (fun f => f.id == id) s.net ∧
        t.stWaiters = s.stWaiters ++ [w] ∧ w.home = s.homeCore v (p.loc / 128) ∧ w.unit = homeKey v (p.loc / 128) ∧ w.remote = some p ∧ w.iter = p.stamp ∧ w.lag = p.lag))) ∧
  (∀ (s : State) (id v : Nat) (p : Packet), Served s id p 1 p.len true v → p.payload.toNat / 2 ^ 1024 < 2 ^ (8 * p.len) → ∃ t, exec (.store id) s = .next t ∧
    Replied s t (replyTo p 9 0 0 0 false p.len) ∧ (unitNow t v (p.loc / 128)).tag = some p.domain ∧
    (unitNow t v (p.loc / 128)).stamp = (if p.cls = 1 then p.stamp else (packetUnit s p).stamp) ∧
    ∀ i, i < 1024 → (unitNow t v (p.loc / 128)).data.getLsbD i =
      if 8 * (p.loc % 128) ≤ i ∧ i < 8 * (p.loc % 128 + p.len) ∧ (p.payload.toNat / 2 ^ 1024 = 0 ∨ p.payload.getLsbD (1024 + (i - 8 * (p.loc % 128))) = true)
      then p.payload.getLsbD (i - 8 * (p.loc % 128)) else (packetUnit s p).data.getLsbD i) ∧
  (∀ (s : State) (id v n : Nat) (p : Packet) (i : Instr) (opc : Nat) (op : LaneOp),
      ((i, opc, n, op) = (Instr.atomic id, 2, p.atomicOp.1, p.atomicOp.2) ∨
        (i, opc, n, op) = (Instr.cas2Packet id, 3, (if p.payload.getLsbD 512 then 32 else 16), LaneOp.cas2 (p.payload.getLsbD 512) p.operand)) → Served s id p opc n true v →
    (packetPoison s p = true → ∃ t, exec i s = .next t ∧ Replied s t (replyTo p 8 1 (if opc = 2 then n else 64) 0 false 0) ∧ unitNow t v (p.loc / 128) = s.hbmUnit (p.loc / 128)) ∧
    (packetPoison s p = false → ∃ t, exec i s = .next t ∧
      Replied s t (if opc = 2 then replyTo p 8 0 n 0 false (unitGet (packetUnit s p).data (p.loc % 128) n)
        else replyTo p 8 0 64 0 false (unitGet (packetUnit s p).data (p.loc % 128) n +
          (op.apply n (unitGet (packetUnit s p).data (p.loc % 128) n)).isSome.toNat * 2 ^ 256)) ∧
      (op.apply n (unitGet (packetUnit s p).data (p.loc % 128) n) = none → unitNow t v (p.loc / 128) = s.hbmUnit (p.loc / 128)) ∧
      (∀ z, op.apply n (unitGet (packetUnit s p).data (p.loc % 128) n) = some z → (unitNow t v (p.loc / 128)).data = unitPut (packetUnit s p).data (p.loc % 128) n z ∧
        (unitNow t v (p.loc / 128)).tag = some p.domain ∧ (unitNow t v (p.loc / 128)).stamp = if p.cls = 1 then p.stamp else (packetUnit s p).stamp))) ∧
  (∀ (s : State) (id v link : Nat) (p : Packet), Served s id p 4 8 true v → link = p.payload.toNat / 2 ^ 512 % 2 ^ 42 → s.permit p link true = some v →
      link / 128 = p.loc / 128 → link % 8 = 0 → p.loc % 8 = 0 → link ≠ p.loc → packetPoison s p = false → ∃ t, exec (.enq id) s = .next t ∧
    Replied s t (replyTo p 8 0 64 0 false (unitGet (packetUnit s p).data (p.loc % 128) 8)) ∧
    unitGet (unitNow t v (p.loc / 128)).data (p.loc % 128) 8 = p.payload.toNat / 2 ^ 320 % 2 ^ 64 ∧
    unitGet (unitNow t v (p.loc / 128)).data (link % 128) 8 = unitGet (packetUnit s p).data (p.loc % 128) 8) ∧
  (∀ (s : State) (id : Nat) (p : Packet) (h : Hold), s.flight? id = some (Flight.mk id h (.pktIn p)) → p.opc = 6 → ∃ t, exec (.withdraw id) s = .next t ∧
    t.stWaiters = s.stWaiters.filter (fun w => match w.remote with | some q => !q.sameRequest p | none => true) ∧ t.cores = s.cores ∧ ∀ q, t.byteAt q = s.byteAt q)

/-- 08 R189: CHASE from its first node, by the doublewords of one unit. A null pointer gives status 1, a key or next address that is no
multiple of 8 status 4, a key outside the page status 2. The key of a node that meets the predicate gives status 0 with the node and its key,
the last node allowed that does not meet it status 3; otherwise the next pointer is read: status 2 when it lies outside the page, and 1 when
it is null. That a word outside the page is not read is the model's own choice in log entry 61. -/
def Parts.FabricChase : Prop :=
  ∀ (s : State) (id v first size ka na : Nat) (p : Packet), Served s id p 5 8 false v → first = p.payload.toNat / 2 ^ 512 % 2 ^ 56 →
      size = 2 ^ (p.payload.toNat / 2 ^ 576 % 64) → ka = first + p.payload.toNat / 2 ^ 336 % 65536 → na = first + p.payload.toNat / 2 ^ 320 % 65536 →
    (first = 0 → ∃ t, exec (.chase id) s = .next t ∧ Replied s t (replyTo p 8 0 64 0 false (chaseResult 0 0 1 0))) ∧
    (first ≠ 0 → (ka % 8 ≠ 0 ∨ na % 8 ≠ 0) → ∃ t, exec (.chase id) s = .next t ∧ Replied s t (replyTo p 8 0 64 0 false (chaseResult first 0 4 0))) ∧
    (first ≠ 0 → ka % 8 = 0 → na % 8 = 0 → ka / size ≠ first / size → ∃ t, exec (.chase id) s = .next t ∧
      Replied s t (replyTo p 8 0 64 0 false (chaseResult first 0 2 0))) ∧
    (∀ key kp np, first ≠ 0 → ka % 8 = 0 → na % 8 = 0 → ka / size = first / size → kp = p.loc - first % size + ka % size →
      np = p.loc - first % size + na % size → kp / 128 = p.loc / 128 → s.permit p kp false = some v →
      packetPoison s p = false → key = unitGet (packetUnit s p).data (kp % 128) 8 →
      (chasePred p.operand key = true → ∃ t, exec (.chase id) s = .next t ∧ Replied s t (replyTo p 8 0 64 0 false (chaseResult first key 0 1)) ∧ t.cores = s.cores ∧
        ∀ q, t.byteAt q = s.byteAt q) ∧
      (chasePred p.operand key = false → p.payload.toNat / 2 ^ 352 % 256 = 1 → ∃ t, exec (.chase id) s = .next t ∧
        Replied s t (replyTo p 8 0 64 0 false (chaseResult first key 3 1))) ∧
      (chasePred p.operand key = false → p.payload.toNat / 2 ^ 352 % 256 ≠ 1 → na / size ≠ first / size → ∃ t, exec (.chase id) s = .next t ∧
        Replied s t (replyTo p 8 0 64 0 false (chaseResult first key 2 1))) ∧
      (chasePred p.operand key = false → p.payload.toNat / 2 ^ 352 % 256 ≠ 1 → na / size = first / size → np / 128 = p.loc / 128 →
        s.permit p np false = some v → unitGet (packetUnit s p).data (np % 128) 8 = 0 → ∃ t, exec (.chase id) s = .next t ∧
        Replied s t (replyTo p 8 0 64 0 false (chaseResult 0 key 1 1))))

/-- Fabric packets at their homes (18 R376, R377, 08 R186 to R189). It rests on the model's own choices in log entries 7, 35 and 61. -/
def Obligations.FabricHome : Prop := Parts.FabricHomes ∧ Parts.FabricChase

/-- No reply that reached the module before, for the same core and unit, is left (18 R375). -/
def NextReply (s : State) (id : Nat) (p : Packet) : Prop :=
  ∀ f ∈ s.net.takeWhile (fun f => f.id != id), ∀ q, f.pkt = .pktIn q → 8 ≤ q.opc → p.follows q = false

/-- 18 R375 to R378, R380, 08 R193, 17 R365: the requester's side, for an operation whose one lane the request serves and that names no
object. A reply waits for those of its core and unit that came before it. A DATA reply brings the bytes; status 1 faults POISON, 2 traps, 3 has the request sent again; an ACK lets a store leave. A NACK
faults LINK_INTEGRITY, or arms the next fence for a store; so does a request that is older than 2^22 cycles with FABRIC_TIMEOUT, and its tag
takes the next incarnation. A reply without a request is dropped, and counted when its incarnation is another. A packet 2^24 cycles old is
discarded. It rests on the model's own choice in log entry 35. -/
def Obligations.FabricReplies : Prop :=
  (∀ (s : State) (id opc : Nat) (p : Packet) (h : Hold) (i : Instr), s.flight? id = some (Flight.mk id h (.pktIn p)) → p.opc = opc →
      (i, opc) ∈ [(Instr.data id, 8), (.ack id, 9), (.nack id, 10)] →
    (¬ NextReply s id p → exec i s = .next s) ∧
    (NextReply s id p → s.requestOf p = none → ∃ t, exec i s = .next t ∧ t.net = dropFirst (fun f => f.id == id) s.net ∧ (t.core p.core).ops = (s.core p.core).ops ∧
      (t.core p.core).lateReplies = (s.core p.core).lateReplies + if tget (s.core p.core).tagInc p.tag 0 = p.inc then 0 else 1) ∧
    (∀ r c o l, NextReply s id p → s.requestOf p = some r → r.bar = none → c = s.forwarded r.core → (s.core c).op? r.op = some o → o.lanes = [l] → l.done = false → o.groupOf l = some r.group →
      (opc = 8 → p.status = 0 → l.op = .read → o.hasResult = true → (∀ d, o.due = some d → s.clock ≤ d) → ∃ t, exec i s = .next t ∧
        (∃ o' l', (t.core c).op? r.op = some o' ∧ o' = { o with lanes := [l'], stale := o.stale || p.stale } ∧ l'.done = true ∧
          l'.data = BitVec.ofNat 512 (p.payload.toNat / 2 ^ (8 * (l.remotePa - p.pa.toNat)) % 2 ^ (8 * l.n))) ∧
        (∀ q ∈ t.fabReqs, q.core ≠ r.core ∨ q.tag ≠ r.tag)) ∧
      (opc = 8 → p.status = 1 → o.hasResult = true → o.fault = none → o.due = none → ∃ t o', exec i s = .next t ∧ (t.core c).op? r.op = some o' ∧ o'.fault = some (accFault .poison 0 l.va)) ∧
      (opc = 8 → p.status = 2 → o.hasResult = true → o.due = none → ∃ t o', exec i s = .next t ∧ (t.core c).op? r.op = some o' ∧ o'.lagTrap = true) ∧
      (opc = 8 → p.status = 3 → ∃ t q, exec i s = .next t ∧
        t.net = ((s.drop id).unsend r).net ++ [Flight.mk s.nextId .refused (.pktOut q s.clock 0)] ∧ q.tag = r.tag ∧ q.inc = r.inc ∧ q.core = r.core ∧ t.fabReqs = s.fabReqs ∧ t.cores = s.cores) ∧
      (opc = 9 → p.status = 0 → o.fin = .none → o.fault = none → o.due = none → o.ctx ≠ noCtx → ∃ t, exec i s = .next t ∧ (t.core c).op? r.op = none ∧
        ∀ q ∈ t.fabReqs, q.core ≠ r.core ∨ q.tag ≠ r.tag) ∧
      (opc = 10 → r.write = false → o.hasResult = true → o.fault = none → ∃ t o', exec i s = .next t ∧ (t.core c).op? r.op = some o' ∧
        o'.fault = some (accFault .linkIntegrity r.dev l.va)) ∧
      (opc = 10 → r.write = true → r.ctx < 100 → o.isLoad = false → o.fin = .none → o.fault = none → o.ctx ≠ noCtx → (s.ctx c r.ctx).fenceErr = none → ∃ t, exec i s = .next t ∧
        (t.ctx c r.ctx).fenceErr = some (.linkIntegrity, r.dev) ∧ (t.core c).op? r.op = none))) ∧
  (∀ (s : State) (c tag : Nat) (r : FabReq), s.fabReqs.find? (fun r => r.core == c && r.tag == tag) = some r →
    (s.clock ≤ r.sentAt + 2 ^ 22 → exec (.fabricTimeout c tag) s = .next s) ∧
    (∀ o l, r.sentAt + 2 ^ 22 < s.clock → r.bar = none → s.forwarded c = c → (s.core c).op? r.op = some o → o.lanes = [l] → l.done = false → o.groupOf l = some r.group →
      r.write = false → o.hasResult = true → o.fault = none → ∃ t o', exec (.fabricTimeout c tag) s = .next t ∧ (t.core c).op? r.op = some o' ∧
        o'.fault = some (accFault .fabricTimeout r.dev l.va) ∧ tget (t.core c).tagInc tag 0 = (r.inc + 1) % 16 ∧ ∀ q ∈ t.fabReqs, q.core ≠ c ∨ q.tag ≠ tag)) ∧
  (∀ (s : State) (id n j : Nat) (p : Packet) (h : Hold), s.flight? id = some (Flight.mk id h (.pktOut p n j)) →
    (s.clock < n + 2 ^ 24 → exec (.packetDiscard id) s = .next s) ∧
    (n + 2 ^ 24 ≤ s.clock → ∃ t, exec (.packetDiscard id) s = .next t ∧ t.net = dropFirst (fun f => f.id == id) s.net ∧ t.cores = s.cores ∧ (∀ i, p ∉ (t.port i).tx) ∧
      ∀ q, t.byteAt q = s.byteAt q))

/-- 18 R373, R374, R379 to R382: the ports. A group of 16 flits, or of all that are ready, leaves in order under the port's counter, which
rises by one, and the packets that begin in it stay in the replay buffer. A verified packet for this module arrives, one for another device of the partition goes on, and one of a reserved code
is counted in REJF; a group that fails is asked for again, and a device without partition or key counts every packet. The fourth failure in
a row of a group answers its requests with NACK and takes the port out of adaptive routing, until the re-enable. A key block that opens
gives the job key and sets KV with the counters at zero, one that does not changes nothing; dissolving clears PEN and KV, the key and what
is on its way out. It rests on the model's own choices in log entries 34 and 35. -/
def Obligations.FabricPorts : Prop :=
  ∀ (s : State) (i : Nat),
    ((s.fabricUp = false ∨ (s.port i).tx = []) → exec (.tagGroupClose i) s = .next s) ∧
    (s.fabricUp = true → (s.port i).tx ≠ [] → (∀ p, (s.port i).tx.head? = some p → (s.port i).part < p.flits) →
      ∃ t gone, exec (.tagGroupClose i) s = .next t ∧ gone ++ (t.port i).tx = (s.port i).tx ∧
        (gone.map Packet.flits).sum + (t.port i).part = (s.port i).part + min 16 (s.port i).flits ∧
        (∀ p, (t.port i).tx.head? = some p → (t.port i).part < p.flits) ∧ (t.port i).counter = (s.port i).counter + 1 ∧
        (t.port i).replay = (s.port i).replay ++ [((s.port i).counter,
          (gone ++ (if (t.port i).part = 0 then [] else (t.port i).tx.take 1)).drop (if (s.port i).part = 0 then 0 else 1))] ∧
        (∀ k, k ≠ i → t.port k = s.port k) ∧ t = { s with ports := t.ports }) ∧
    (∀ g v, s.fabricUp = false → ∃ t, exec (.tagFlit i g v) s = .next t ∧ t = { s with dev := { s.dev with rejf := t.dev.rejf } } ∧
      t.dev.rejf.toNat = min (s.dev.rejf.toNat + g.length) (2 ^ 32 - 1)) ∧
    (∀ g, s.fabricUp = true → exec (.tagFlit i g false) s = .next { s with hostOut := s.hostOut ++ [.retransmit i] }) ∧
    (∀ p dev, s.fabricUp = true → dev = (if p.opc < 8 then p.pa.toNat / 2 ^ 42 else p.dev) →
      (p.opc = 7 ∨ 11 ≤ p.opc → exec (.tagFlit i [p] true) s = .next { s with dev := { s.dev with rejf := satInc s.dev.rejf } }) ∧
      (p.opc ≠ 7 → p.opc < 11 → dev = s.devNum → ∃ t, exec (.tagFlit i [p] true) s = .next t ∧ t.net = s.net ++ [flying s.nextId (.pktIn { p with via := none })] ∧ t.ports = s.ports) ∧
      (p.opc ≠ 7 → p.opc < 11 → dev ≠ s.devNum → s.inPartition dev = false → exec (.tagFlit i [p] true) s = .next s) ∧
      (∀ j via, p.opc ≠ 7 → p.opc < 11 → dev ≠ s.devNum → s.inPartition dev = true → s.route dev p = (j, via) →
        (∃ t, exec (.tagFlit i [p] true) s = .next t ∧ t.net = s.net ++ [flying s.nextId (.pktOut { p with via := via } s.clock j)] ∧
          (t.port j).tx = (s.port j).tx ++ [{ p with via := via }] ∧ ∀ k, k ≠ j → t.port k = s.port k) ∧
        (p.begunAt s.devNum = false → (p.via = none ∨ (∃ d, p.via = some d ∧ d / 32 = s.devNum / 32) → j = s.portTo dev ∧ via = none) ∧
          ∀ d, p.via = some d → d / 32 ≠ s.devNum / 32 → j = s.portTo d ∧ via = some d))) ∧
    (∀ k, (∀ g ∈ (s.port i).replay, g.1 ≠ k) → exec (.retransmitRequest i k) s = .next s) ∧
    (∀ k g, (s.port i).replay.find? (fun g => g.1 == k) = some g →
      (tget (s.port i).fails k 0 < 3 → ∃ t, exec (.retransmitRequest i k) s = .next t ∧ tget (t.port i).fails k 0 = tget (s.port i).fails k 0 + 1 ∧
        (∀ j, j ≠ k → tget (t.port i).fails j 0 = tget (s.port i).fails j 0) ∧ t.port i = { s.port i with fails := (t.port i).fails } ∧
        (∀ j, j ≠ i → t.port j = s.port j) ∧ t.net = s.net) ∧
      (∀ p, 3 ≤ tget (s.port i).fails k 0 → g.2 = [p] → ∃ t, exec (.retransmitRequest i k) s = .next t ∧ (t.port i).adaptiveOff = true ∧
        tget (t.port i).fails k 0 = 0 ∧ (∀ j, j ≠ k → tget (t.port i).fails j 0 = tget (s.port i).fails j 0) ∧
        (∀ x ∈ (t.port i).replay, x.1 ≠ k) ∧ (p.opc < 6 → p.dev = s.devNum → t.net = s.net ++ [flying s.nextId (.pktIn (replyTo p 10 4 0 0 false 0))]) ∧
        (6 ≤ p.opc → t.net = s.net))) ∧
    (∃ t, exec (.adaptiveRoutingReenable i) s = .next t ∧ t.port i = { s.port i with adaptiveOff := false } ∧ (∀ j, j ≠ i → t.port j = s.port j) ∧ t = { s with ports := t.ports }) ∧
    (∀ k, k = Config.jobKey ((List.range 1608).map fun j => s.dev.keyBlock.byte j) →
      (s.dev.fabcfg.getLsbD 63 = true ∨ k = none → exec .keyload s = .next s) ∧
      (∀ key, s.dev.fabcfg.getLsbD 63 = false → k = some key → ∃ t, exec .keyload s = .next t ∧ t.dev.jobKey = some key ∧ t.dev.fabcfg.getLsbD 63 = true ∧
        (∀ j, j < 63 → t.dev.fabcfg.getLsbD j = s.dev.fabcfg.getLsbD j) ∧ t.dev.keyBlock = [] ∧ (∀ j, (t.port j).counter = 0) ∧ t.cores = s.cores ∧ t.net = s.net)) ∧
    (s.dev.fabcfg.getLsbD 62 = false → exec .partitionDissolve s = .next s) ∧
    (s.dev.fabcfg.getLsbD 62 = true → ∃ t, exec .partitionDissolve s = .next t ∧ t.dev.jobKey = none ∧ t.dev.fabcfg.getLsbD 62 = false ∧ t.dev.fabcfg.getLsbD 63 = false ∧
      (∀ j, j < 62 → t.dev.fabcfg.getLsbD j = s.dev.fabcfg.getLsbD j) ∧ (∀ j, (t.port j).tx = [] ∧ (t.port j).replay = []) ∧ (∀ f ∈ t.net, ∀ p n j, f.pkt ≠ .pktOut p n j) ∧ t.cores = s.cores)

/-! ### Device registers, debug and bring-up (01 R31, 03 R80, 24 R411 to R424) -/

/-- 01 R31, 18 R367, R368, 24 R415, 06 R141, 13 R269, R271, 09 R211, R212, 24 R419: register writes outside the CSR instructions. Each
device register keeps its writable bits and nothing else changes; read-only and reserved offsets, and the holes of a core's window, discard
the write. A write of ITER sets it and drops the era it makes unreachable; TSHAPE takes a legal shape with the tile DIRTY, ROWS = 0
unconfigures it, and another shape leaves it; TSAVEP turns SAVED tiles DIRTY; a tile that is LAZY loads its image first, and the write is
tried again until it has; a write of BOOTGO begins the boot in STAGE 2 only; MXSTEP takes STEP and PEND, and clearing PEND abandons the
interrupted operation with the steps that it had done; a counter is cleared; a read of TRCDATA gives the entry at RD and advances it. The
registers of a core are written here while it is not being migrated, and later otherwise. It rests on the model's own choices in log entries 38,
52 and 79. -/
def Obligations.DeviceRegisters : Prop :=
  ∀ (s : State) (v : Word),
    exec (.registerWrite 0x08 v) s = .next { s with dev := { s.dev with bootAddr := BitVec.ofNat 64 (v.toNat / 4096 * 4096) } } ∧
    exec (.registerWrite 0x10 v) s = .next { s with dev := { s.dev with bootLen := v } } ∧
    exec (.registerWrite 0x8008 v) s = .next { s with dev := { s.dev with hostcfg := v &&& 0x7FF } } ∧
    (∀ i, i < 16 → ∃ t u, exec (.registerWrite (0x8100 + 16 * i) v) s = .next t ∧ exec (.registerWrite (0x8108 + 16 * i) v) s = .next u ∧
      (tget t.dev.exports i (0, 0)) = (BitVec.ofNat 64 (v.toNat / 4096 % 2 ^ 30 * 4096), (tget s.dev.exports i (0, 0)).2) ∧
      (tget u.dev.exports i (0, 0)) = ((tget s.dev.exports i (0, 0)).1, v &&& 0xFFFFFC00FFFFFFFF) ∧
      ∀ j, j ≠ i → tget t.dev.exports j (0, 0) = tget s.dev.exports j (0, 0) ∧ tget u.dev.exports j (0, 0) = tget s.dev.exports j (0, 0)) ∧
    (∀ off ∈ [0x00, 0x1000, 0x1800, 0x2000, 0x20000, 0x1000000], exec (.registerWrite off v) s = .next s) ∧
    exec (.registerWrite 0x18 v) s = .next (if s.dev.stage = 2 then { s with dev := { s.dev with stage := 3 } } else s) ∧
    (∀ c o, c < 8192 → o < 4096 → (s.core (s.forwarded c)).moving = true → exec (.registerWrite (0x10000000 + 4096 * c + o) v) s =
      .next { s with agenda := s.agenda ++ [.hostWrite (0x10000000 + 4096 * c + o) v 1] }) ∧
    (∀ c o, c < 8192 → o < 4096 → windowCsr o = none → (s.core (s.forwarded c)).moving = false → exec (.registerWrite (0x10000000 + 4096 * c + o) v) s = .next s) ∧
    exec (.rejCounterClear false) s = .next { s with dev := { s.dev with rejh := 0 } } ∧
    exec (.rejCounterClear true) s = .next { s with dev := { s.dev with rejf := 0 } } ∧
    (∀ c x, (s.core c).moving = false → ∃ t, exec (.iterWrite c x v) s = .next t ∧ t.ctx c x = { s.ctx c x with iter := v.setWidth 16 } ∧ (∀ y, y ≠ x → t.ctx c y = s.ctx c y) ∧
      (∀ k, k ≠ c → t.core k = s.core k) ∧ (∀ q, t.byteAt q = s.byteAt q) ∧ (∀ cp ∈ (t.core c).l1, cp ∈ (s.core c).l1) ∧
      ((s.ctx c x).iter ≠ v.setWidth 16 → ∀ cp ∈ (t.core c).l1, cp.cls = .stamped → cp.stamp.toNat / 16384 ≠ (v.toNat % 65536 / 16384 + 2) % 4) ∧
      ∀ cp ∈ (s.core c).l1, (cp.cls ≠ .stamped ∨ cp.stamp.toNat / 16384 ≠ (v.toNat % 65536 / 16384 + 2) % 4) → cp ∈ (t.core c).l1) ∧
    (∀ (c : Nat) (n : BitVec 3) (u : State), (s.core c).moving = false → ((s.core c).tile n.toNat).st = 3 → s.lazyByUnit c true n.toNat = (u, .wait) →
      exec (.tshapeWrite c n v) s = .next { u with agenda := u.agenda ++ [.hostWrite (0x10000C00 + 4096 * c + 8 * (0x20 + n.toNat)) v 1] }) ∧
    (∀ (c : Nat) (n : BitVec 3) (u : State), (s.core c).moving = false → ((s.core c).tile n.toNat).st = 3 → s.lazyByUnit c true n.toNat = (u, .all) →
      exec (.tshapeWrite c n v) s = .next (u.writeTshape c n.toNat v)) ∧
    (∀ (c : Nat) (n : BitVec 3), (s.core c).moving = false → ((s.core c).tile n.toNat).st ≠ 3 → ∃ t, exec (.tshapeWrite c n v) s = .next t ∧ (∀ j, j ≠ n.toNat → (t.core c).tile j = (s.core c).tile j) ∧
      (∀ k, k ≠ c → t.core k = s.core k) ∧ (∀ q, t.byteAt q = s.byteAt q) ∧
      (t.core c).tile n.toNat = (if v.toNat % 32 = 0 then { (s.core c).tile n.toNat with rows := 0, rowb := v.toNat / 256 % 128, fmt := v.toNat / 65536 % 32 }
        else if shapeOk (v.toNat % 32) (v.toNat / 256 % 128) (v.toNat / 65536 % 32) then
          { (s.core c).tile n.toNat with rows := v.toNat % 32, rowb := v.toNat / 256 % 128, fmt := v.toNat / 65536 % 32, st := 2 }
        else (s.core c).tile n.toNat)) ∧
    ((∀ j, j < 8 → (s.mine.tile j).st ≠ 3) → s.mine.moving = false → ∃ t, exec (.tsavepWrite v) s = .next t ∧ t.mine.tsavep = BitVec.ofNat 64 (v.toNat / 8192 * 8192) ∧
      (∀ j, t.mine.tile j = { s.mine.tile j with st := if (s.mine.tile j).st = 1 then 2 else (s.mine.tile j).st }) ∧ (∀ k, k ≠ s.curCore → t.core k = s.core k) ∧
      (∀ q, t.byteAt q = s.byteAt q)) ∧
    (∀ c, (s.core c).moving = false → ∃ t, exec (.mxstepWrite c v) s = .next t ∧ (t.core c).mxpend = v.getLsbD 32 ∧ (t.core c).mxstep = v.setWidth 32 ∧
      (∀ k, k ≠ c → t.core k = s.core k) ∧ (∀ q, t.byteAt q = s.byteAt q) ∧
      (v.getLsbD 32 = true ∨ (s.core c).mxpend = false → (t.core c).mxq = (s.core c).mxq) ∧
      (v.getLsbD 32 = false → (s.core c).mxpend = true → ∀ o l, (s.core c).mxq = o :: l → (t.core c).mxq = { o with abandoned := true, step := (s.core c).mxstep.toNat } :: l)) ∧
    (∀ k, (∃ t, exec (.counterClear k false) s = .next t ∧ t.dbgOf k = { s.dbgOf k with cecnt := 0 } ∧ t = { s with dbg := t.dbg }) ∧
      (∃ t, exec (.counterClear k true) s = .next t ∧ t.core (256 * k + (s.dbgOf k).sel) = { s.core (256 * k + (s.dbgOf k).sel) with lateReplies := 0 } ∧
        (∀ c, c ≠ 256 * k + (s.dbgOf k).sel → t.core c = s.core c)) ∧
      (∀ c, c = 256 * k + (s.dbgOf k).sel → ∃ t, exec (.trcdataRead k) s = .next t ∧ t.hostOut = s.hostOut ++ [.trace (tget (s.core c).trace (s.core c).traceRd 0)] ∧
        t.core c = { s.core c with traceRd := ((s.core c).traceRd + 1) % 512 } ∧ ∀ j, j ≠ c → t.core j = s.core j))

/-- 17 R358, 24 R419 to R424: tmark writes an entry of its core's state log when the log runs, after that of a core that becomes running, a gap entry stands for the cycles that a
DELTA cannot hold, and neither does anything else. bkpt halts its context after itself and records the hit where breakpoints are enabled,
and faults ILLEGAL elsewhere. The cross-trigger, where DBGEN permits it, halts every compute context of its cluster that is neither DORMANT
nor HALTED, once, on the cores that are not being migrated; RELEASE resumes exactly those, wherever they stand then. It rests on the model's own choice in log entry 44. -/
def Obligations.Debugging : Prop :=
  (∀ (m : Bool) (a : BitVec 5) (s : State), s.NoTrapDue m →
    (s.tracing s.curCore = false → ∃ t, exec (.tmark m a) s = .next t ∧ s.Moves t ∧ s.Advanced t m) ∧
    (s.tracing s.curCore = true → s.clock - s.mine.traceLast < 2 ^ 28 → s.mine.traceState ≠ 0 → s.mine.traceAt < 512 → ∃ t, exec (.tmark m a) s = .next t ∧
      s.Advanced t m ∧ s.SameRegisters t ∧ t.mine.traceState = 0 ∧
      tget t.mine.trace s.mine.traceAt 0 = BitVec.ofNat 64 ((s.clock - s.mine.traceLast) * 2 ^ 32) ∧
      tget t.mine.trace ((s.mine.traceAt + 1) % 512) 0 = BitVec.ofNat 64 (2 ^ 62 + (s.reg a).toNat % 2 ^ 32) ∧
      t.mine.traceAt = (s.mine.traceAt + 2) % 512 ∧ t.mine.traceLast = s.clock) ∧
    (s.tracing s.curCore = true → s.clock - s.mine.traceLast < 2 ^ 28 → s.mine.traceState = 0 → ∃ t, exec (.tmark m a) s = .next t ∧ s.Advanced t m ∧ s.SameRegisters t ∧ (∀ q, t.byteAt q = s.byteAt q) ∧
      tget t.mine.trace s.mine.traceAt 0 = BitVec.ofNat 64 (2 ^ 62 + (s.clock - s.mine.traceLast) * 2 ^ 32 + (s.reg a).toNat % 2 ^ 32) ∧
      t.mine.traceAt = (s.mine.traceAt + 1) % 512 ∧ t.mine.traceLast = s.clock ∧ ∀ j, j ≠ s.mine.traceAt → tget t.mine.trace j 0 = tget s.mine.trace j 0) ∧
    ((s.dbgOf (clusterOf s.curCore)).bken = false → exec (.bkpt m) s = .next (s.faultHere { cause := .illegal, info := encodeWord (.bkpt m), addr := 0, undeliv := false })) ∧
    ((s.dbgOf (clusterOf s.curCore)).bken = true → ∃ t, exec (.bkpt m) s = .next t ∧ t.me.st = .halted ∧ t.me.pc = s.me.advance.pc ∧ s.SameRegisters t ∧
      (∀ q, t.byteAt q = s.byteAt q) ∧ (∀ x, x ≠ s.curCtx → t.ctx s.curCore x = s.ctx s.curCore x) ∧ t.dbgOf (clusterOf s.curCore) = (if (s.dbgOf (clusterOf s.curCore)).recorded then s.dbgOf (clusterOf s.curCore)
        else { s.dbgOf (clusterOf s.curCore) with recorded := true, cause := 3, core := s.curCore }))) ∧
  (∀ (s : State) (c : Nat),
    (s.tracing c = false ∨ s.clock - (s.core c).traceLast < 2 ^ 28 → ∃ t, exec (.traceGap c) s = .next t ∧ ∀ k, t.core k = s.core k) ∧
    (s.tracing c = true → 2 ^ 28 ≤ s.clock - (s.core c).traceLast → s.clock - (s.core c).traceLast < 2 * (2 ^ 28 - 1) → ∃ t, exec (.traceGap c) s = .next t ∧
      tget (t.core c).trace (s.core c).traceAt 0 = BitVec.ofNat 64 (2 * 2 ^ 62 + (s.core c).traceState.toNat * 2 ^ 60 + (2 ^ 28 - 1) * 2 ^ 32) ∧
      (t.core c).traceAt = ((s.core c).traceAt + 1) % 512 ∧ (t.core c).traceLast = (s.core c).traceLast + (2 ^ 28 - 1) ∧ (t.core c).ctxs = (s.core c).ctxs)) ∧
  (∀ (s : State) (k : Nat),
    (s.dev.dbgen.getLsbD 2 = false ∨ (s.dbgOf k).frozen = true → exec (.gong k) s = .next s) ∧
    (s.dev.dbgen.getLsbD 2 = true → (s.dbgOf k).frozen = false → ∃ t, exec (.gong k) s = .next t ∧ (t.dbgOf k).frozen = true ∧ (∀ q, t.byteAt q = s.byteAt q) ∧
      (∀ c x, (clusterOf c ≠ k ∨ s.isCompute c = false ∨ (s.core c).moving = true ∨ (s.ctx c x).st = .dormant ∨ (s.ctx c x).st = .halted) → t.ctx c x = s.ctx c x) ∧
      ∀ c x, x < 11 → clusterOf c = k → s.isCompute c = true → (s.core c).moving = false → (s.ctx c x).st ≠ .dormant → (s.ctx c x).st ≠ .halted → t.ctx c x = { s.ctx c x with st := .halted, gonged := some k }) ∧
    (∃ t, exec (.release k) s = .next t ∧ t.dbgOf k = { s.dbgOf k with frozen := false, recorded := false, cause := 0, core := 0 } ∧
      (∀ c x, (s.isCompute c = false ∨ (s.ctx c x).gonged ≠ some k ∨ (s.ctx c x).st ≠ .halted) → t.ctx c x = s.ctx c x) ∧
      ∀ c x, x < 11 → s.isCompute c = true → (s.ctx c x).gonged = some k → (s.ctx c x).st = .halted → (s.ctx c x).wait = .none → (s.ctx c x).ptrap = none →
        (s.ctx c x).rep = none → (s.ctx c x).repst.getLsbD 63 = false → (t.ctx c x).st = .ready ∧ (t.ctx c x).pc = (s.ctx c x).pc ∧ (t.ctx c x).gonged = none))

/-- 24 R412 to R418, 05 R111: bring-up. POWER_ON leaves everything at reset but the host's memory, at STAGE 1; calibration that succeeds leads
to STAGE 2, and stops the module with BOOTERR 1 otherwise. BOOTGO at another STAGE is ignored, and leads to STAGE 3: an image that is not read,
not well formed, not signed or out of range leaves STAGE 2 with BOOTERR 2, 3, 4 or 5; else STAGE 4 follows, where an
initialisation that fails stops the module with 6, and otherwise READY is set at STAGE 5 with the record's values, registers are as at reset, main
memory has no tag, and context 0 of
every service core is ready in supervisor mode at TCM offset 0x40 over its firmware body; every other context is dormant. ATTGO stores the
report: the digest of the image, the nonce, DEVSTAT, the length of the signature and the signature. The rate of issue moves by a sixteenth
between 4 and 16 as PLIM says, and HOT follows 105 and 100 degrees. It rests on the model's own choices in log entries 4 and 37. -/
def Obligations.BringUp : Prop :=
  ∀ (s : State),
    (∀ ok, ∃ t, exec (.powerOn ok) s = .next t ∧ t.hostMem = s.hostMem ∧ t.hbm = [] ∧ t.cores = [] ∧ t.net = [] ∧ t.cdrs = [] ∧ t.queues = [] ∧
      t.dev = { Dev.reset with stage := 1 } ∧ t.agenda = s.agenda ++ [.boot ok 1]) ∧
    (s.dev.stage = 1 → s.bootStep true = { s with dev := { s.dev with stage := 2 } } ∧
      s.bootStep false = { s with dev := { s.dev with bootErr := 1, stopped := true } }) ∧
    (∀ r n, s.dev.stage ≠ 2 → exec (.bootgo r n) s = .next s) ∧
    (∀ r n, s.dev.stage = 2 → exec (.bootgo r n) s = .next { s with dev := { s.dev with stage := 3 }, agenda := s.agenda ++ [.boot r 1, .boot n 1] }) ∧
    (s.dev.stage = 3 → ∀ b tl sl gl, b = s.bootImage → (tl, sl, gl) = imageLens b →
      s.bootStep false = { s with dev := { s.dev with stage := 2, bootErr := 2 } } ∧
      (imageFormatOk b s.dev.bootLen.toNat = false → s.bootStep true = { s with dev := { s.dev with stage := 2, bootErr := 3 } }) ∧
      (imageFormatOk b s.dev.bootLen.toNat = true → ∀ good, good = Config.imageSignatureValid (imagePart b 0 (128 + tl + sl)) (imagePart b (128 + tl + sl) gl) →
        (good = false → s.bootStep true = { s with dev := { s.dev with stage := 2, bootErr := 4 } }) ∧
        (good = true → configOk b = false → s.bootStep true = { s with dev := { s.dev with stage := 2, bootErr := 5 } }) ∧
        (good = true → configOk b = true → s.bootStep true = { s with dev := { s.dev with stage := 4, bootErr := 0, image := b } }))) ∧
    (s.dev.stage = 4 → s.bootStep false = { s with dev := { s.dev with bootErr := 6, stopped := true } } ∧
      ∀ b tl sl gl t, b = s.dev.image → (tl, sl, gl) = imageLens b → t = s.bootStep true → t.dev.ready = true ∧ t.dev.stage = 5 ∧
        t.dev.svc = imageWord b 64 ∧ t.dev.plim = imageWord b 72 ∧ t.dev.dbgen = BitVec.ofNat 3 (imageWord b 80) ∧ t.hostMem = s.hostMem ∧ t.hbm = s.hbm ∧
        t.umeta = [] ∧ t.queues = [] ∧ t.cdrs = [] ∧ t.ports = [] ∧ t.routes = [] ∧ t.dbg = [] ∧ t.dev.hostcfg = 0 ∧ t.dev.fabcfg = 0 ∧ t.dev.exports = [] ∧
        (∀ c, c < 8192 → t.isService c = true → (t.ctx c 0).st = .ready ∧ (t.ctx c 0).mode = .supervisor ∧ (t.ctx c 0).pc = 0x80000000000040 ∧
          ∀ o, t.byteAt (.tcm c o) = (if 255 - posOf c < t.svcT then imagePart b 128 tl else imagePart b (128 + tl) sl).getD o 0) ∧
        ∀ c x, t.isCompute c = true → (t.ctx c x).st = .dormant) ∧
    (∃ t, exec .attgo s = .next t ∧ t.dev.attDone = true ∧ t.cores = s.cores ∧ (∀ i, i < 64 → t.dev.report.byte i = (Config.imageDigest s.dev.image).getD i 0) ∧
      (∀ i, i < 32 → t.dev.report.byte (64 + i) = s.dev.attNonce.byte i) ∧
      (∀ i, i < 8 → t.dev.report.byte (96 + i) = ({ s with dev := { s.dev with attDone := false } } : State).devstat.extractLsb' (8 * i) 8) ∧
      ∀ sig, sig = Config.identitySignature ((List.range 104).map fun i => t.dev.report.byte i) → (∀ i, t.dev.report.byte (112 + i) = sig.getD i 0)) ∧
    (∀ w, s.dev.ready = false → exec (.powerMeasure w) s = .next s) ∧
    (∀ w, s.dev.ready = true → ∃ t, exec (.powerMeasure w) s = .next t ∧ t.dev.rate = (if s.dev.plim < w then max 4 (s.dev.rate - 1)
      else if 16 * w < 15 * s.dev.plim then min 16 (s.dev.rate + 1) else s.dev.rate) ∧ (t.dev.pwrthr = true ↔ t.dev.rate < 16) ∧ t.cores = s.cores) ∧
    (∀ d n, d < 8 → ∃ t, exec (.thermalLimit d n) s = .next t ∧ t.dev.hot.getLsbD d = (if 105 ≤ n then true else if n ≤ 100 then false else s.dev.hot.getLsbD d) ∧
      ∀ e, e ≠ d → t.dev.hot.getLsbD e = s.dev.hot.getLsbD e)

/-! ### Work queues and launches (16 R333 to R346, R439) -/

/-- 16 R333 to R335, R345, R346, R439: the writes of a queue. A doorbell copies TAIL, and more unread entries than the ring has disable an
enabled queue with ERR 2. RUNNING enables a DISABLED queue unless its mask meets that of an enabled queue of another domain, which leaves
ERR 1; its domain then has a key. DRAINING and DISABLED act on a RUNNING queue: a launch that has not started counts as unread and waits at
no object any more, and without a launch the queue is DISABLED at once; a started one goes on, DRAINED or with STOP set. KILLING ends a
launch in any state, once: its cores' contexts are DORMANT and their deques and rings empty, and the launch completes as killed. It rests on
the model's own choice in log entry 41. -/
def Obligations.WorkQueues : Prop :=
  ∀ (s : State) (q : Nat),
    (∀ v full, full = decide ((s.queue q).state ≠ 0 ∧ (s.queue q).w1.toNat % 4096 + 1 < (v.setWidth 32 - (s.queue q).headReg).toNat) → ∃ t, exec (.doorbell q v) s = .next t ∧
      (t.queue q).tail = v.setWidth 32 ∧ (t.queue q).head = (s.queue q).head ∧ (t.queue q).launch = (s.queue q).launch ∧ (t.queue q).mask0 = (s.queue q).mask0 ∧
      (full = true → (t.queue q).state = 0 ∧ fld (t.queue q).w1 60 2 = 2) ∧ (full = false → (t.queue q).w1 = (s.queue q).w1) ∧ (∀ k, k ≠ q → t.queue k = s.queue k) ∧ t.cores = s.cores) ∧
    ((s.queue q).state ≠ 0 → exec (.queueEnable q) s = .next s) ∧
    ((s.queue q).state = 0 → (∃ p ∈ s.queues, p.1 ≠ q ∧ p.2.state ≠ 0 ∧ p.2.domain ≠ (s.queue q).domain ∧ s.masksMeet (s.queue q) p.2 = true) → ∃ t, exec (.queueEnable q) s = .next t ∧
      (t.queue q).state = 0 ∧ fld (t.queue q).w1 60 2 = 1 ∧ t = { s with queues := t.queues } ∧ ∀ k, k ≠ q → t.queue k = s.queue k) ∧
    ((s.queue q).state = 0 → (∀ p ∈ s.queues, p.1 ≠ q → p.2.state ≠ 0 → p.2.domain ≠ (s.queue q).domain → s.masksMeet (s.queue q) p.2 = false) → (s.queue q).pending ≤ (s.queue q).size →
      ∃ t, exec (.queueEnable q) s = .next t ∧ (t.queue q).state = 1 ∧ fld (t.queue q).w1 60 2 = 0 ∧ fld (t.queue q).w1 0 60 = fld (s.queue q).w1 0 60 ∧
        (tget? t.dev.keys (s.queue q).domain).isSome ∧ (∀ key, tget? s.dev.keys (s.queue q).domain = some key → tget? t.dev.keys (s.queue q).domain = some key) ∧ t.cores = s.cores) ∧
    ((s.queue q).state ≠ 1 → exec (.queueDrain q) s = .next s ∧ exec (.queueDisable q) s = .next s) ∧
    ((s.queue q).state = 1 → ∀ i ∈ [Instr.queueDrain q, .queueDisable q],
      ((s.queue q).launch = none → ∃ t, exec i s = .next t ∧ (t.queue q).state = 0 ∧ (t.queue q).stop = false ∧ (t.queue q).head = (s.queue q).head ∧ t.cores = s.cores) ∧
      (∀ l, (s.queue q).launch = some l → (l.st = .queued ∨ l.st = .eligible) → ∃ t, exec i s = .next t ∧ (t.queue q).state = 0 ∧ (t.queue q).launch = none ∧
        (t.queue q).head = (s.queue q).head - 1 ∧ t.seqWaits q = false ∧ (∀ c x, t.ctx c x = s.ctx c x) ∧ ∀ x, t.byteAt x = s.byteAt x)) ∧
    ((s.queue q).state = 1 → ∀ l, (s.queue q).launch = some l → l.st ≠ .queued → l.st ≠ .eligible →
      (∃ t, exec (.queueDrain q) s = .next t ∧ (t.queue q).state = 2 ∧ (t.queue q).launch = some { l with drained := true } ∧ (t.queue q).head = (s.queue q).head ∧ t = { s with queues := t.queues }) ∧
      (∃ t, exec (.queueDisable q) s = .next t ∧ (t.queue q).state = 1 ∧ (t.queue q).stop = true ∧ (t.queue q).launch = some l ∧ (t.queue q).head = (s.queue q).head ∧ t = { s with queues := t.queues })) ∧
    ((s.queue q).launch = none → ((s.queue q).state = 0 → exec (.queueKill q) s = .next s) ∧
      ((s.queue q).state ≠ 0 → ∃ t, exec (.queueKill q) s = .next t ∧ (t.queue q).state = 0 ∧ t.cores = s.cores)) ∧
    (∀ l, (s.queue q).launch = some l → (l.killed = true → exec (.queueKill q) s = .next s) ∧
      (l.killed = false → ∃ t, exec (.queueKill q) s = .next t ∧ (t.queue q).state = 3 ∧ (t.queue q).stop = false ∧
        (t.queue q).launch = some { l with st := .completing, killed := true, pinned := false, retiring := [] } ∧ (∀ x, t.byteAt x = s.byteAt x) ∧
        (∀ c, c < 8192 → (s.core c).queue = some q → (∀ x, x < 11 → (t.ctx c x).st = .dormant) ∧ (t.core c).deque = [] ∧ (t.core c).ringLen = 0 ∧ (t.core c).task = none ∧
          (t.core c).slotOwner = [] ∧ (t.core c).treeHalted = false ∧ (t.core c).hcyc = s.clock) ∧
        ∀ c x, (s.core c).queue ≠ some q → t.ctx c x = s.ctx c x))

/-- 16 R334, R338, R339: from the ring to eligible. A RUNNING queue with an unread entry and no launch reads it, here from the host memory
window: without a dependence and with its count in the record it is eligible at once, otherwise it is queued; a misaligned dependence fails it
with cause 4 and one that is not on a TRACKED page, or whose translation is refused, with 5, and HEAD moves on, unless the translation has to be
waited for. A queued launch looks at its object once: a GEN that has moved
on answers it, as ABORT or poison does, which its records will say, and otherwise the sequencer waits there, one of at most 64. Once answered
it reads an indirect count, and is eligible. -/
def Parts.RingEntries : Prop :=
  ∀ (s : State) (q : Nat),
    ((s.queue q).state ≠ 1 ∨ (s.queue q).stop = true ∨ (s.queue q).headReg = (s.queue q).tail ∨ (s.queue q).launch.isSome → exec (.ringEntryRead q) s = .next s) ∧
    (∀ loc ws l, (s.queue q).state = 1 → (s.queue q).stop = false → (s.queue q).headReg ≠ (s.queue q).tail → (s.queue q).launch = none →
      loc = ((s.queue q).w0.toNat + 128 * ((s.queue q).head % (s.queue q).size)) % 2 ^ 42 → 2 ^ 41 ≤ loc → loc < 3 * 2 ^ 40 →
      ws = (List.range 16).map (fun i => BitVec.ofNat 64 (s.hostMem.read (loc - 2 ^ 41 + 8 * i) 8)) → l = Launch.ofWords s.nextId ws →
      (l.depb = 0 → ∃ t, exec (.ringEntryRead q) s = .next t ∧ (t.queue q).head = (s.queue q).head + 1 ∧ (t.queue q).w1 = (s.queue q).w1 ∧
        (t.queue q).launch = some (if l.ind then l else { l with st := .eligible, eligibleAt := s.clock, n := l.countField }) ∧
        t = { s with queues := t.queues, nextId := s.nextId + 1 }) ∧
      (l.depb.toNat % 32 ≠ 0 → ∃ t, exec (.ringEntryRead q) s = .next t ∧ (t.queue q).head = (s.queue q).head + 1 ∧
        (t.queue q).launch = some { l with st := .completing, fail := true, cause := 4 } ∧ t = { s with queues := t.queues, nextId := s.nextId + 1 }) ∧
      (∀ w, l.depb ≠ 0 → l.depb.toNat % 32 = 0 → w = { s.modQueue q fun d => { d with head := d.head + 1, launch := some l } with nextId := s.nextId + 1 } →
        (∀ g u, w.launchXlate q .read l.depb = (.hit g, u) → ∃ t, exec (.ringEntryRead q) s = .next t ∧ (t.queue q).head = (s.queue q).head + 1 ∧
          (t.queue q).launch = some (if g.tracked?.isSome then l else { l with st := .completing, fail := true, cause := 5 })) ∧
        (∀ f u, w.launchXlate q .read l.depb = (.bad f, u) → ∃ t, exec (.ringEntryRead q) s = .next t ∧ (t.queue q).head = (s.queue q).head + 1 ∧
          (t.queue q).launch = some { l with st := .completing, fail := true, cause := 5 }) ∧
        (∀ u, w.launchXlate q .read l.depb = (.wait, u) → ∃ t, exec (.ringEntryRead q) s = .next t ∧ (t.queue q).head = (s.queue q).head ∧
          (t.queue q).launch = none))) ∧
    ((∀ l, (s.queue q).launch = some l → l.st ≠ .queued) → exec (.launchEligible q) s = .next s) ∧
    (∀ l, (s.queue q).launch = some l → l.st = .queued → l.answered = none →
      (l.depb = 0 → ∃ t, exec (.launchEligible q) s = .next t ∧ (t.queue q).launch = some { l with answered := some false } ∧ t = { s with queues := t.queues }) ∧
      (l.depb ≠ 0 → s.seqWaits q = true → exec (.launchEligible q) s = .next s) ∧
      (∀ g u, l.depb ≠ 0 → s.seqWaits q = false → s.launchXlate q .read l.depb = (.hit g, u) →
        (g.tracked? = none → ∃ t, exec (.launchEligible q) s = .next t ∧ (t.queue q).launch = some { l with st := .completing, fail := true, cause := 5 }) ∧
        (∀ vcid key pa w v o home, g.tracked? = some (vcid, key, pa) → u.readAtHome (.agent 2 q) vcid key (pa / 128) = .done w v → o = unitGet v.data (pa % 128) 32 →
          home = w.homeCore vcid (pa / 128) →
          (v.poison = true ∨ o.testBit 96 = true → ∃ t, exec (.launchEligible q) s = .next t ∧ (t.queue q).launch = some { l with answered := some true }) ∧
          (v.poison = false → o.testBit 96 = false → o % 2 ^ 32 ≠ l.depgen → ∃ t, exec (.launchEligible q) s = .next t ∧
            (t.queue q).launch = some { l with answered := some false }) ∧
          (v.poison = false → o.testBit 96 = false → o % 2 ^ 32 = l.depgen → ∃ t, exec (.launchEligible q) s = .next t ∧ (t.queue q).launch = some l ∧
            t.bWaiters = (if 64 ≤ (w.bWaiters.filter fun x => x.home == home).length then w.bWaiters
              else w.bWaiters ++ [{ home := home, addr := pa, core := 8192 + q, ctx := 0 }]))))) ∧
    (∀ l ab, (s.queue q).launch = some l → l.st = .queued → l.answered = some ab →
      (l.ind = false → ∃ t, exec (.launchEligible q) s = .next t ∧
        (t.queue q).launch = some { l with st := .eligible, eligibleAt := s.clock, abort := ab, n := l.countField, fail := false, cause := 0 }) ∧
      (l.ind = true → l.cntp.toNat % 4 ≠ 0 → ∃ t, exec (.launchEligible q) s = .next t ∧
        (t.queue q).launch = some { l with st := .eligible, eligibleAt := s.clock, abort := ab, n := 0, fail := true, cause := 4 }) ∧
      (∀ r u, l.ind = true → l.cntp.toNat % 4 = 0 → s.launchRead q l.cntp = (r, u) →
        (r = .wait → exec (.launchEligible q) s = .next u) ∧
        (∀ n, r = .bad n → ∃ t, exec (.launchEligible q) s = .next t ∧
          (t.queue q).launch = some { l with st := .eligible, eligibleAt := u.clock, abort := ab, n := 0, fail := true, cause := n }) ∧
        (∀ v, r = .ok v → ∃ t, exec (.launchEligible q) s = .next t ∧
          (t.queue q).launch = some { l with st := .eligible, eligibleAt := u.clock, abort := ab, n := unitGet v (l.cntp.toNat % 128) 4, fail := false, cause := 0 })))

/-- A launch that fails its preparation completes with FAIL and a cause (16 R341). -/
def FailsWith (s : State) (q : Nat) (l : Launch) (r : Bool) (cause : Nat) : Prop :=
  ∃ t, exec (.launchPrepare q r) s = .next t ∧ (t.queue q).launch = some { l with st := .completing, fail := true, cause := cause }

/-- A step of a preparation is over, with what it leaves in the launch (16 R341). -/
def StepOver (s t : State) (q : Nat) (l m : Launch) (r : Bool) : Prop :=
  exec (.launchPrepare q r) s = .next t ∧ (t.queue q).launch = some { m with step := l.step + 1, written := 0 }

/-- 16 R337, R340 to R342, 04 R99, R100, 05 R122: the chosen launch takes the cores of its mask and is prepared step by step: bits that must be
zero, or an alignment, fail with cause 4, as does a record area that no range with WOK holds or that is not TRACKED; a mask without compute
cores fails with 7, a group in more than four with 3; the supervisor cores of its clusters then have its ranges, which fail with 1 when they are
not resident, and otherwise are pinned; a cache of another
domain, FREE or RETIRING, fails with 2, and a DEFINED one is activated. Its cores, where they now stand, then have its domain, its groups and no
tiles, once none of them is being scrubbed or migrated. -/
def Parts.LaunchPreparation : Prop :=
  ∀ (s : State) (q : Nat) (l : Launch) (r : Bool), (s.queue q).launch = some l →
    (l.st ≠ .preparing ∧ l.st ≠ .eligible ∨ l.st = .eligible ∧ s.mayStart q l = false → exec (.launchPrepare q r) s = .next s) ∧
    (l.st = .eligible → s.mayStart q l = true → ∃ t, exec (.launchPrepare q r) s = .next t ∧
      (t.queue q).launch = some { l with st := .preparing, step := 0, written := 0, pushed := 0 } ∧ t = { s with cores := t.cores, queues := t.queues } ∧
      ∀ c, t.core c = if c ∈ s.maskCores (s.queue q) then { s.core c with queue := some q } else s.core c) ∧
    (l.st = .preparing → l.step = 0 → (l.fail = true → FailsWith s q l r l.cause) ∧
      (l.fail = false → l.zeroOk = false ∨ l.aligned = false → FailsWith s q l r 4) ∧
      (l.fail = false → l.zeroOk = true → l.aligned = true → l.n ≠ 0 → s.maskCores (s.queue q) = [] → FailsWith s q l r 7) ∧
      (∀ ws u rs, l.fail = false → l.zeroOk = true → l.aligned = true → l.n = 0 ∨ s.maskCores (s.queue q) ≠ [] →
        s.launchWords q l.rngp (2 * l.nrng) = (.ok ws, u) → (u.queue q).launch = some l → (pairs ws).mapM (fun p => rangeOf p.1 p.2) = some rs →
        (l.n ≠ 0 → (∀ g ∈ rs, g.2.2.1 = true → g.1 ≤ l.recb.toNat → g.2.1 < l.recb.toNat + 64 * l.n) → FailsWith s q l r 4) ∧
        (l.n = 0 ∨ (∃ g ∈ rs, g.2.2.1 = true ∧ g.1 ≤ l.recb.toNat ∧ l.recb.toNat + 64 * l.n ≤ g.2.1) → ∃ t, StepOver s t q l { l with ranges := rs } r))) ∧
    (l.st = .preparing → l.step = 1 → (l.n = 0 → ∃ t, StepOver s t q l l r) ∧
      (∀ g u, l.n ≠ 0 → l.written = 0 → s.launchXlate q .write (BitVec.ofNat 56 (l.recb.toNat / 4096 * 4096)) = (.hit g, u) → (u.queue q).launch = some l →
        (g.tracked? = none → FailsWith s q l r 4) ∧
        (g.tracked?.isSome → ∃ t, exec (.launchPrepare q r) s = .next t ∧ (t.queue q).launch = some { l with written := 1 })) ∧
      (∀ f u, l.n ≠ 0 → l.written = 0 → s.launchXlate q .write (BitVec.ofNat 56 (l.recb.toNat / 4096 * 4096)) = (.bad f, u) → (u.queue q).launch = some l →
        FailsWith s q l r 5)) ∧
    (l.st = .preparing → l.step = 2 → ∀ ws u, s.launchWords q l.gtab (4 * l.ngrp) = (.ok ws, u) → (u.queue q).launch = some l →
      (ws.all rectOk = false ∨ (∃ c ∈ u.maskCores (u.queue q), 4 < (groupsOf (quads ws) c).length) → FailsWith s q l r 3) ∧
      (ws.all rectOk = true → (∀ c ∈ u.maskCores (u.queue q), (groupsOf (quads ws) c).length ≤ 4) → ∃ t, StepOver s t q l { l with groups := quads ws } r ∧
        ∀ c ∈ u.leaseCores q, (l.serial, l.ranges) ∈ (t.core c).leases)) ∧
    (l.st = .preparing → l.step = 3 → (r = false → FailsWith s q l r 1) ∧ (r = true → ∃ t, StepOver s t q l { l with pinned := true } r)) ∧
    (l.st = .preparing → l.step = 4 → (4 ≤ l.written → ∃ t, StepOver s t q l l r) ∧
      (∀ v, l.written < 4 → v = l.vcid l.written →
        (l.vact l.written = false ∨ (s.cdr v).domain = (s.queue q).domain ∧ ((s.cdr v).state = 2 ∨ (s.cdr v).state = 3) →
          ∃ t, exec (.launchPrepare q r) s = .next t ∧ (t.queue q).launch = some { l with written := l.written + 1 } ∧ t = { s with queues := t.queues }) ∧
        (l.vact l.written = true → (s.cdr v).domain ≠ (s.queue q).domain ∨ (s.cdr v).state = 0 ∨ (s.cdr v).state = 4 → FailsWith s q l r 2) ∧
        (l.vact l.written = true → (s.cdr v).domain = (s.queue q).domain → (s.cdr v).state = 1 → (s.cdr v).scrubId = none →
          (s.sharesConflict (s.cdr v).geo v = true → FailsWith s q l r 2) ∧
          (s.sharesConflict (s.cdr v).geo v = false → s.foreignShares (s.cdr v).geo (s.cdr v).domain = false → ∃ t, exec (.launchPrepare q r) s = .next t ∧
            (t.queue q).launch = some { l with written := l.written + 1, activated := l.activated ++ [v] } ∧ (t.cdr v).state = 2)))) ∧
    (l.st = .preparing → l.step = 5 → ∀ now, now = (s.maskCores (s.queue q)).map s.forwarded →
      ((∃ c ∈ now, s.scrubs? c = true ∨ (s.core c).moving = true) → exec (.launchPrepare q r) s = .next s) ∧
      ((∀ c ∈ now, s.scrubs? c = false ∧ (s.core c).moving = false) →
        ((∀ c ∈ now, (s.core c).domain = (s.queue q).domain) → ∃ t, StepOver s t q l l r) ∧
        ((∃ c ∈ now, (s.core c).domain ≠ (s.queue q).domain) → ∃ t, exec (.launchPrepare q r) s = .next t ∧ (t.queue q).launch = some l ∧
          ∀ c ∈ now, (t.core c).domain = (s.core c).domain ∧ ((s.core c).domain ≠ (s.queue q).domain → t.scrubs? c = true)))) ∧
    (l.st = .preparing → l.step = 6 → ∀ mask, mask = s.maskCores (s.queue q) →
      ((∃ o ∈ mask, s.scrubs? (s.forwarded o) = true ∨ (s.core (s.forwarded o)).moving = true) → exec (.launchPrepare q r) s = .next s) ∧
      ((∀ o ∈ mask, s.scrubs? (s.forwarded o) = false ∧ (s.core (s.forwarded o)).moving = false) →
        (∀ o ∈ mask, ∀ p ∈ mask, s.forwarded o = s.forwarded p → o = p) → l.bspw = false → ∃ t, StepOver s t q l l r ∧
          tget? t.tables l.serial = some (l.groups.map fun g => mask.filter fun c => g.any fun w => rectIn w c) ∧
          ∀ o ∈ mask, ∀ c, c = s.forwarded o → (t.core c).tiles = [] ∧ (t.core c).capt = [] ∧ (t.core c).deque = [] ∧ (t.core c).ringLen = 0 ∧
            (t.ctx c 0).iter = 0 ∧ (t.ctx c 0).base = (s.ctx c 0).rslo ∧ (t.ctx c 0).wpend = 0 ∧ (t.router o).counters = [] ∧
            (∀ e ∈ (t.core c).l1tlb ++ (t.core c).l2tlb, e.sup = true) ∧ (t.core c).origin = some o ∧ (t.core c).migrated = decide (c ≠ o) ∧
            ∀ i, i < 4 → tget (t.core c).grp i 0 = match (groupsOf l.groups o)[i]? with
              | some g => BitVec.ofNat 9 (256 + g)
              | none => 0))

/-- 16 R337, R342, 14 R294, R300: the initial records. Record i holds ENTRY, i, A1 to A3, LID with GSLOT, and the ABORT flag; the count
then rises by their number. They go to the deques of the mask's compute cores in turn, where those now stand, and wait for a full deque or a
core that is being migrated; then the launch runs, and one of no task completes at once. -/
def Parts.InitialRecords : Prop :=
  ∀ (s : State) (q : Nat) (l : Launch) (r : Bool), (s.queue q).launch = some l → l.st = .preparing →
    (∀ i e pa u, l.step = 7 → l.written = i → l.n = i + 1 → s.launchXlate q .write (l.recb + BitVec.ofNat 56 (64 * i)) = (.hit (.unit e pa), u) →
      e.cls = .tracked → pa % 64 = 0 → Untouched u e.vcid (pa / 128) → (u.queue q).launch = some l →
      ∃ t, StepOver s t q l { l with count := l.count + l.n } r ∧ ∀ b, b = unitGet (unitNow t e.vcid (pa / 128)).data (pa % 128) 64 →
        b % 2 ^ 64 = l.entry.toNat ∧ (i < 2 ^ 32 → b / 2 ^ 64 % 2 ^ 64 = i ∧ b / 2 ^ 128 % 2 ^ 64 = (l.word 3).toNat ∧ b / 2 ^ 192 % 2 ^ 64 = (l.word 4).toNat ∧
          b / 2 ^ 256 % 2 ^ 64 = (l.word 5).toNat ∧ b / 2 ^ 320 % 2 ^ 32 = (l.word 1).toNat / 2 ^ 32 ∧ b / 2 ^ 352 % 2 ^ 32 = (l.word 14).toNat / 2 ^ 32 ∧
          b / 2 ^ 384 % 2 ^ 64 = 0 ∧ b / 2 ^ 448 = if l.abort then 2 else 0)) ∧
    (∀ c, 8 ≤ l.step → l.pushed < l.n → c = s.forwarded ((s.maskCores (s.queue q)).getD (l.pushed % (s.maskCores (s.queue q)).length) 0) →
      ((s.core c).moving = true ∨ 1088 ≤ (s.core c).entries ∨ (s.core c).inOrder s.clock rankPush = false → ∃ t, exec (.launchPrepare q r) s = .next t ∧
        (t.queue q).launch = some l ∧ t = { s with queues := t.queues }) ∧
      ((s.core c).moving = false → (s.core c).entries < 1088 → (s.core c).inOrder s.clock rankPush = true → (s.core c).deque.length < 64 → l.n = l.pushed + 1 →
        ∃ t, exec (.launchPrepare q r) s = .next t ∧ (t.queue q).launch = some { l with pushed := l.n, st := .running } ∧
          Pushed (s.core c) (t.core c) (l.recb + BitVec.ofNat 56 (64 * l.pushed)).toNat ∧ ∀ k, k ≠ c → t.core k = s.core k)) ∧
    (8 ≤ l.step → l.n = 0 → l.pushed = 0 → ∃ t, exec (.launchPrepare q r) s = .next t ∧ (t.queue q).launch = some { l with st := .completing } ∧ t = { s with queues := t.queues })

/-- From the ring to running (16 R334, R337 to R342). It rests on the model's own choices in log entries 24, 66, 68, 72, 80
and 87. -/
def Obligations.LaunchStart : Prop := Parts.RingEntries ∧ Parts.LaunchPreparation ∧ Parts.InitialRecords

/-- 15 R314, R316, R318, R327, 09 R200, 16 R343, 08 R176: a completion at an object with a status word, at a home that takes writes where it
stands. The word is beside the object, 16 bytes on, and the arrival, beat or ABORT has been made there; in a poisoned unit the word is stored
and the object stays. No other byte of the unit changes. -/
def Parts.CompletionAtObject : Prop :=
  ∀ (s r v u : State) (w : Writer) (vcid key pa : Nat) (x : VUnit) (word : Word) (d : Done) (o n : Obj),
    s.seize w vcid (pa / 128) true = .done r () → r.readVc vcid (pa / 128) none = (v, x) → v.HomeReady vcid (pa / 128) → pa % 128 + 32 ≤ 128 →
    s.completeAt w vcid key pa (some word) false d = .done u () → o = v.homeBytes vcid key (pa / 128) (pa % 128) 32 →
    (d = .arrive → n = (Obj.arrive (setBits o 128 64 word.toNat)).1) → (d = .beat → n = (Obj.beat (setBits o 128 64 word.toNat) (2 ^ 32 - 1)).1) →
    (d = .abort → n = Obj.setAbort (setBits o 128 64 word.toNat)) →
    u.homeBytes vcid key (pa / 128) (pa % 128 + 16) 8 = word.toNat ∧
    (x.poisonFor key = false → u.homeBytes vcid key (pa / 128) (pa % 128) 32 = n % 2 ^ 256) ∧
    (x.poisonFor key = true → u.homeBytes vcid key (pa / 128) (pa % 128) 16 = v.homeBytes vcid key (pa / 128) (pa % 128) 16 ∧
      u.homeBytes vcid key (pa / 128) (pa % 128 + 24) 8 = v.homeBytes vcid key (pa / 128) (pa % 128 + 24) 8) ∧
    ∀ off, off < 128 → (off < pa % 128 ∨ pa % 128 + 32 ≤ off) → u.homeBytes vcid key (pa / 128) off 1 = v.homeBytes vcid key (pa / 128) off 1

/-- 16 R342, R343, R346: the end of a launch. A running one whose count is zero completes. A completing one waits until none of its commands
and writes runs, and the UNTRACKED words that its cores' L1s hold have gone to their homes; it retires the caches that its record names, and
waits for them; then its ranges are unpinned. Without a completion object it leaves its cores and forwarding entries, and a queue that drains,
stops or is killed is DISABLED. With one, it completes at the object with its status word, by an arrival, or by ABORT when it was killed; an
object that fails a check leaves ERR 3. -/
def Parts.LaunchCompletion : Prop :=
  ∀ (s : State) (q : Nat),
    ((s.queue q).launch = none → exec (.launchComplete q) s = .next s) ∧
    (∀ l, (s.queue q).launch = some l →
      (l.st ≠ .completing → l.count ≠ 0 ∨ l.st ≠ .running → exec (.launchComplete q) s = .next s) ∧
      (l.st = .running → l.count = 0 → ∃ t, exec (.launchComplete q) s = .next t ∧ (t.queue q).launch = some { l with st := .completing } ∧ t = { s with queues := t.queues }) ∧
      (l.st = .completing → (s.flushWords q).launchBusy q l.serial = true → exec (.launchComplete q) s = .next (s.flushWords q)) ∧
      (l.st = .completing → s.flushWords q = s → s.launchBusy q l.serial = false → l.stage = 0 →
        (∀ own, own = s.retires (s.queue q) l → (∃ v ∈ own, (s.cdr v).state = 3) → exec (.launchComplete q) s = .next s) ∧
        (∀ own, own = s.retires (s.queue q) l → (∀ v ∈ own, (s.cdr v).state ≠ 3) → ∃ t, exec (.launchComplete q) s = .next t ∧
          (t.queue q).launch = some { l with stage := 1, retiring := own.filter fun v => (s.cdr v).state == 2 } ∧ t.cores = s.cores ∧ (∀ x, t.byteAt x = s.byteAt x) ∧
          (∀ v, v ∉ own → t.cdr v = s.cdr v) ∧ ∀ v ∈ own, ((s.cdr v).state = 2 → (t.cdr v).state = 4) ∧ ((s.cdr v).state = 1 → (t.cdr v).state = 0))) ∧
      (l.st = .completing → s.flushWords q = s → s.launchBusy q l.serial = false → l.stage ≠ 0 → (∃ v ∈ l.retiring, (s.cdr v).state = 4) → exec (.launchComplete q) s = .next s) ∧
      (l.st = .completing → s.flushWords q = s → s.launchBusy q l.serial = false → l.stage ≠ 0 → (∀ v ∈ l.retiring, (s.cdr v).state ≠ 4) →
        (l.compb = 0 → ∃ t, exec (.launchComplete q) s = .next t ∧ (t.queue q).launch = none ∧
          (t.queue q).state = (if (s.queue q).state = 2 ∨ (s.queue q).state = 3 ∨ (s.queue q).stop = true then 0 else (s.queue q).state) ∧ (∀ f ∈ t.fwds, f.queue ≠ q) ∧
          (∀ x, t.byteAt x = s.byteAt x) ∧ (∀ c, (s.core c).queue = some q → (t.core c).queue = none ∧ (t.core c).task = none ∧ (t.core c).deque = [] ∧ (t.core c).ringLen = 0 ∧
            (t.ctx c 0).st = .dormant ∧ ∀ x, x ≠ 0 → t.ctx c x = s.ctx c x) ∧ ∀ c x, (s.core c).queue ≠ some q → t.ctx c x = s.ctx c x) ∧
        (∀ w d, l.compb ≠ 0 → w = s.unpinRanges q l → d = (if l.killed then Done.abort else .arrive) → ∀ answer : AtHome (Option Unit),
            answer = w.completeVa (.agent 2 q) (w.seqCore q) (s.queue q).domain 3 q false l.compb (some l.status) false d →
          (∀ u, answer = .busy u → exec (.launchComplete q) s = .next u) ∧
          (∀ u, answer = .done u none → ∃ t, exec (.launchComplete q) s = .next t ∧ fld (t.queue q).w1 60 2 = 3 ∧ (t.queue q).launch = none) ∧
          (∀ u x, answer = .done u (some x) → (∃ t, exec (.launchComplete q) s = .next t ∧ (t.queue q).launch = none ∧ ∀ y, t.byteAt y = u.byteAt y) ∧
            l.compb.toNat % 32 = 0 ∧ ∃ g y vcid key pa, w.engineXlate (w.seqCore q) (s.queue q).domain 3 q false .atomic l.compb = (.hit g, y) ∧
              g.tracked? = some (vcid, key, pa) ∧ y.completeAt (.agent 2 q) vcid key pa (some l.status) false d = .done u ())) ∧
        l.status.toNat = 1 + l.fail.toNat * 2 + l.abort.toNat * 32 + l.drained.toNat * 64 + l.killed.toNat * 128 + l.cause % 256 * 256 + l.n % 2 ^ 32 * 65536))

/-- The end of a launch (16 R342, R343, R346). It rests on the model's own choices in log entries 24, 67 and 87. -/
def Obligations.LaunchEnd : Prop := Parts.CompletionAtObject ∧ Parts.LaunchCompletion

/-! ### The machine as a whole -/

/-- 14 R289, 03 R62, R78, R81, 10 R227, 18 R366, R372, 24 R414, R420, R423: a step. A context that may issue, with no breakpoint at its address,
runs the instruction that the word at its PC decodes to, here in the TCM: the state before it differs from the machine's by the
turn taken from the agenda and by the word that the context now holds, and afterwards the state log, where it runs, notes the issue. A word that
decodes to nothing runs as ILLEGAL_ENCODING; a repetition
body issues from its buffer; an event runs when its turn comes, as a write of a register by the host does; a read by the host gives a core's
register, or zero at a hole of its window; a step of bring-up, a routing table's entry and a migration's next move have turns of their own; and a
module that has stopped stays stopped until it is powered on. It rests
on the model's own choice in log entry 3. -/
def Obligations.StepRunsDecoded : Prop :=
  (∀ (s u : State) (c x n : Nat) (l : List Turn), s.dev.stopped = false → s.tracedCores = [] →
      (s.agenda = .issue c x 0 n :: l ∧ u = { s with agenda := l, clock := s.clock + n, curCore := c, curCtx := x } ∨ s.agenda = [] ∧ u = { s with clock := s.clock + 1 }) →
      u.mayIssue u.curCore u.curCtx = true → u.breakHit = none → u.me.fetched = [] →
    (∀ off w v, u.me.rep = none → u.me.pc.toNat = 2 ^ 55 + off → off + 4 ≤ 0x10000 → w = BitVec.ofNat 32 (u.mine.tcm.read off 4) →
      v = (u.modMe fun y => { y with fetched := [(y.pc.toNat, w)] }) →
      (∀ i t, decode w = .ok i → exec i v = .next t → step s = .next (t.noteIssue v)) ∧
      ((∀ i, decode w ≠ .ok i) → step s = exec (.illegalEncoding w) v)) ∧
    (∀ r w i v t, u.me.rep = some r → r.len ≤ r.buf.length → r.buf[r.pos]? = some w → decode w = .ok i →
      v = (u.modMe fun y => { y with rep := some r }) → exec i v = .next t → step s = .next (t.noteIssue v))) ∧
  (∀ t v : State, t.tracing v.curCore = false ∨ v.me.st = .parked ∨ (t.ctx v.curCore v.curCtx).st = .held → t.noteIssue v = t) ∧
  (∀ (s : State) (i : Instr) (n : Nat) (l : List Turn), s.dev.stopped = false → s.tracedCores = [] → s.agenda = .event i n :: l → i.encoded = false →
    step s = exec i { s with agenda := l, clock := s.clock + n }) ∧
  (∀ (s : State) (off n : Nat) (v : Word) (l : List Turn), s.dev.stopped = false → s.tracedCores = [] → s.agenda = .hostWrite off v n :: l →
    step s = exec (.registerWrite off v) { s with agenda := l, clock := s.clock + n }) ∧
  (∀ (s : State) (off n c o : Nat) (l : List Turn), s.dev.stopped = false → s.tracedCores = [] → s.agenda = .hostRead off n :: l →
    off = 0x10000000 + 4096 * c + o → c < 8192 → o < 4096 → (s.core (s.forwarded c)).moving = false →
    ∃ t v, step s = .next t ∧ t = { s with agenda := l, clock := s.clock + n, hostOut := s.hostOut ++ [.ctrlRead off v] } ∧ (windowCsr o = none → v = 0) ∧
      ∀ x k, windowCsr o = some (x, k) → v = ({ s with clock := s.clock + n } : State).csrRead (s.forwarded c) x k) ∧
  (∀ (s u : State) (ok : Bool) (d p c n : Nat) (l : List Turn), s.dev.stopped = false → s.tracedCores = [] → u = { s with agenda := l, clock := s.clock + n } →
    (s.agenda = .boot ok n :: l → step s = .next (u.bootStep ok)) ∧ (s.agenda = .migr c n :: l → step s = .next (u.migrGo c)) ∧
    (s.agenda = .route d p n :: l → ∃ t, step s = .next t ∧ t = { u with routes := t.routes } ∧ t.portTo d = p ∧ ∀ e, e ≠ d → t.portTo e = s.portTo e)) ∧
  (∀ (s : State), s.dev.stopped = true → (∀ b n l, s.agenda ≠ .event (.powerOn b) n :: l) → step s = .fault .moduleStopped)

/-- Words written out from the encodings of the spec, with the instructions that they are (02, 06, 08 to 15, 17, 24). -/
def Obligations.DecodedWords : Prop :=
  ∀ p ∈ [(0x0329D001#32, Instr.sub false 18 19 20), (0x05087FFF#32, .addi false 16 16 (BitVec.ofInt 15 (-1))), (0x11290004#32, .slli false 18 18 4), (0x13012345#32, .lui false 16 0x12345),
      (0x23107FFE#32, .bne false 17 0 (BitVec.ofInt 15 (-2))), (0x32000005#32, .call false 5), (0xB4000000#32, .ret true), (0x4310C00C#32, .stW false 17 1 12),
      (0x49014407#32, .amoadd false 16 2 17 1 3), (0x54080200#32, .vld false 0 16 2 0), (0x6C184400#32, .msend false 1 16 17), (0x70004005#32, .trap false 5), (0x70005000#32, .rtt false)],
    decode p.1 = .ok p.2

/-- 03 R63, R72 to R78: every well-formed encoded instruction decodes from its word, with every operand as it was, and every word that
decodes is the word of its instruction: no bit of an encoding is dropped. -/
def Obligations.EncodeDecode : Prop :=
  (∀ i : Instr, i.wf = true → i.encoded = true → decode (encodeWord i) = .ok i) ∧
  (∀ (w : BitVec 32) (i : Instr), decode w = .ok i → i.wf = true ∧ i.encoded = true ∧ encodeWord i = w)

/-- 10 R213 to R215, R229, R230, 14 R289, 06 R141, R152, 15 R322, 13 R268, 05 R113, 16 R333, 18 R367, R368, R373, 24 R413: what reset
leaves, of the values that the spec gives. -/
def Obligations.ResetState : Prop :=
  (∀ c x, x < 11 → (State.reset.ctx c x).st = .dormant ∧ (State.reset.ctx c x).wpend = 0 ∧ (State.reset.ctx c x).low.toNat = 368 * x ∧ (State.reset.ctx c x).base.toNat = 368 * x ∧
    (State.reset.ctx c x).rslo.toNat = 368 * x ∧ (State.reset.ctx c x).rshi.toNat = 368 * x + 368 ∧ (State.reset.ctx c x).spillp = 0 ∧ (State.reset.ctx c x).tvec = 0 ∧
    (State.reset.ctx c x).inh = false ∧ (State.reset.ctx c x).epc = 0 ∧ (State.reset.ctx c x).ecause = 0 ∧ (State.reset.ctx c x).einfo = 0 ∧ (State.reset.ctx c x).repst = 0 ∧
    (State.reset.ctx c x).iter = 0 ∧ (State.reset.ctx c x).age = 0 ∧ (State.reset.ctx c x).rmode = 0 ∧ (State.reset.ctx c x).lfsr = 1 ∧ (State.reset.ctx c x).depen = 0 ∧
    (State.reset.ctx c x).exitVal = 0 ∧ (State.reset.ctx c x).mask 0 = BitVec.allOnes 64) ∧
  (∀ c, (State.reset.core c).staletmo = 0x01000000 ∧ (State.reset.core c).ctmo = 0x00100000 ∧ (State.reset.core c).hmsg = 0 ∧ (State.reset.core c).tsavep = 0 ∧ (State.reset.core c).bsplit = 0 ∧
    (State.reset.core c).mxcfg = 0 ∧ (State.reset.core c).mxbar = 0 ∧ (State.reset.core c).mxpend = false ∧ ∀ t, ((State.reset.core c).tile t).rows = 0 ∧ ((State.reset.core c).tile t).st = 0) ∧
  (∀ v, (State.reset.cdr v).w0 = 0 ∧ (State.reset.cdr v).w1 = 0 ∧ (State.reset.cdr v).epoch = 0) ∧
  (∀ q, (State.reset.queue q).w0 = 0 ∧ (State.reset.queue q).w1 = 0 ∧ (State.reset.queue q).head = 0 ∧ (State.reset.queue q).tail = 0 ∧ (State.reset.queue q).mask0 = 0 ∧ (State.reset.queue q).mask1 = 0) ∧
  State.reset.dev.hostcfg = 0 ∧ State.reset.dev.fabcfg = 0 ∧ State.reset.dev.stage = 0 ∧ State.reset.dev.ready = false ∧ State.reset.dev.bootErr = 0 ∧
  ∀ i, tget State.reset.dev.exports i (0, 0) = (0, 0)

/-- The model's own form of storage (assumption 2): rising addresses, no zero byte listed. Storage in that form is known by its bytes; a
write keeps the form and changes the bytes written and no other. -/
def Obligations.StorageForm : Prop :=
  (∀ m n : Memory, m.wf = true → n.wf = true → (∀ a, m.byte a = n.byte a) → m = n) ∧
  (∀ (m : Memory) (a v k : Nat), m.wf = true → (m.write a v k).wf = true) ∧
  (∀ (m : Memory) (a v k p : Nat), (m.write a v k).byte p = if a ≤ p ∧ p < a + k then BitVec.ofNat 8 (v / 256 ^ (p - a)) else m.byte p) ∧
  (∀ (m : Memory) (a v k : Nat), (m.write a v k).read a k = v % 256 ^ k)

/-- Every storage of the reset state has its form (assumption 2). -/
def Obligations.MemOkReset : Prop := State.reset.memOk

/-- Every step keeps the form of every storage (assumption 2): HBM, the host window, every core's TCM and scratch, the nonce, the report and
the key block. -/
def Obligations.MemOkStep : Prop := ∀ s t : State, s.memOk → step s = .next t → t.memOk

/-- 17 R347 to R354, 24 R414: nothing stops the machine but the failures of bring-up that stop the module. Every instruction and event has
an effect in every state, a fault or a trap being a state of its own; and a step answers no state only of a module that has stopped. It
rests on the model's own choice in log entry 26. -/
def Obligations.NothingElseStops : Prop :=
  (∀ (i : Instr) (s : State), ∃ t, exec i s = .next t) ∧ ∀ s : State, Completes s ∨ (s.dev.stopped = true ∧ step s = .fault .moduleStopped)
end

