-- ==== Sys2Proof/Laws/Decode.lean ====
section
/-! SUPPORT. The decoder's table: no word is selected by two rows, so an encoded instruction decodes through its own row. -/

namespace Sys2Proof

/-- Joining segments and splitting the word gives them back. -/
@[simp] theorem Fields.ofWord_toWord (f : Fields) : Fields.ofWord f.toWord = f := by
  obtain ⟨m, j, x, y, z, n⟩ := f
  simp only [Fields.ofWord, Fields.toWord, Fields.mk.injEq]
  refine ⟨?_, ?_, ?_, ?_, ?_, ?_⟩
  · simp only [BitVec.getLsbD_append]
    cases m <;> simp
  all_goals
    apply BitVec.eq_of_getLsbD_eq
    intro i hi
    simp only [BitVec.getLsbD_extractLsb', BitVec.getLsbD_append, hi, decide_true, Bool.true_and]
    repeat rw [if_neg (by omega)]
    rw [if_pos (by omega)]
    congr 1
    omega

/-- Two rows differ in a bit that both look at. -/
def Row.apart (r q : Row) : Bool :=
  r.maj != q.maj || (r.xv &&& q.xm) != (q.xv &&& r.xm) || (r.yv &&& q.ym) != (q.yv &&& r.ym) ||
    (r.zv &&& q.zm) != (q.zv &&& r.zm) || (r.fv &&& q.fm) != (q.fv &&& r.fm)

theorem Row.not_selects_of_apart {r q : Row} {f : Fields} (h : r.apart q = true) (hr : r.selects f = true) :
    q.selects f = false := by
  simp only [Row.selects, Bool.and_eq_true, beq_iff_eq] at hr
  obtain ⟨⟨⟨⟨a, b⟩, c⟩, d⟩, e⟩ := hr
  cases hq : q.selects f with
  | false => rfl
  | true =>
    simp only [Row.selects, Bool.and_eq_true, beq_iff_eq] at hq
    obtain ⟨⟨⟨⟨a', b'⟩, c'⟩, d'⟩, e'⟩ := hq
    simp only [Row.apart, ← a, ← a', ← b, ← b', ← c, ← c', ← d, ← d', ← e, ← e', Bool.or_eq_true, bne_iff_ne] at h
    have p {n : Nat} (u v w : BitVec n) : u &&& v &&& w = u &&& w &&& v := by
      rw [BitVec.and_assoc, BitVec.and_comm v, ← BitVec.and_assoc]
    simp only [p f.x r.xm, p f.y r.ym, p f.z r.zm, p f.fn r.fm, ne_eq, not_true_eq_false, or_self] at h

/-- Every row is apart from the rows after it. -/
def rowsApart : List Row → Bool
  | [] => true
  | r :: l => l.all (fun q => q.apart r) && rowsApart l

theorem find?_of_apart {l : List Row} (h : rowsApart l = true) {r : Row} {f : Fields} (hr : r ∈ l)
    (hs : r.selects f = true) : l.find? (fun q => q.selects f) = some r := by
  induction l with
  | nil => cases hr
  | cons q l ih =>
    simp only [rowsApart, Bool.and_eq_true, List.all_eq_true] at h
    cases hr with
    | head => simp [hs]
    | tail _ hm =>
      rw [List.find?_cons, Row.not_selects_of_apart (h.1 r hm) hs]
      exact ih h.2 hm

set_option maxRecDepth 4000 in
theorem rows_apart : rowsApart rows = true := by decide +kernel

theorem mem_rowsScalar1 {r : Row} (n : Nat) (h : rowsScalar1[n]? = some r) : r ∈ rows := by
  have := List.mem_of_getElem? h
  simp only [rows, List.mem_append]; simp [this]
theorem mem_rowsScalar2 {r : Row} (n : Nat) (h : rowsScalar2[n]? = some r) : r ∈ rows := by
  have := List.mem_of_getElem? h
  simp only [rows, List.mem_append]; simp [this]
theorem mem_rowsScalar3 {r : Row} (n : Nat) (h : rowsScalar3[n]? = some r) : r ∈ rows := by
  have := List.mem_of_getElem? h
  simp only [rows, List.mem_append]; simp [this]
theorem mem_rowsControl {r : Row} (n : Nat) (h : rowsControl[n]? = some r) : r ∈ rows := by
  have := List.mem_of_getElem? h
  simp only [rows, List.mem_append]; simp [this]
theorem mem_rowsMemory1 {r : Row} (n : Nat) (h : rowsMemory1[n]? = some r) : r ∈ rows := by
  have := List.mem_of_getElem? h
  simp only [rows, List.mem_append]; simp [this]
theorem mem_rowsMemory2 {r : Row} (n : Nat) (h : rowsMemory2[n]? = some r) : r ∈ rows := by
  have := List.mem_of_getElem? h
  simp only [rows, List.mem_append]; simp [this]
theorem mem_rowsVector1 {r : Row} (n : Nat) (h : rowsVector1[n]? = some r) : r ∈ rows := by
  have := List.mem_of_getElem? h
  simp only [rows, List.mem_append]; simp [this]
theorem mem_rowsVector2 {r : Row} (n : Nat) (h : rowsVector2[n]? = some r) : r ∈ rows := by
  have := List.mem_of_getElem? h
  simp only [rows, List.mem_append]; simp [this]
theorem mem_rowsVector3 {r : Row} (n : Nat) (h : rowsVector3[n]? = some r) : r ∈ rows := by
  have := List.mem_of_getElem? h
  simp only [rows, List.mem_append]; simp [this]
theorem mem_rowsEngine1 {r : Row} (n : Nat) (h : rowsEngine1[n]? = some r) : r ∈ rows := by
  have := List.mem_of_getElem? h
  simp only [rows, List.mem_append]; simp [this]
theorem mem_rowsEngine2 {r : Row} (n : Nat) (h : rowsEngine2[n]? = some r) : r ∈ rows := by
  have := List.mem_of_getElem? h
  simp only [rows, List.mem_append]; simp [this]
theorem mem_rowsSystem1 {r : Row} (n : Nat) (h : rowsSystem1[n]? = some r) : r ∈ rows := by
  have := List.mem_of_getElem? h
  simp only [rows, List.mem_append]; simp [this]
theorem mem_rowsSystem2 {r : Row} (n : Nat) (h : rowsSystem2[n]? = some r) : r ∈ rows := by
  have := List.mem_of_getElem? h
  simp only [rows, List.mem_append]; simp [this]

/-- An instruction whose segments its row selects and builds decodes from its word. -/
theorem decode_encodeWord {i : Instr} {f : Fields} {r : Row}
    (he : encodeWord i = f.toWord) (hr : r ∈ rows) (hs : r.selects f = true) (hb : r.build f = i) (hw : i.wf = true) :
    decode (encodeWord i) = .ok i := by
  rw [he]
  simp only [decode, decodeRaw, Fields.ofWord_toWord, find?_of_apart rows_apart hr hs, Option.map_some, hb, hw, if_true]

theorem Row.selects_of {r : Row} {f : Fields} (h0 : f.maj = r.maj) (h1 : f.x &&& r.xm = r.xv) (h2 : f.y &&& r.ym = r.yv)
    (h3 : f.z &&& r.zm = r.zv) (h4 : f.fn &&& r.fm = r.fv) : r.selects f = true := by
  simp [Row.selects, h0, h1, h2, h3, h4]

/-- A constant above a field, under the constant's mask. -/
theorem segHi {a b : Nat} (c : BitVec a) (x : BitVec b) (k v : BitVec (a + b)) (hk : k = BitVec.allOnes a ++ 0#b)
    (hv : v = c ++ 0#b) : (c ++ x) &&& k = v := by
  subst hk hv
  rw [BitVec.and_append]
  simp
/-- A constant above two fields, under the constant's mask. -/
theorem segHi2 {a b d : Nat} (c : BitVec a) (x : BitVec b) (y : BitVec d) (k v : BitVec (a + b + d))
    (hk : k = BitVec.allOnes a ++ 0#b ++ 0#d) (hv : v = c ++ 0#b ++ 0#d) : (c ++ x ++ y) &&& k = v := by
  subst hk hv
  rw [BitVec.and_append, BitVec.and_append]
  simp
/-- A constant below a field, under the constant's mask. -/
theorem segLo {a b : Nat} (x : BitVec a) (c : BitVec b) (k v : BitVec (a + b)) (hk : k = 0#a ++ BitVec.allOnes b)
    (hv : v = 0#a ++ c) : (x ++ c) &&& k = v := by
  subst hk hv
  rw [BitVec.and_append]
  simp

end Sys2Proof
end

