-- ==== Sys2Proof/Laws/Table.lean ====
section
/-! SUPPORT. Laws of sparse tables and byte storage: a read after a write, and the canonical form. -/

namespace Sys2Proof.Machine

variable {α : Type}

theorem tget?_tset (l : List (Nat × α)) (a b : Nat) (v : α) :
    tget? (tset l a v) b = if b = a then some v else tget? l b := by
  induction l with
  | nil => simp [tset, tget?]
  | cons p l ih =>
    obtain ⟨k, w⟩ := p
    simp only [tset]
    split
    · subst k; by_cases h : b = a <;> simp [tget?, h]
    · split
      · by_cases h : b = a <;> simp [tget?, h]
      · simp only [tget?, ih]
        by_cases h : b = k
        · subst b; simp [show k ≠ a from fun e => by simp_all]
        · simp [h]

theorem tget?_tdel (l : List (Nat × α)) (a b : Nat) : tget? (tdel l a) b = if b = a then none else tget? l b := by
  induction l with
  | nil => simp [tdel, tget?]
  | cons p l ih =>
    obtain ⟨k, w⟩ := p
    simp only [tdel]
    split
    · subst k; rw [ih]; by_cases h : b = a <;> simp [tget?, h]
    · simp only [tget?, ih]
      by_cases h : b = k
      · subst b; simp [show k ≠ a from fun e => by simp_all]
      · simp [h]

/-- Reading a table after setting an entry. -/
@[simp] theorem tget_tset (l : List (Nat × α)) (a b : Nat) (v d : α) :
    tget (tset l a v) b d = if b = a then v else tget l b d := by
  simp only [tget, tget?_tset]; split <;> rfl

/-- Reading a table after removing an entry. -/
@[simp] theorem tget_tdel (l : List (Nat × α)) (a b : Nat) (d : α) :
    tget (tdel l a) b d = if b = a then d else tget l b d := by
  simp only [tget, tget?_tdel]; split <;> rfl

theorem tget_tset_same (l : List (Nat × α)) (a : Nat) (v d : α) : tget (tset l a v) a d = v := by simp

theorem tget_tset_of_ne (l : List (Nat × α)) {a b : Nat} (v d : α) (h : b ≠ a) :
    tget (tset l a v) b d = tget l b d := by simp [h]

/-- The later of two writes of one entry stands. -/
@[simp] theorem tset_tset (l : List (Nat × α)) (a : Nat) (v w : α) : tset (tset l a v) a w = tset l a w := by
  induction l with
  | nil => simp [tset]
  | cons p l ih =>
    obtain ⟨k, u⟩ := p
    simp only [tset]
    split
    · subst k; simp [tset]
    · split
      · simp [tset]
      · simp only [tset, ih]; simp_all

/-- Reading a table of words after a write. -/
@[simp] theorem tget_wset (l : List (Nat × Word)) (a b : Nat) (v : Word) :
    tget (wset l a v) b 0#64 = if b = a then v else tget l b 0#64 := by
  unfold wset; split <;> simp_all

/-! ### Byte storage -/

/-- Reading a byte after writing one. -/
@[simp] theorem Memory.byte_setByte (m : Memory) (a b : Nat) (v : Byte) :
    (m.setByte a v).byte b = if b = a then v else m.byte b := by
  unfold Memory.setByte Memory.byte; split <;> simp_all

/-- Reading a byte after a write of n bytes: bytes outside the written ones stand; the others are the number's. -/
theorem Memory.byte_write (m : Memory) (a v n b : Nat) :
    (m.write a v n).byte b = if a ≤ b ∧ b < a + n then BitVec.ofNat 8 (v / 256 ^ (b - a)) else m.byte b := by
  induction n generalizing m a v with
  | zero => rw [if_neg (by omega)]; rfl
  | succ n ih =>
    simp only [Memory.write, ih, Memory.byte_setByte]
    by_cases h1 : b = a
    · subst b; rw [if_neg (by omega)]; simp
    · by_cases h2 : a + 1 ≤ b ∧ b < a + 1 + n
      · have h3 : a ≤ b ∧ b < a + (n + 1) := by omega
        have h4 : b - a = (b - (a + 1)) + 1 := by omega
        rw [if_pos h2, if_pos h3, h4, Nat.pow_succ, Nat.mul_comm, ← Nat.div_div_eq_div_mul]
      · have h3 : ¬ (a ≤ b ∧ b < a + (n + 1)) := by omega
        rw [if_neg h2, if_neg h1, if_neg h3]

theorem Memory.byte_write_of_out (m : Memory) (a v n b : Nat) (h : b < a ∨ a + n ≤ b) :
    (m.write a v n).byte b = m.byte b := by
  rw [Memory.byte_write, if_neg (by omega)]

/-- Reading the bytes just written gives the number. -/
theorem Memory.read_write (m : Memory) (a v n : Nat) : (m.write a v n).read a n = v % 256 ^ n := by
  suffices h : ∀ k m', (∀ j, j < k → Memory.byte m' (a + j) = BitVec.ofNat 8 (v / 256 ^ j)) →
      ∀ i, i ≤ k → Memory.read m' (a + i) (k - i) = v / 256 ^ i % 256 ^ (k - i) by
    have := h n (m.write a v n) (fun j hj => by rw [Memory.byte_write, if_pos (by omega)]; congr 3; omega) 0 (Nat.zero_le _)
    simpa using this
  intro k m' hb i hi
  induction hj : k - i generalizing i with
  | zero => simp [Memory.read, Nat.mod_one]
  | succ j ih =>
    have hik : i < k := by omega
    have := ih (i + 1) (by omega) (by omega)
    simp only [Memory.read, hb i hik, ← Nat.add_assoc] at this ⊢
    rw [this]
    simp only [BitVec.toNat_ofNat]
    rw [show (256 : Nat) ^ (j + 1) = 256 * 256 ^ j from Nat.pow_succ', Nat.mod_mul, Nat.div_div_eq_div_mul, ← Nat.pow_succ]

/-! ### The canonical form -/

theorem Memory.wfFrom_mono {lo lo' : Nat} {m : Memory} (h : lo' ≤ lo) (w : Memory.wfFrom lo m = true) :
    Memory.wfFrom lo' m = true := by
  cases m with
  | nil => rfl
  | cons p l =>
    obtain ⟨k, b⟩ := p
    simp only [Memory.wfFrom, Bool.and_eq_true, decide_eq_true_eq, bne_iff_ne] at w ⊢
    exact ⟨⟨by omega, w.1.2⟩, w.2⟩

theorem Memory.wfFrom_tset {lo a : Nat} {m : Memory} {b : Byte} (h : lo ≤ a) (hb : b ≠ unlistedByte)
    (w : Memory.wfFrom lo m = true) : Memory.wfFrom lo (tset m a b) = true := by
  induction m generalizing lo with
  | nil => simp [tset, Memory.wfFrom, h, hb]
  | cons p l ih =>
    obtain ⟨k, c⟩ := p
    simp only [Memory.wfFrom, Bool.and_eq_true, decide_eq_true_eq, bne_iff_ne] at w
    simp only [tset]
    split
    · subst k; simp [Memory.wfFrom, h, hb, w.2]
    · split
      · simp only [Memory.wfFrom, Bool.and_eq_true, decide_eq_true_eq, bne_iff_ne]
        exact ⟨⟨h, hb⟩, ⟨by omega, w.1.2⟩, w.2⟩
      · simp only [Memory.wfFrom, Bool.and_eq_true, decide_eq_true_eq, bne_iff_ne]
        exact ⟨w.1, ih (by omega) w.2⟩

theorem Memory.wfFrom_tdel {lo a : Nat} {m : Memory} (w : Memory.wfFrom lo m = true) :
    Memory.wfFrom lo (tdel m a) = true := by
  induction m generalizing lo with
  | nil => rfl
  | cons p l ih =>
    obtain ⟨k, c⟩ := p
    simp only [Memory.wfFrom, Bool.and_eq_true, decide_eq_true_eq, bne_iff_ne] at w
    simp only [tdel]
    split
    · exact Memory.wfFrom_mono (by omega) (ih w.2)
    · simp only [Memory.wfFrom, Bool.and_eq_true, decide_eq_true_eq, bne_iff_ne]
      exact ⟨w.1, ih w.2⟩

/-- Writing a byte keeps the canonical form. -/
theorem Memory.wf_setByte {m : Memory} (a : Nat) (b : Byte) (w : m.wf = true) : (m.setByte a b).wf = true := by
  unfold Memory.setByte
  split
  · exact Memory.wfFrom_tdel w
  · exact Memory.wfFrom_tset (Nat.zero_le _) ‹_› w

/-- Writing n bytes keeps the canonical form. -/
theorem Memory.wf_write {m : Memory} (a v n : Nat) (w : m.wf = true) : (m.write a v n).wf = true := by
  induction n generalizing m a v with
  | zero => exact w
  | succ n ih => exact ih _ _ (Memory.wf_setByte _ _ w)

/-- Storage made of a list of bytes is in canonical form. -/
theorem Memory.wf_ofBytes (l : List Byte) : (Memory.ofBytes l).wf = true := by
  suffices h : ∀ (q : List (Byte × Nat)) (m : Memory), m.wf = true →
      (q.foldl (fun (m : Memory) (p : Byte × Nat) => m.setByte p.2 p.1) m).wf = true from h _ [] rfl
  intro q
  induction q with
  | nil => exact fun _ w => w
  | cons p q ih => exact fun m w => ih _ (Memory.wf_setByte _ _ w)

/-- A byte below every listed address is unlisted. -/
theorem Memory.byte_below {lo a : Nat} {m : Memory} (w : Memory.wfFrom lo m = true) (h : a < lo) :
    m.byte a = unlistedByte := by
  induction m generalizing lo with
  | nil => rfl
  | cons p l ih =>
    obtain ⟨k, c⟩ := p
    simp only [Memory.wfFrom, Bool.and_eq_true, decide_eq_true_eq, bne_iff_ne] at w
    have : a ≠ k := by omega
    have := ih w.2 (by omega)
    simpa [Memory.byte, tget, tget?, ‹a ≠ k›] using this

end Sys2Proof.Machine
end

