-- ==== Sys2Proof/Laws/State.lean ====
section
/-! SUPPORT. What each update of the state leaves: one lemma for each field of each update, so that no proof unfolds a record.
Reads of cores, contexts and registers after the updates of `Sys2Proof/Machine/Ops.lean`. -/

namespace Sys2Proof.Machine

/-! ### State.setCore -/

@[simp] theorem State.setCore_clock (s : State) (c : Nat) (k : Core) : (s.setCore c k).clock = s.clock := rfl
@[simp] theorem State.setCore_agenda (s : State) (c : Nat) (k : Core) : (s.setCore c k).agenda = s.agenda := rfl
@[simp] theorem State.setCore_curCore (s : State) (c : Nat) (k : Core) : (s.setCore c k).curCore = s.curCore := rfl
@[simp] theorem State.setCore_curCtx (s : State) (c : Nat) (k : Core) : (s.setCore c k).curCtx = s.curCtx := rfl
@[simp] theorem State.setCore_nextId (s : State) (c : Nat) (k : Core) : (s.setCore c k).nextId = s.nextId := rfl
@[simp] theorem State.setCore_hbm (s : State) (c : Nat) (k : Core) : (s.setCore c k).hbm = s.hbm := rfl
@[simp] theorem State.setCore_umeta (s : State) (c : Nat) (k : Core) : (s.setCore c k).umeta = s.umeta := rfl
@[simp] theorem State.setCore_hostMem (s : State) (c : Nat) (k : Core) : (s.setCore c k).hostMem = s.hostMem := rfl
@[simp] theorem State.setCore_cdrs (s : State) (c : Nat) (k : Core) : (s.setCore c k).cdrs = s.cdrs := rfl
@[simp] theorem State.setCore_vlines (s : State) (c : Nat) (k : Core) : (s.setCore c k).vlines = s.vlines := rfl
@[simp] theorem State.setCore_homes (s : State) (c : Nat) (k : Core) : (s.setCore c k).homes = s.homes := rfl
@[simp] theorem State.setCore_stWaiters (s : State) (c : Nat) (k : Core) : (s.setCore c k).stWaiters = s.stWaiters := rfl
@[simp] theorem State.setCore_bWaiters (s : State) (c : Nat) (k : Core) : (s.setCore c k).bWaiters = s.bWaiters := rfl
@[simp] theorem State.setCore_pages (s : State) (c : Nat) (k : Core) : (s.setCore c k).pages = s.pages := rfl
@[simp] theorem State.setCore_setHolds (s : State) (c : Nat) (k : Core) : (s.setCore c k).setHolds = s.setHolds := rfl
@[simp] theorem State.setCore_net (s : State) (c : Nat) (k : Core) : (s.setCore c k).net = s.net := rfl
@[simp] theorem State.setCore_channels (s : State) (c : Nat) (k : Core) : (s.setCore c k).channels = s.channels := rfl
@[simp] theorem State.setCore_queues (s : State) (c : Nat) (k : Core) : (s.setCore c k).queues = s.queues := rfl
@[simp] theorem State.setCore_routers (s : State) (c : Nat) (k : Core) : (s.setCore c k).routers = s.routers := rfl
@[simp] theorem State.setCore_fwds (s : State) (c : Nat) (k : Core) : (s.setCore c k).fwds = s.fwds := rfl
@[simp] theorem State.setCore_fabReqs (s : State) (c : Nat) (k : Core) : (s.setCore c k).fabReqs = s.fabReqs := rfl
@[simp] theorem State.setCore_ports (s : State) (c : Nat) (k : Core) : (s.setCore c k).ports = s.ports := rfl
@[simp] theorem State.setCore_routes (s : State) (c : Nat) (k : Core) : (s.setCore c k).routes = s.routes := rfl
@[simp] theorem State.setCore_dev (s : State) (c : Nat) (k : Core) : (s.setCore c k).dev = s.dev := rfl
@[simp] theorem State.setCore_dbg (s : State) (c : Nat) (k : Core) : (s.setCore c k).dbg = s.dbg := rfl
@[simp] theorem State.setCore_scrubs (s : State) (c : Nat) (k : Core) : (s.setCore c k).scrubs = s.scrubs := rfl
@[simp] theorem State.setCore_tables (s : State) (c : Nat) (k : Core) : (s.setCore c k).tables = s.tables := rfl
@[simp] theorem State.setCore_cancelled (s : State) (c : Nat) (k : Core) : (s.setCore c k).cancelled = s.cancelled := rfl
@[simp] theorem State.setCore_hostOut (s : State) (c : Nat) (k : Core) : (s.setCore c k).hostOut = s.hostOut := rfl

/-! ### State.modCore -/

@[simp] theorem State.modCore_clock (s : State) (c : Nat) (f : Core → Core) : (s.modCore c f).clock = s.clock := rfl
@[simp] theorem State.modCore_agenda (s : State) (c : Nat) (f : Core → Core) : (s.modCore c f).agenda = s.agenda := rfl
@[simp] theorem State.modCore_curCore (s : State) (c : Nat) (f : Core → Core) : (s.modCore c f).curCore = s.curCore := rfl
@[simp] theorem State.modCore_curCtx (s : State) (c : Nat) (f : Core → Core) : (s.modCore c f).curCtx = s.curCtx := rfl
@[simp] theorem State.modCore_nextId (s : State) (c : Nat) (f : Core → Core) : (s.modCore c f).nextId = s.nextId := rfl
@[simp] theorem State.modCore_hbm (s : State) (c : Nat) (f : Core → Core) : (s.modCore c f).hbm = s.hbm := rfl
@[simp] theorem State.modCore_umeta (s : State) (c : Nat) (f : Core → Core) : (s.modCore c f).umeta = s.umeta := rfl
@[simp] theorem State.modCore_hostMem (s : State) (c : Nat) (f : Core → Core) : (s.modCore c f).hostMem = s.hostMem := rfl
@[simp] theorem State.modCore_cdrs (s : State) (c : Nat) (f : Core → Core) : (s.modCore c f).cdrs = s.cdrs := rfl
@[simp] theorem State.modCore_vlines (s : State) (c : Nat) (f : Core → Core) : (s.modCore c f).vlines = s.vlines := rfl
@[simp] theorem State.modCore_homes (s : State) (c : Nat) (f : Core → Core) : (s.modCore c f).homes = s.homes := rfl
@[simp] theorem State.modCore_stWaiters (s : State) (c : Nat) (f : Core → Core) : (s.modCore c f).stWaiters = s.stWaiters := rfl
@[simp] theorem State.modCore_bWaiters (s : State) (c : Nat) (f : Core → Core) : (s.modCore c f).bWaiters = s.bWaiters := rfl
@[simp] theorem State.modCore_pages (s : State) (c : Nat) (f : Core → Core) : (s.modCore c f).pages = s.pages := rfl
@[simp] theorem State.modCore_setHolds (s : State) (c : Nat) (f : Core → Core) : (s.modCore c f).setHolds = s.setHolds := rfl
@[simp] theorem State.modCore_net (s : State) (c : Nat) (f : Core → Core) : (s.modCore c f).net = s.net := rfl
@[simp] theorem State.modCore_channels (s : State) (c : Nat) (f : Core → Core) : (s.modCore c f).channels = s.channels := rfl
@[simp] theorem State.modCore_queues (s : State) (c : Nat) (f : Core → Core) : (s.modCore c f).queues = s.queues := rfl
@[simp] theorem State.modCore_routers (s : State) (c : Nat) (f : Core → Core) : (s.modCore c f).routers = s.routers := rfl
@[simp] theorem State.modCore_fwds (s : State) (c : Nat) (f : Core → Core) : (s.modCore c f).fwds = s.fwds := rfl
@[simp] theorem State.modCore_fabReqs (s : State) (c : Nat) (f : Core → Core) : (s.modCore c f).fabReqs = s.fabReqs := rfl
@[simp] theorem State.modCore_ports (s : State) (c : Nat) (f : Core → Core) : (s.modCore c f).ports = s.ports := rfl
@[simp] theorem State.modCore_routes (s : State) (c : Nat) (f : Core → Core) : (s.modCore c f).routes = s.routes := rfl
@[simp] theorem State.modCore_dev (s : State) (c : Nat) (f : Core → Core) : (s.modCore c f).dev = s.dev := rfl
@[simp] theorem State.modCore_dbg (s : State) (c : Nat) (f : Core → Core) : (s.modCore c f).dbg = s.dbg := rfl
@[simp] theorem State.modCore_scrubs (s : State) (c : Nat) (f : Core → Core) : (s.modCore c f).scrubs = s.scrubs := rfl
@[simp] theorem State.modCore_tables (s : State) (c : Nat) (f : Core → Core) : (s.modCore c f).tables = s.tables := rfl
@[simp] theorem State.modCore_cancelled (s : State) (c : Nat) (f : Core → Core) : (s.modCore c f).cancelled = s.cancelled := rfl
@[simp] theorem State.modCore_hostOut (s : State) (c : Nat) (f : Core → Core) : (s.modCore c f).hostOut = s.hostOut := rfl

/-! ### State.modCtx -/

@[simp] theorem State.modCtx_clock (s : State) (c x : Nat) (f : Ctx → Ctx) : (s.modCtx c x f).clock = s.clock := rfl
@[simp] theorem State.modCtx_agenda (s : State) (c x : Nat) (f : Ctx → Ctx) : (s.modCtx c x f).agenda = s.agenda := rfl
@[simp] theorem State.modCtx_curCore (s : State) (c x : Nat) (f : Ctx → Ctx) : (s.modCtx c x f).curCore = s.curCore := rfl
@[simp] theorem State.modCtx_curCtx (s : State) (c x : Nat) (f : Ctx → Ctx) : (s.modCtx c x f).curCtx = s.curCtx := rfl
@[simp] theorem State.modCtx_nextId (s : State) (c x : Nat) (f : Ctx → Ctx) : (s.modCtx c x f).nextId = s.nextId := rfl
@[simp] theorem State.modCtx_hbm (s : State) (c x : Nat) (f : Ctx → Ctx) : (s.modCtx c x f).hbm = s.hbm := rfl
@[simp] theorem State.modCtx_umeta (s : State) (c x : Nat) (f : Ctx → Ctx) : (s.modCtx c x f).umeta = s.umeta := rfl
@[simp] theorem State.modCtx_hostMem (s : State) (c x : Nat) (f : Ctx → Ctx) : (s.modCtx c x f).hostMem = s.hostMem := rfl
@[simp] theorem State.modCtx_cdrs (s : State) (c x : Nat) (f : Ctx → Ctx) : (s.modCtx c x f).cdrs = s.cdrs := rfl
@[simp] theorem State.modCtx_vlines (s : State) (c x : Nat) (f : Ctx → Ctx) : (s.modCtx c x f).vlines = s.vlines := rfl
@[simp] theorem State.modCtx_homes (s : State) (c x : Nat) (f : Ctx → Ctx) : (s.modCtx c x f).homes = s.homes := rfl
@[simp] theorem State.modCtx_stWaiters (s : State) (c x : Nat) (f : Ctx → Ctx) : (s.modCtx c x f).stWaiters = s.stWaiters := rfl
@[simp] theorem State.modCtx_bWaiters (s : State) (c x : Nat) (f : Ctx → Ctx) : (s.modCtx c x f).bWaiters = s.bWaiters := rfl
@[simp] theorem State.modCtx_pages (s : State) (c x : Nat) (f : Ctx → Ctx) : (s.modCtx c x f).pages = s.pages := rfl
@[simp] theorem State.modCtx_setHolds (s : State) (c x : Nat) (f : Ctx → Ctx) : (s.modCtx c x f).setHolds = s.setHolds := rfl
@[simp] theorem State.modCtx_net (s : State) (c x : Nat) (f : Ctx → Ctx) : (s.modCtx c x f).net = s.net := rfl
@[simp] theorem State.modCtx_channels (s : State) (c x : Nat) (f : Ctx → Ctx) : (s.modCtx c x f).channels = s.channels := rfl
@[simp] theorem State.modCtx_queues (s : State) (c x : Nat) (f : Ctx → Ctx) : (s.modCtx c x f).queues = s.queues := rfl
@[simp] theorem State.modCtx_routers (s : State) (c x : Nat) (f : Ctx → Ctx) : (s.modCtx c x f).routers = s.routers := rfl
@[simp] theorem State.modCtx_fwds (s : State) (c x : Nat) (f : Ctx → Ctx) : (s.modCtx c x f).fwds = s.fwds := rfl
@[simp] theorem State.modCtx_fabReqs (s : State) (c x : Nat) (f : Ctx → Ctx) : (s.modCtx c x f).fabReqs = s.fabReqs := rfl
@[simp] theorem State.modCtx_ports (s : State) (c x : Nat) (f : Ctx → Ctx) : (s.modCtx c x f).ports = s.ports := rfl
@[simp] theorem State.modCtx_routes (s : State) (c x : Nat) (f : Ctx → Ctx) : (s.modCtx c x f).routes = s.routes := rfl
@[simp] theorem State.modCtx_dev (s : State) (c x : Nat) (f : Ctx → Ctx) : (s.modCtx c x f).dev = s.dev := rfl
@[simp] theorem State.modCtx_dbg (s : State) (c x : Nat) (f : Ctx → Ctx) : (s.modCtx c x f).dbg = s.dbg := rfl
@[simp] theorem State.modCtx_scrubs (s : State) (c x : Nat) (f : Ctx → Ctx) : (s.modCtx c x f).scrubs = s.scrubs := rfl
@[simp] theorem State.modCtx_tables (s : State) (c x : Nat) (f : Ctx → Ctx) : (s.modCtx c x f).tables = s.tables := rfl
@[simp] theorem State.modCtx_cancelled (s : State) (c x : Nat) (f : Ctx → Ctx) : (s.modCtx c x f).cancelled = s.cancelled := rfl
@[simp] theorem State.modCtx_hostOut (s : State) (c x : Nat) (f : Ctx → Ctx) : (s.modCtx c x f).hostOut = s.hostOut := rfl

/-! ### State.modMe -/

@[simp] theorem State.modMe_clock (s : State) (f : Ctx → Ctx) : (s.modMe f).clock = s.clock := rfl
@[simp] theorem State.modMe_agenda (s : State) (f : Ctx → Ctx) : (s.modMe f).agenda = s.agenda := rfl
@[simp] theorem State.modMe_curCore (s : State) (f : Ctx → Ctx) : (s.modMe f).curCore = s.curCore := rfl
@[simp] theorem State.modMe_curCtx (s : State) (f : Ctx → Ctx) : (s.modMe f).curCtx = s.curCtx := rfl
@[simp] theorem State.modMe_nextId (s : State) (f : Ctx → Ctx) : (s.modMe f).nextId = s.nextId := rfl
@[simp] theorem State.modMe_hbm (s : State) (f : Ctx → Ctx) : (s.modMe f).hbm = s.hbm := rfl
@[simp] theorem State.modMe_umeta (s : State) (f : Ctx → Ctx) : (s.modMe f).umeta = s.umeta := rfl
@[simp] theorem State.modMe_hostMem (s : State) (f : Ctx → Ctx) : (s.modMe f).hostMem = s.hostMem := rfl
@[simp] theorem State.modMe_cdrs (s : State) (f : Ctx → Ctx) : (s.modMe f).cdrs = s.cdrs := rfl
@[simp] theorem State.modMe_vlines (s : State) (f : Ctx → Ctx) : (s.modMe f).vlines = s.vlines := rfl
@[simp] theorem State.modMe_homes (s : State) (f : Ctx → Ctx) : (s.modMe f).homes = s.homes := rfl
@[simp] theorem State.modMe_stWaiters (s : State) (f : Ctx → Ctx) : (s.modMe f).stWaiters = s.stWaiters := rfl
@[simp] theorem State.modMe_bWaiters (s : State) (f : Ctx → Ctx) : (s.modMe f).bWaiters = s.bWaiters := rfl
@[simp] theorem State.modMe_pages (s : State) (f : Ctx → Ctx) : (s.modMe f).pages = s.pages := rfl
@[simp] theorem State.modMe_setHolds (s : State) (f : Ctx → Ctx) : (s.modMe f).setHolds = s.setHolds := rfl
@[simp] theorem State.modMe_net (s : State) (f : Ctx → Ctx) : (s.modMe f).net = s.net := rfl
@[simp] theorem State.modMe_channels (s : State) (f : Ctx → Ctx) : (s.modMe f).channels = s.channels := rfl
@[simp] theorem State.modMe_queues (s : State) (f : Ctx → Ctx) : (s.modMe f).queues = s.queues := rfl
@[simp] theorem State.modMe_routers (s : State) (f : Ctx → Ctx) : (s.modMe f).routers = s.routers := rfl
@[simp] theorem State.modMe_fwds (s : State) (f : Ctx → Ctx) : (s.modMe f).fwds = s.fwds := rfl
@[simp] theorem State.modMe_fabReqs (s : State) (f : Ctx → Ctx) : (s.modMe f).fabReqs = s.fabReqs := rfl
@[simp] theorem State.modMe_ports (s : State) (f : Ctx → Ctx) : (s.modMe f).ports = s.ports := rfl
@[simp] theorem State.modMe_routes (s : State) (f : Ctx → Ctx) : (s.modMe f).routes = s.routes := rfl
@[simp] theorem State.modMe_dev (s : State) (f : Ctx → Ctx) : (s.modMe f).dev = s.dev := rfl
@[simp] theorem State.modMe_dbg (s : State) (f : Ctx → Ctx) : (s.modMe f).dbg = s.dbg := rfl
@[simp] theorem State.modMe_scrubs (s : State) (f : Ctx → Ctx) : (s.modMe f).scrubs = s.scrubs := rfl
@[simp] theorem State.modMe_tables (s : State) (f : Ctx → Ctx) : (s.modMe f).tables = s.tables := rfl
@[simp] theorem State.modMe_cancelled (s : State) (f : Ctx → Ctx) : (s.modMe f).cancelled = s.cancelled := rfl
@[simp] theorem State.modMe_hostOut (s : State) (f : Ctx → Ctx) : (s.modMe f).hostOut = s.hostOut := rfl

/-! ### State.send -/

@[simp] theorem State.send_clock (s : State) (p : Pkt) : (s.send p).clock = s.clock := rfl
@[simp] theorem State.send_agenda (s : State) (p : Pkt) : (s.send p).agenda = s.agenda := rfl
@[simp] theorem State.send_curCore (s : State) (p : Pkt) : (s.send p).curCore = s.curCore := rfl
@[simp] theorem State.send_curCtx (s : State) (p : Pkt) : (s.send p).curCtx = s.curCtx := rfl
@[simp] theorem State.send_cores (s : State) (p : Pkt) : (s.send p).cores = s.cores := rfl
@[simp] theorem State.send_hbm (s : State) (p : Pkt) : (s.send p).hbm = s.hbm := rfl
@[simp] theorem State.send_umeta (s : State) (p : Pkt) : (s.send p).umeta = s.umeta := rfl
@[simp] theorem State.send_hostMem (s : State) (p : Pkt) : (s.send p).hostMem = s.hostMem := rfl
@[simp] theorem State.send_cdrs (s : State) (p : Pkt) : (s.send p).cdrs = s.cdrs := rfl
@[simp] theorem State.send_vlines (s : State) (p : Pkt) : (s.send p).vlines = s.vlines := rfl
@[simp] theorem State.send_homes (s : State) (p : Pkt) : (s.send p).homes = s.homes := rfl
@[simp] theorem State.send_stWaiters (s : State) (p : Pkt) : (s.send p).stWaiters = s.stWaiters := rfl
@[simp] theorem State.send_bWaiters (s : State) (p : Pkt) : (s.send p).bWaiters = s.bWaiters := rfl
@[simp] theorem State.send_pages (s : State) (p : Pkt) : (s.send p).pages = s.pages := rfl
@[simp] theorem State.send_setHolds (s : State) (p : Pkt) : (s.send p).setHolds = s.setHolds := rfl
@[simp] theorem State.send_channels (s : State) (p : Pkt) : (s.send p).channels = s.channels := rfl
@[simp] theorem State.send_queues (s : State) (p : Pkt) : (s.send p).queues = s.queues := rfl
@[simp] theorem State.send_routers (s : State) (p : Pkt) : (s.send p).routers = s.routers := rfl
@[simp] theorem State.send_fwds (s : State) (p : Pkt) : (s.send p).fwds = s.fwds := rfl
@[simp] theorem State.send_fabReqs (s : State) (p : Pkt) : (s.send p).fabReqs = s.fabReqs := rfl
@[simp] theorem State.send_ports (s : State) (p : Pkt) : (s.send p).ports = s.ports := rfl
@[simp] theorem State.send_routes (s : State) (p : Pkt) : (s.send p).routes = s.routes := rfl
@[simp] theorem State.send_dev (s : State) (p : Pkt) : (s.send p).dev = s.dev := rfl
@[simp] theorem State.send_dbg (s : State) (p : Pkt) : (s.send p).dbg = s.dbg := rfl
@[simp] theorem State.send_scrubs (s : State) (p : Pkt) : (s.send p).scrubs = s.scrubs := rfl
@[simp] theorem State.send_tables (s : State) (p : Pkt) : (s.send p).tables = s.tables := rfl
@[simp] theorem State.send_cancelled (s : State) (p : Pkt) : (s.send p).cancelled = s.cancelled := rfl
@[simp] theorem State.send_hostOut (s : State) (p : Pkt) : (s.send p).hostOut = s.hostOut := rfl

/-! ### State.addOp -/

@[simp] theorem State.addOp_clock (s : State) (c : Nat) (o : Op) : (s.addOp c o).clock = s.clock := rfl
@[simp] theorem State.addOp_agenda (s : State) (c : Nat) (o : Op) : (s.addOp c o).agenda = s.agenda := rfl
@[simp] theorem State.addOp_curCore (s : State) (c : Nat) (o : Op) : (s.addOp c o).curCore = s.curCore := rfl
@[simp] theorem State.addOp_curCtx (s : State) (c : Nat) (o : Op) : (s.addOp c o).curCtx = s.curCtx := rfl
@[simp] theorem State.addOp_hbm (s : State) (c : Nat) (o : Op) : (s.addOp c o).hbm = s.hbm := rfl
@[simp] theorem State.addOp_umeta (s : State) (c : Nat) (o : Op) : (s.addOp c o).umeta = s.umeta := rfl
@[simp] theorem State.addOp_hostMem (s : State) (c : Nat) (o : Op) : (s.addOp c o).hostMem = s.hostMem := rfl
@[simp] theorem State.addOp_cdrs (s : State) (c : Nat) (o : Op) : (s.addOp c o).cdrs = s.cdrs := rfl
@[simp] theorem State.addOp_vlines (s : State) (c : Nat) (o : Op) : (s.addOp c o).vlines = s.vlines := rfl
@[simp] theorem State.addOp_homes (s : State) (c : Nat) (o : Op) : (s.addOp c o).homes = s.homes := rfl
@[simp] theorem State.addOp_stWaiters (s : State) (c : Nat) (o : Op) : (s.addOp c o).stWaiters = s.stWaiters := rfl
@[simp] theorem State.addOp_bWaiters (s : State) (c : Nat) (o : Op) : (s.addOp c o).bWaiters = s.bWaiters := rfl
@[simp] theorem State.addOp_pages (s : State) (c : Nat) (o : Op) : (s.addOp c o).pages = s.pages := rfl
@[simp] theorem State.addOp_setHolds (s : State) (c : Nat) (o : Op) : (s.addOp c o).setHolds = s.setHolds := rfl
@[simp] theorem State.addOp_net (s : State) (c : Nat) (o : Op) : (s.addOp c o).net = s.net := rfl
@[simp] theorem State.addOp_channels (s : State) (c : Nat) (o : Op) : (s.addOp c o).channels = s.channels := rfl
@[simp] theorem State.addOp_queues (s : State) (c : Nat) (o : Op) : (s.addOp c o).queues = s.queues := rfl
@[simp] theorem State.addOp_routers (s : State) (c : Nat) (o : Op) : (s.addOp c o).routers = s.routers := rfl
@[simp] theorem State.addOp_fwds (s : State) (c : Nat) (o : Op) : (s.addOp c o).fwds = s.fwds := rfl
@[simp] theorem State.addOp_fabReqs (s : State) (c : Nat) (o : Op) : (s.addOp c o).fabReqs = s.fabReqs := rfl
@[simp] theorem State.addOp_ports (s : State) (c : Nat) (o : Op) : (s.addOp c o).ports = s.ports := rfl
@[simp] theorem State.addOp_routes (s : State) (c : Nat) (o : Op) : (s.addOp c o).routes = s.routes := rfl
@[simp] theorem State.addOp_dev (s : State) (c : Nat) (o : Op) : (s.addOp c o).dev = s.dev := rfl
@[simp] theorem State.addOp_dbg (s : State) (c : Nat) (o : Op) : (s.addOp c o).dbg = s.dbg := rfl
@[simp] theorem State.addOp_scrubs (s : State) (c : Nat) (o : Op) : (s.addOp c o).scrubs = s.scrubs := rfl
@[simp] theorem State.addOp_tables (s : State) (c : Nat) (o : Op) : (s.addOp c o).tables = s.tables := rfl
@[simp] theorem State.addOp_cancelled (s : State) (c : Nat) (o : Op) : (s.addOp c o).cancelled = s.cancelled := rfl
@[simp] theorem State.addOp_hostOut (s : State) (c : Nat) (o : Op) : (s.addOp c o).hostOut = s.hostOut := rfl
@[simp] theorem State.addOp_nextId (s : State) (c : Nat) (o : Op) : (s.addOp c o).nextId = s.nextId + 1 := rfl

/-! ### Core.setCtx -/

@[simp] theorem Core.setCtx_ram (k : Core) (x : Nat) (y : Ctx) : (k.setCtx x y).ram = k.ram := rfl
@[simp] theorem Core.setCtx_tcm (k : Core) (x : Nat) (y : Ctx) : (k.setCtx x y).tcm = k.tcm := rfl
@[simp] theorem Core.setCtx_slots (k : Core) (x : Nat) (y : Ctx) : (k.setCtx x y).slots = k.slots := rfl
@[simp] theorem Core.setCtx_slotOwner (k : Core) (x : Nat) (y : Ctx) : (k.setCtx x y).slotOwner = k.slotOwner := rfl
@[simp] theorem Core.setCtx_scratch (k : Core) (x : Nat) (y : Ctx) : (k.setCtx x y).scratch = k.scratch := rfl
@[simp] theorem Core.setCtx_owners (k : Core) (x : Nat) (y : Ctx) : (k.setCtx x y).owners = k.owners := rfl
@[simp] theorem Core.setCtx_tiles (k : Core) (x : Nat) (y : Ctx) : (k.setCtx x y).tiles = k.tiles := rfl
@[simp] theorem Core.setCtx_domain (k : Core) (x : Nat) (y : Ctx) : (k.setCtx x y).domain = k.domain := rfl
@[simp] theorem Core.setCtx_bsplit (k : Core) (x : Nat) (y : Ctx) : (k.setCtx x y).bsplit = k.bsplit := rfl
@[simp] theorem Core.setCtx_staletmo (k : Core) (x : Nat) (y : Ctx) : (k.setCtx x y).staletmo = k.staletmo := rfl
@[simp] theorem Core.setCtx_ctmo (k : Core) (x : Nat) (y : Ctx) : (k.setCtx x y).ctmo = k.ctmo := rfl
@[simp] theorem Core.setCtx_hmsg (k : Core) (x : Nat) (y : Ctx) : (k.setCtx x y).hmsg = k.hmsg := rfl
@[simp] theorem Core.setCtx_grp (k : Core) (x : Nat) (y : Ctx) : (k.setCtx x y).grp = k.grp := rfl
@[simp] theorem Core.setCtx_capt (k : Core) (x : Nat) (y : Ctx) : (k.setCtx x y).capt = k.capt := rfl
@[simp] theorem Core.setCtx_tsavep (k : Core) (x : Nat) (y : Ctx) : (k.setCtx x y).tsavep = k.tsavep := rfl
@[simp] theorem Core.setCtx_mxk (k : Core) (x : Nat) (y : Ctx) : (k.setCtx x y).mxk = k.mxk := rfl
@[simp] theorem Core.setCtx_mxsa (k : Core) (x : Nat) (y : Ctx) : (k.setCtx x y).mxsa = k.mxsa := rfl
@[simp] theorem Core.setCtx_mxsb (k : Core) (x : Nat) (y : Ctx) : (k.setCtx x y).mxsb = k.mxsb := rfl
@[simp] theorem Core.setCtx_mxcfg (k : Core) (x : Nat) (y : Ctx) : (k.setCtx x y).mxcfg = k.mxcfg := rfl
@[simp] theorem Core.setCtx_mxbar (k : Core) (x : Nat) (y : Ctx) : (k.setCtx x y).mxbar = k.mxbar := rfl
@[simp] theorem Core.setCtx_mxpend (k : Core) (x : Nat) (y : Ctx) : (k.setCtx x y).mxpend = k.mxpend := rfl
@[simp] theorem Core.setCtx_mxstop (k : Core) (x : Nat) (y : Ctx) : (k.setCtx x y).mxstop = k.mxstop := rfl
@[simp] theorem Core.setCtx_mxstep (k : Core) (x : Nat) (y : Ctx) : (k.setCtx x y).mxstep = k.mxstep := rfl
@[simp] theorem Core.setCtx_mxq (k : Core) (x : Nat) (y : Ctx) : (k.setCtx x y).mxq = k.mxq := rfl
@[simp] theorem Core.setCtx_mxbuf (k : Core) (x : Nat) (y : Ctx) : (k.setCtx x y).mxbuf = k.mxbuf := rfl
@[simp] theorem Core.setCtx_ops (k : Core) (x : Nat) (y : Ctx) : (k.setCtx x y).ops = k.ops := rfl
@[simp] theorem Core.setCtx_l1tlb (k : Core) (x : Nat) (y : Ctx) : (k.setCtx x y).l1tlb = k.l1tlb := rfl
@[simp] theorem Core.setCtx_l2tlb (k : Core) (x : Nat) (y : Ctx) : (k.setCtx x y).l2tlb = k.l2tlb := rfl
@[simp] theorem Core.setCtx_xreqs (k : Core) (x : Nat) (y : Ctx) : (k.setCtx x y).xreqs = k.xreqs := rfl
@[simp] theorem Core.setCtx_l1 (k : Core) (x : Nat) (y : Ctx) : (k.setCtx x y).l1 = k.l1 := rfl
@[simp] theorem Core.setCtx_icache (k : Core) (x : Nat) (y : Ctx) : (k.setCtx x y).icache = k.icache := rfl
@[simp] theorem Core.setCtx_divider (k : Core) (x : Nat) (y : Ctx) : (k.setCtx x y).divider = k.divider := rfl
@[simp] theorem Core.setCtx_deque (k : Core) (x : Nat) (y : Ctx) : (k.setCtx x y).deque = k.deque := rfl
@[simp] theorem Core.setCtx_ringLo (k : Core) (x : Nat) (y : Ctx) : (k.setCtx x y).ringLo = k.ringLo := rfl
@[simp] theorem Core.setCtx_ringHi (k : Core) (x : Nat) (y : Ctx) : (k.setCtx x y).ringHi = k.ringHi := rfl
@[simp] theorem Core.setCtx_takenAt (k : Core) (x : Nat) (y : Ctx) : (k.setCtx x y).takenAt = k.takenAt := rfl
@[simp] theorem Core.setCtx_origin (k : Core) (x : Nat) (y : Ctx) : (k.setCtx x y).origin = k.origin := rfl
@[simp] theorem Core.setCtx_queue (k : Core) (x : Nat) (y : Ctx) : (k.setCtx x y).queue = k.queue := rfl
@[simp] theorem Core.setCtx_task (k : Core) (x : Nat) (y : Ctx) : (k.setCtx x y).task = k.task := rfl
@[simp] theorem Core.setCtx_taskLid (k : Core) (x : Nat) (y : Ctx) : (k.setCtx x y).taskLid = k.taskLid := rfl
@[simp] theorem Core.setCtx_exitSucc (k : Core) (x : Nat) (y : Ctx) : (k.setCtx x y).exitSucc = k.exitSucc := rfl
@[simp] theorem Core.setCtx_steal (k : Core) (x : Nat) (y : Ctx) : (k.setCtx x y).steal = k.steal := rfl
@[simp] theorem Core.setCtx_idleSince (k : Core) (x : Nat) (y : Ctx) : (k.setCtx x y).idleSince = k.idleSince := rfl
@[simp] theorem Core.setCtx_migrated (k : Core) (x : Nat) (y : Ctx) : (k.setCtx x y).migrated = k.migrated := rfl
@[simp] theorem Core.setCtx_treeHalted (k : Core) (x : Nat) (y : Ctx) : (k.setCtx x y).treeHalted = k.treeHalted := rfl
@[simp] theorem Core.setCtx_moving (k : Core) (x : Nat) (y : Ctx) : (k.setCtx x y).moving = k.moving := rfl
@[simp] theorem Core.setCtx_scratchBad (k : Core) (x : Nat) (y : Ctx) : (k.setCtx x y).scratchBad = k.scratchBad := rfl
@[simp] theorem Core.setCtx_depAt (k : Core) (x : Nat) (y : Ctx) : (k.setCtx x y).depAt = k.depAt := rfl
@[simp] theorem Core.setCtx_leases (k : Core) (x : Nat) (y : Ctx) : (k.setCtx x y).leases = k.leases := rfl
@[simp] theorem Core.setCtx_mover (k : Core) (x : Nat) (y : Ctx) : (k.setCtx x y).mover = k.mover := rfl
@[simp] theorem Core.setCtx_tagInc (k : Core) (x : Nat) (y : Ctx) : (k.setCtx x y).tagInc = k.tagInc := rfl
@[simp] theorem Core.setCtx_lateReplies (k : Core) (x : Nat) (y : Ctx) : (k.setCtx x y).lateReplies = k.lateReplies := rfl
@[simp] theorem Core.setCtx_sent (k : Core) (x : Nat) (y : Ctx) : (k.setCtx x y).sent = k.sent := rfl
@[simp] theorem Core.setCtx_received (k : Core) (x : Nat) (y : Ctx) : (k.setCtx x y).received = k.received := rfl
@[simp] theorem Core.setCtx_hcyc (k : Core) (x : Nat) (y : Ctx) : (k.setCtx x y).hcyc = k.hcyc := rfl
@[simp] theorem Core.setCtx_hmcnt (k : Core) (x : Nat) (y : Ctx) : (k.setCtx x y).hmcnt = k.hmcnt := rfl
@[simp] theorem Core.setCtx_bp (k : Core) (x : Nat) (y : Ctx) : (k.setCtx x y).bp = k.bp := rfl
@[simp] theorem Core.setCtx_trace (k : Core) (x : Nat) (y : Ctx) : (k.setCtx x y).trace = k.trace := rfl
@[simp] theorem Core.setCtx_traceAt (k : Core) (x : Nat) (y : Ctx) : (k.setCtx x y).traceAt = k.traceAt := rfl
@[simp] theorem Core.setCtx_traceWrap (k : Core) (x : Nat) (y : Ctx) : (k.setCtx x y).traceWrap = k.traceWrap := rfl
@[simp] theorem Core.setCtx_traceRd (k : Core) (x : Nat) (y : Ctx) : (k.setCtx x y).traceRd = k.traceRd := rfl
@[simp] theorem Core.setCtx_traceState (k : Core) (x : Nat) (y : Ctx) : (k.setCtx x y).traceState = k.traceState := rfl
@[simp] theorem Core.setCtx_traceLast (k : Core) (x : Nat) (y : Ctx) : (k.setCtx x y).traceLast = k.traceLast := rfl
@[simp] theorem Core.setCtx_issuedAt (k : Core) (x : Nat) (y : Ctx) : (k.setCtx x y).issuedAt = k.issuedAt := rfl
@[simp] theorem Core.setCtx_scrubbing (k : Core) (x : Nat) (y : Ctx) : (k.setCtx x y).scrubbing = k.scrubbing := rfl

/-! ### Core.setRam -/

@[simp] theorem Core.setRam_ctxs (k : Core) (e : Nat) (w : Word) : (k.setRam e w).ctxs = k.ctxs := rfl
@[simp] theorem Core.setRam_tcm (k : Core) (e : Nat) (w : Word) : (k.setRam e w).tcm = k.tcm := rfl
@[simp] theorem Core.setRam_slots (k : Core) (e : Nat) (w : Word) : (k.setRam e w).slots = k.slots := rfl
@[simp] theorem Core.setRam_slotOwner (k : Core) (e : Nat) (w : Word) : (k.setRam e w).slotOwner = k.slotOwner := rfl
@[simp] theorem Core.setRam_scratch (k : Core) (e : Nat) (w : Word) : (k.setRam e w).scratch = k.scratch := rfl
@[simp] theorem Core.setRam_owners (k : Core) (e : Nat) (w : Word) : (k.setRam e w).owners = k.owners := rfl
@[simp] theorem Core.setRam_tiles (k : Core) (e : Nat) (w : Word) : (k.setRam e w).tiles = k.tiles := rfl
@[simp] theorem Core.setRam_domain (k : Core) (e : Nat) (w : Word) : (k.setRam e w).domain = k.domain := rfl
@[simp] theorem Core.setRam_bsplit (k : Core) (e : Nat) (w : Word) : (k.setRam e w).bsplit = k.bsplit := rfl
@[simp] theorem Core.setRam_staletmo (k : Core) (e : Nat) (w : Word) : (k.setRam e w).staletmo = k.staletmo := rfl
@[simp] theorem Core.setRam_ctmo (k : Core) (e : Nat) (w : Word) : (k.setRam e w).ctmo = k.ctmo := rfl
@[simp] theorem Core.setRam_hmsg (k : Core) (e : Nat) (w : Word) : (k.setRam e w).hmsg = k.hmsg := rfl
@[simp] theorem Core.setRam_grp (k : Core) (e : Nat) (w : Word) : (k.setRam e w).grp = k.grp := rfl
@[simp] theorem Core.setRam_capt (k : Core) (e : Nat) (w : Word) : (k.setRam e w).capt = k.capt := rfl
@[simp] theorem Core.setRam_tsavep (k : Core) (e : Nat) (w : Word) : (k.setRam e w).tsavep = k.tsavep := rfl
@[simp] theorem Core.setRam_mxk (k : Core) (e : Nat) (w : Word) : (k.setRam e w).mxk = k.mxk := rfl
@[simp] theorem Core.setRam_mxsa (k : Core) (e : Nat) (w : Word) : (k.setRam e w).mxsa = k.mxsa := rfl
@[simp] theorem Core.setRam_mxsb (k : Core) (e : Nat) (w : Word) : (k.setRam e w).mxsb = k.mxsb := rfl
@[simp] theorem Core.setRam_mxcfg (k : Core) (e : Nat) (w : Word) : (k.setRam e w).mxcfg = k.mxcfg := rfl
@[simp] theorem Core.setRam_mxbar (k : Core) (e : Nat) (w : Word) : (k.setRam e w).mxbar = k.mxbar := rfl
@[simp] theorem Core.setRam_mxpend (k : Core) (e : Nat) (w : Word) : (k.setRam e w).mxpend = k.mxpend := rfl
@[simp] theorem Core.setRam_mxstop (k : Core) (e : Nat) (w : Word) : (k.setRam e w).mxstop = k.mxstop := rfl
@[simp] theorem Core.setRam_mxstep (k : Core) (e : Nat) (w : Word) : (k.setRam e w).mxstep = k.mxstep := rfl
@[simp] theorem Core.setRam_mxq (k : Core) (e : Nat) (w : Word) : (k.setRam e w).mxq = k.mxq := rfl
@[simp] theorem Core.setRam_mxbuf (k : Core) (e : Nat) (w : Word) : (k.setRam e w).mxbuf = k.mxbuf := rfl
@[simp] theorem Core.setRam_ops (k : Core) (e : Nat) (w : Word) : (k.setRam e w).ops = k.ops := rfl
@[simp] theorem Core.setRam_l1tlb (k : Core) (e : Nat) (w : Word) : (k.setRam e w).l1tlb = k.l1tlb := rfl
@[simp] theorem Core.setRam_l2tlb (k : Core) (e : Nat) (w : Word) : (k.setRam e w).l2tlb = k.l2tlb := rfl
@[simp] theorem Core.setRam_xreqs (k : Core) (e : Nat) (w : Word) : (k.setRam e w).xreqs = k.xreqs := rfl
@[simp] theorem Core.setRam_l1 (k : Core) (e : Nat) (w : Word) : (k.setRam e w).l1 = k.l1 := rfl
@[simp] theorem Core.setRam_icache (k : Core) (e : Nat) (w : Word) : (k.setRam e w).icache = k.icache := rfl
@[simp] theorem Core.setRam_divider (k : Core) (e : Nat) (w : Word) : (k.setRam e w).divider = k.divider := rfl
@[simp] theorem Core.setRam_deque (k : Core) (e : Nat) (w : Word) : (k.setRam e w).deque = k.deque := rfl
@[simp] theorem Core.setRam_ringLo (k : Core) (e : Nat) (w : Word) : (k.setRam e w).ringLo = k.ringLo := rfl
@[simp] theorem Core.setRam_ringHi (k : Core) (e : Nat) (w : Word) : (k.setRam e w).ringHi = k.ringHi := rfl
@[simp] theorem Core.setRam_takenAt (k : Core) (e : Nat) (w : Word) : (k.setRam e w).takenAt = k.takenAt := rfl
@[simp] theorem Core.setRam_origin (k : Core) (e : Nat) (w : Word) : (k.setRam e w).origin = k.origin := rfl
@[simp] theorem Core.setRam_queue (k : Core) (e : Nat) (w : Word) : (k.setRam e w).queue = k.queue := rfl
@[simp] theorem Core.setRam_task (k : Core) (e : Nat) (w : Word) : (k.setRam e w).task = k.task := rfl
@[simp] theorem Core.setRam_taskLid (k : Core) (e : Nat) (w : Word) : (k.setRam e w).taskLid = k.taskLid := rfl
@[simp] theorem Core.setRam_exitSucc (k : Core) (e : Nat) (w : Word) : (k.setRam e w).exitSucc = k.exitSucc := rfl
@[simp] theorem Core.setRam_steal (k : Core) (e : Nat) (w : Word) : (k.setRam e w).steal = k.steal := rfl
@[simp] theorem Core.setRam_idleSince (k : Core) (e : Nat) (w : Word) : (k.setRam e w).idleSince = k.idleSince := rfl
@[simp] theorem Core.setRam_migrated (k : Core) (e : Nat) (w : Word) : (k.setRam e w).migrated = k.migrated := rfl
@[simp] theorem Core.setRam_treeHalted (k : Core) (e : Nat) (w : Word) : (k.setRam e w).treeHalted = k.treeHalted := rfl
@[simp] theorem Core.setRam_moving (k : Core) (e : Nat) (w : Word) : (k.setRam e w).moving = k.moving := rfl
@[simp] theorem Core.setRam_scratchBad (k : Core) (e : Nat) (w : Word) : (k.setRam e w).scratchBad = k.scratchBad := rfl
@[simp] theorem Core.setRam_depAt (k : Core) (e : Nat) (w : Word) : (k.setRam e w).depAt = k.depAt := rfl
@[simp] theorem Core.setRam_leases (k : Core) (e : Nat) (w : Word) : (k.setRam e w).leases = k.leases := rfl
@[simp] theorem Core.setRam_mover (k : Core) (e : Nat) (w : Word) : (k.setRam e w).mover = k.mover := rfl
@[simp] theorem Core.setRam_tagInc (k : Core) (e : Nat) (w : Word) : (k.setRam e w).tagInc = k.tagInc := rfl
@[simp] theorem Core.setRam_lateReplies (k : Core) (e : Nat) (w : Word) : (k.setRam e w).lateReplies = k.lateReplies := rfl
@[simp] theorem Core.setRam_sent (k : Core) (e : Nat) (w : Word) : (k.setRam e w).sent = k.sent := rfl
@[simp] theorem Core.setRam_received (k : Core) (e : Nat) (w : Word) : (k.setRam e w).received = k.received := rfl
@[simp] theorem Core.setRam_hcyc (k : Core) (e : Nat) (w : Word) : (k.setRam e w).hcyc = k.hcyc := rfl
@[simp] theorem Core.setRam_hmcnt (k : Core) (e : Nat) (w : Word) : (k.setRam e w).hmcnt = k.hmcnt := rfl
@[simp] theorem Core.setRam_bp (k : Core) (e : Nat) (w : Word) : (k.setRam e w).bp = k.bp := rfl
@[simp] theorem Core.setRam_trace (k : Core) (e : Nat) (w : Word) : (k.setRam e w).trace = k.trace := rfl
@[simp] theorem Core.setRam_traceAt (k : Core) (e : Nat) (w : Word) : (k.setRam e w).traceAt = k.traceAt := rfl
@[simp] theorem Core.setRam_traceWrap (k : Core) (e : Nat) (w : Word) : (k.setRam e w).traceWrap = k.traceWrap := rfl
@[simp] theorem Core.setRam_traceRd (k : Core) (e : Nat) (w : Word) : (k.setRam e w).traceRd = k.traceRd := rfl
@[simp] theorem Core.setRam_traceState (k : Core) (e : Nat) (w : Word) : (k.setRam e w).traceState = k.traceState := rfl
@[simp] theorem Core.setRam_traceLast (k : Core) (e : Nat) (w : Word) : (k.setRam e w).traceLast = k.traceLast := rfl
@[simp] theorem Core.setRam_issuedAt (k : Core) (e : Nat) (w : Word) : (k.setRam e w).issuedAt = k.issuedAt := rfl
@[simp] theorem Core.setRam_scrubbing (k : Core) (e : Nat) (w : Word) : (k.setRam e w).scrubbing = k.scrubbing := rfl

/-! ### Ctx.setGlob -/

@[simp] theorem Ctx.setGlob_st (y : Ctx) (j : Nat) (w : Word) : (y.setGlob j w).st = y.st := rfl
@[simp] theorem Ctx.setGlob_wait (y : Ctx) (j : Nat) (w : Word) : (y.setGlob j w).wait = y.wait := rfl
@[simp] theorem Ctx.setGlob_mode (y : Ctx) (j : Nat) (w : Word) : (y.setGlob j w).mode = y.mode := rfl
@[simp] theorem Ctx.setGlob_pc (y : Ctx) (j : Nat) (w : Word) : (y.setGlob j w).pc = y.pc := rfl
@[simp] theorem Ctx.setGlob_vecs (y : Ctx) (j : Nat) (w : Word) : (y.setGlob j w).vecs = y.vecs := rfl
@[simp] theorem Ctx.setGlob_masks (y : Ctx) (j : Nat) (w : Word) : (y.setGlob j w).masks = y.masks := rfl
@[simp] theorem Ctx.setGlob_iter (y : Ctx) (j : Nat) (w : Word) : (y.setGlob j w).iter = y.iter := rfl
@[simp] theorem Ctx.setGlob_age (y : Ctx) (j : Nat) (w : Word) : (y.setGlob j w).age = y.age := rfl
@[simp] theorem Ctx.setGlob_wpend (y : Ctx) (j : Nat) (w : Word) : (y.setGlob j w).wpend = y.wpend := rfl
@[simp] theorem Ctx.setGlob_low (y : Ctx) (j : Nat) (w : Word) : (y.setGlob j w).low = y.low := rfl
@[simp] theorem Ctx.setGlob_base (y : Ctx) (j : Nat) (w : Word) : (y.setGlob j w).base = y.base := rfl
@[simp] theorem Ctx.setGlob_rslo (y : Ctx) (j : Nat) (w : Word) : (y.setGlob j w).rslo = y.rslo := rfl
@[simp] theorem Ctx.setGlob_rshi (y : Ctx) (j : Nat) (w : Word) : (y.setGlob j w).rshi = y.rshi := rfl
@[simp] theorem Ctx.setGlob_spillp (y : Ctx) (j : Nat) (w : Word) : (y.setGlob j w).spillp = y.spillp := rfl
@[simp] theorem Ctx.setGlob_tvec (y : Ctx) (j : Nat) (w : Word) : (y.setGlob j w).tvec = y.tvec := rfl
@[simp] theorem Ctx.setGlob_inh (y : Ctx) (j : Nat) (w : Word) : (y.setGlob j w).inh = y.inh := rfl
@[simp] theorem Ctx.setGlob_epc (y : Ctx) (j : Nat) (w : Word) : (y.setGlob j w).epc = y.epc := rfl
@[simp] theorem Ctx.setGlob_ecause (y : Ctx) (j : Nat) (w : Word) : (y.setGlob j w).ecause = y.ecause := rfl
@[simp] theorem Ctx.setGlob_einfo (y : Ctx) (j : Nat) (w : Word) : (y.setGlob j w).einfo = y.einfo := rfl
@[simp] theorem Ctx.setGlob_repst (y : Ctx) (j : Nat) (w : Word) : (y.setGlob j w).repst = y.repst := rfl
@[simp] theorem Ctx.setGlob_rmode (y : Ctx) (j : Nat) (w : Word) : (y.setGlob j w).rmode = y.rmode := rfl
@[simp] theorem Ctx.setGlob_lfsr (y : Ctx) (j : Nat) (w : Word) : (y.setGlob j w).lfsr = y.lfsr := rfl
@[simp] theorem Ctx.setGlob_lfsrSet (y : Ctx) (j : Nat) (w : Word) : (y.setGlob j w).lfsrSet = y.lfsrSet := rfl
@[simp] theorem Ctx.setGlob_depen (y : Ctx) (j : Nat) (w : Word) : (y.setGlob j w).depen = y.depen := rfl
@[simp] theorem Ctx.setGlob_msrc (y : Ctx) (j : Nat) (w : Word) : (y.setGlob j w).msrc = y.msrc := rfl
@[simp] theorem Ctx.setGlob_mslot (y : Ctx) (j : Nat) (w : Word) : (y.setGlob j w).mslot = y.mslot := rfl
@[simp] theorem Ctx.setGlob_mseen (y : Ctx) (j : Nat) (w : Word) : (y.setGlob j w).mseen = y.mseen := rfl
@[simp] theorem Ctx.setGlob_mpend (y : Ctx) (j : Nat) (w : Word) : (y.setGlob j w).mpend = y.mpend := rfl
@[simp] theorem Ctx.setGlob_ptrap (y : Ctx) (j : Nat) (w : Word) : (y.setGlob j w).ptrap = y.ptrap := rfl
@[simp] theorem Ctx.setGlob_msgStarted (y : Ctx) (j : Nat) (w : Word) : (y.setGlob j w).msgStarted = y.msgStarted := rfl
@[simp] theorem Ctx.setGlob_msgSlot (y : Ctx) (j : Nat) (w : Word) : (y.setGlob j w).msgSlot = y.msgSlot := rfl
@[simp] theorem Ctx.setGlob_exitVal (y : Ctx) (j : Nat) (w : Word) : (y.setGlob j w).exitVal = y.exitVal := rfl
@[simp] theorem Ctx.setGlob_creator (y : Ctx) (j : Nat) (w : Word) : (y.setGlob j w).creator = y.creator := rfl
@[simp] theorem Ctx.setGlob_rep (y : Ctx) (j : Nat) (w : Word) : (y.setGlob j w).rep = y.rep := rfl
@[simp] theorem Ctx.setGlob_fetched (y : Ctx) (j : Nat) (w : Word) : (y.setGlob j w).fetched = y.fetched := rfl
@[simp] theorem Ctx.setGlob_seq (y : Ctx) (j : Nat) (w : Word) : (y.setGlob j w).seq = y.seq := rfl
@[simp] theorem Ctx.setGlob_gonged (y : Ctx) (j : Nat) (w : Word) : (y.setGlob j w).gonged = y.gonged := rfl
@[simp] theorem Ctx.setGlob_ranged (y : Ctx) (j : Nat) (w : Word) : (y.setGlob j w).ranged = y.ranged := rfl
@[simp] theorem Ctx.setGlob_stepOver (y : Ctx) (j : Nat) (w : Word) : (y.setGlob j w).stepOver = y.stepOver := rfl
@[simp] theorem Ctx.setGlob_fenceErr (y : Ctx) (j : Nat) (w : Word) : (y.setGlob j w).fenceErr = y.fenceErr := rfl
@[simp] theorem Ctx.setGlob_engWait (y : Ctx) (j : Nat) (w : Word) : (y.setGlob j w).engWait = y.engWait := rfl
@[simp] theorem Ctx.setGlob_engWords (y : Ctx) (j : Nat) (w : Word) : (y.setGlob j w).engWords = y.engWords := rfl

/-! ### Ctx.setVec -/

@[simp] theorem Ctx.setVec_st (y : Ctx) (v : Nat) (w : Vec) : (y.setVec v w).st = y.st := rfl
@[simp] theorem Ctx.setVec_wait (y : Ctx) (v : Nat) (w : Vec) : (y.setVec v w).wait = y.wait := rfl
@[simp] theorem Ctx.setVec_mode (y : Ctx) (v : Nat) (w : Vec) : (y.setVec v w).mode = y.mode := rfl
@[simp] theorem Ctx.setVec_pc (y : Ctx) (v : Nat) (w : Vec) : (y.setVec v w).pc = y.pc := rfl
@[simp] theorem Ctx.setVec_globs (y : Ctx) (v : Nat) (w : Vec) : (y.setVec v w).globs = y.globs := rfl
@[simp] theorem Ctx.setVec_masks (y : Ctx) (v : Nat) (w : Vec) : (y.setVec v w).masks = y.masks := rfl
@[simp] theorem Ctx.setVec_iter (y : Ctx) (v : Nat) (w : Vec) : (y.setVec v w).iter = y.iter := rfl
@[simp] theorem Ctx.setVec_age (y : Ctx) (v : Nat) (w : Vec) : (y.setVec v w).age = y.age := rfl
@[simp] theorem Ctx.setVec_wpend (y : Ctx) (v : Nat) (w : Vec) : (y.setVec v w).wpend = y.wpend := rfl
@[simp] theorem Ctx.setVec_low (y : Ctx) (v : Nat) (w : Vec) : (y.setVec v w).low = y.low := rfl
@[simp] theorem Ctx.setVec_base (y : Ctx) (v : Nat) (w : Vec) : (y.setVec v w).base = y.base := rfl
@[simp] theorem Ctx.setVec_rslo (y : Ctx) (v : Nat) (w : Vec) : (y.setVec v w).rslo = y.rslo := rfl
@[simp] theorem Ctx.setVec_rshi (y : Ctx) (v : Nat) (w : Vec) : (y.setVec v w).rshi = y.rshi := rfl
@[simp] theorem Ctx.setVec_spillp (y : Ctx) (v : Nat) (w : Vec) : (y.setVec v w).spillp = y.spillp := rfl
@[simp] theorem Ctx.setVec_tvec (y : Ctx) (v : Nat) (w : Vec) : (y.setVec v w).tvec = y.tvec := rfl
@[simp] theorem Ctx.setVec_inh (y : Ctx) (v : Nat) (w : Vec) : (y.setVec v w).inh = y.inh := rfl
@[simp] theorem Ctx.setVec_epc (y : Ctx) (v : Nat) (w : Vec) : (y.setVec v w).epc = y.epc := rfl
@[simp] theorem Ctx.setVec_ecause (y : Ctx) (v : Nat) (w : Vec) : (y.setVec v w).ecause = y.ecause := rfl
@[simp] theorem Ctx.setVec_einfo (y : Ctx) (v : Nat) (w : Vec) : (y.setVec v w).einfo = y.einfo := rfl
@[simp] theorem Ctx.setVec_repst (y : Ctx) (v : Nat) (w : Vec) : (y.setVec v w).repst = y.repst := rfl
@[simp] theorem Ctx.setVec_rmode (y : Ctx) (v : Nat) (w : Vec) : (y.setVec v w).rmode = y.rmode := rfl
@[simp] theorem Ctx.setVec_lfsr (y : Ctx) (v : Nat) (w : Vec) : (y.setVec v w).lfsr = y.lfsr := rfl
@[simp] theorem Ctx.setVec_lfsrSet (y : Ctx) (v : Nat) (w : Vec) : (y.setVec v w).lfsrSet = y.lfsrSet := rfl
@[simp] theorem Ctx.setVec_depen (y : Ctx) (v : Nat) (w : Vec) : (y.setVec v w).depen = y.depen := rfl
@[simp] theorem Ctx.setVec_msrc (y : Ctx) (v : Nat) (w : Vec) : (y.setVec v w).msrc = y.msrc := rfl
@[simp] theorem Ctx.setVec_mslot (y : Ctx) (v : Nat) (w : Vec) : (y.setVec v w).mslot = y.mslot := rfl
@[simp] theorem Ctx.setVec_mseen (y : Ctx) (v : Nat) (w : Vec) : (y.setVec v w).mseen = y.mseen := rfl
@[simp] theorem Ctx.setVec_mpend (y : Ctx) (v : Nat) (w : Vec) : (y.setVec v w).mpend = y.mpend := rfl
@[simp] theorem Ctx.setVec_ptrap (y : Ctx) (v : Nat) (w : Vec) : (y.setVec v w).ptrap = y.ptrap := rfl
@[simp] theorem Ctx.setVec_msgStarted (y : Ctx) (v : Nat) (w : Vec) : (y.setVec v w).msgStarted = y.msgStarted := rfl
@[simp] theorem Ctx.setVec_msgSlot (y : Ctx) (v : Nat) (w : Vec) : (y.setVec v w).msgSlot = y.msgSlot := rfl
@[simp] theorem Ctx.setVec_exitVal (y : Ctx) (v : Nat) (w : Vec) : (y.setVec v w).exitVal = y.exitVal := rfl
@[simp] theorem Ctx.setVec_creator (y : Ctx) (v : Nat) (w : Vec) : (y.setVec v w).creator = y.creator := rfl
@[simp] theorem Ctx.setVec_rep (y : Ctx) (v : Nat) (w : Vec) : (y.setVec v w).rep = y.rep := rfl
@[simp] theorem Ctx.setVec_fetched (y : Ctx) (v : Nat) (w : Vec) : (y.setVec v w).fetched = y.fetched := rfl
@[simp] theorem Ctx.setVec_seq (y : Ctx) (v : Nat) (w : Vec) : (y.setVec v w).seq = y.seq := rfl
@[simp] theorem Ctx.setVec_gonged (y : Ctx) (v : Nat) (w : Vec) : (y.setVec v w).gonged = y.gonged := rfl
@[simp] theorem Ctx.setVec_ranged (y : Ctx) (v : Nat) (w : Vec) : (y.setVec v w).ranged = y.ranged := rfl
@[simp] theorem Ctx.setVec_stepOver (y : Ctx) (v : Nat) (w : Vec) : (y.setVec v w).stepOver = y.stepOver := rfl
@[simp] theorem Ctx.setVec_fenceErr (y : Ctx) (v : Nat) (w : Vec) : (y.setVec v w).fenceErr = y.fenceErr := rfl
@[simp] theorem Ctx.setVec_engWait (y : Ctx) (v : Nat) (w : Vec) : (y.setVec v w).engWait = y.engWait := rfl
@[simp] theorem Ctx.setVec_engWords (y : Ctx) (v : Nat) (w : Vec) : (y.setVec v w).engWords = y.engWords := rfl

/-! ### Cores and contexts -/

@[simp] theorem State.core_setCore (s : State) (c d : Nat) (k : Core) :
    (s.setCore c k).core d = if d = c then k else s.core d := tget_tset ..
@[simp] theorem State.core_modCore (s : State) (c d : Nat) (f : Core → Core) :
    (s.modCore c f).core d = if d = c then f (s.core c) else s.core d := tget_tset ..
@[simp] theorem Core.ctx_setCtx (k : Core) (x z : Nat) (y : Ctx) :
    (k.setCtx x y).ctx z = if z = x then y else k.ctx z := by
  simp only [Core.ctx, Core.setCtx, tget_tset]
@[simp] theorem State.core_modCtx (s : State) (c x d : Nat) (f : Ctx → Ctx) :
    (s.modCtx c x f).core d = if d = c then (s.core c).setCtx x (f (s.ctx c x)) else s.core d := by
  simp [State.modCtx, State.ctx]
@[simp] theorem State.ctx_modCtx (s : State) (c x d z : Nat) (f : Ctx → Ctx) :
    (s.modCtx c x f).ctx d z = if d = c ∧ z = x then f (s.ctx c x) else s.ctx d z := by
  simp only [State.ctx, State.core_modCtx]
  by_cases h : d = c <;> by_cases h' : z = x <;> simp [h, h']
@[simp] theorem State.mine_modMe (s : State) (f : Ctx → Ctx) : (s.modMe f).mine = s.mine.setCtx s.curCtx (f s.me) := by
  simp [State.mine, State.modMe, State.me]
@[simp] theorem State.me_modMe (s : State) (f : Ctx → Ctx) : (s.modMe f).me = f s.me := by
  simp [State.me, State.modMe]
@[simp] theorem State.core_modMe (s : State) (f : Ctx → Ctx) (d : Nat) :
    (s.modMe f).core d = if d = s.curCore then s.mine.setCtx s.curCtx (f s.me) else s.core d := by
  simp [State.modMe, State.mine, State.me]
@[simp] theorem State.ctx_modMe (s : State) (f : Ctx → Ctx) (d z : Nat) :
    (s.modMe f).ctx d z = if d = s.curCore ∧ z = s.curCtx then f s.me else s.ctx d z := by
  simp [State.modMe, State.me]
@[simp] theorem State.core_send (s : State) (p : Pkt) (c : Nat) : (s.send p).core c = s.core c := rfl
@[simp] theorem State.ctx_send (s : State) (p : Pkt) (c x : Nat) : (s.send p).ctx c x = s.ctx c x := rfl
@[simp] theorem State.core_addOp (s : State) (c d : Nat) (o : Op) : (s.addOp c o).core d =
    if d = c then { s.core c with ops := (s.core c).ops ++ [{ o with id := s.nextId }] } else s.core d := by
  exact State.core_modCore s c d fun k => { k with ops := k.ops ++ [{ o with id := s.nextId }] }

/-- Two changes of one core are one. -/
@[simp] theorem State.modCore_modCore (s : State) (c : Nat) (f g : Core → Core) :
    (s.modCore c f).modCore c g = s.modCore c fun k => g (f k) := by
  show ({ s with cores := tset (tset s.cores c _) c _ } : State) = _
  rw [tset_tset]
  show s.setCore c (g ((s.modCore c f).core c)) = _
  simp [State.modCore]
@[simp] theorem Core.setCtx_setCtx (k : Core) (x : Nat) (y z : Ctx) : (k.setCtx x y).setCtx x z = k.setCtx x z := by
  simp [Core.setCtx]
/-- Two changes of one context are one. -/
@[simp] theorem State.modCtx_modCtx (s : State) (c x : Nat) (f g : Ctx → Ctx) :
    (s.modCtx c x f).modCtx c x g = s.modCtx c x fun y => g (f y) := by
  simp [State.modCtx]
@[simp] theorem State.modMe_modMe (s : State) (f g : Ctx → Ctx) : (s.modMe f).modMe g = s.modMe fun y => g (f y) :=
  State.modCtx_modCtx ..

/-! ### Vector and mask registers -/

@[simp] theorem Ctx.vec_setVec (y : Ctx) (v z : Nat) (w : Vec) : (y.setVec v w).vec z = if z = v then w else y.vec z := by
  unfold Ctx.setVec Ctx.vec; split <;> simp_all
@[simp] theorem Ctx.mask_zero (y : Ctx) : y.mask 0 = BitVec.allOnes 64 := rfl
@[simp] theorem Ctx.mask_setMask (y : Ctx) (k j : Nat) (w : Word) :
    (y.setMask k w).mask j = if k ≠ 0 ∧ j = k then w else y.mask j := by
  unfold Ctx.setMask Ctx.mask; by_cases h : k = 0 <;> by_cases h' : j = 0 <;> simp_all
  · intro e; simp_all

/-! ### Scalar registers (10 R213) -/

@[simp] theorem Core.ram_setRam (k : Core) (e b : Nat) (w : Word) :
    tget (k.setRam e w).ram b 0#64 = if b = e then w else tget k.ram b 0#64 := tget_wset ..
@[simp] theorem Ctx.globs_setGlob (y : Ctx) (j b : Nat) (w : Word) :
    tget (y.setGlob j w).globs b 0#64 = if b = j then w else tget y.globs b 0#64 := tget_wset ..
@[simp] theorem Core.ctx_setRam (k : Core) (e x : Nat) (w : Word) : (k.setRam e w).ctx x = k.ctx x := rfl
@[simp] theorem State.readDst_none (s : State) (c x : Nat) : s.readDst c x .none = 0 := rfl
@[simp] theorem State.writeDst_none (s : State) (c x : Nat) (w : Word) : s.writeDst c x .none w = s := rfl
/-- A register's storage after a write of a register's storage in the same context. -/
@[simp] theorem State.readDst_writeDst (s : State) (c x : Nat) (d e : RegDst) (w : Word) :
    (s.writeDst c x d w).readDst c x e = if e = d ∧ d ≠ .none then w else s.readDst c x e := by
  cases d <;> cases e <;> simp [State.writeDst, State.readDst, State.ctx]

end Sys2Proof.Machine
end

