-- ==== Sys2Proof/Laws/Home.lean ====
section
/-! SUPPORT. What the shared operations of a home, of an instruction that waits, and of the fabric's cabling can do: one lemma for each. -/

namespace Sys2Proof.Machine

/-! ### Values read at issue (Machine/Ops.lean) -/

/-- An instruction that has kept values goes on with them, and any other keeps what it reads now. -/
theorem keepM_eq (f : State → List Nat) (s : State) :
    (∃ l, s.me.keptNow = some l ∧ keepM f s = .ok (l, s)) ∨
      (s.me.keptNow = none ∧ keepM f s = .ok (f s, s.modMe fun y => { y with kept := some (y.seq, y.pc, f s) })) := by
  unfold keepM
  cases h : s.me.keptNow with
  | none => exact .inr ⟨rfl, rfl⟩
  | some l => exact .inl ⟨l, rfl, rfl⟩
/-- What an instruction keeps is there while it waits at its place. -/
@[simp] theorem Ctx.keptNow_kept (y : Ctx) (l : List Nat) : ({ y with kept := some (y.seq, y.pc, l) } : Ctx).keptNow = some l := by
  simp [Ctx.keptNow]
/-- An instruction that completes leaves nothing kept for the next. -/
@[simp] theorem Ctx.keptNow_advance (y : Ctx) : y.advance.keptNow = none := rfl

/-! ### Agents that wait at a home (Machine/Vc.lean) -/

/-- Waiting at a home changes the queue there and nothing else. -/
theorem State.waitAt_home (s : State) (w : Writer) (vcid u : Nat) (excl : Bool) :
    (s.waitAt w vcid u excl).cores = s.cores ∧ (s.waitAt w vcid u excl).hbm = s.hbm ∧ (s.waitAt w vcid u excl).net = s.net ∧
      (s.waitAt w vcid u excl).vlines = s.vlines := by
  unfold State.waitAt
  split <;> exact ⟨rfl, rfl, rfl, rfl⟩
/-- So does leaving that queue. -/
theorem State.unwait_home (s : State) (w : Writer) (vcid u : Nat) :
    (s.unwait w vcid u).cores = s.cores ∧ (s.unwait w vcid u).hbm = s.hbm ∧ (s.unwait w vcid u).net = s.net ∧
      (s.unwait w vcid u).vlines = s.vlines := by
  unfold State.unwait
  split <;> exact ⟨rfl, rfl, rfl, rfl⟩

/-! ### The cabling of the fabric (18 R372) -/

/-- The far end of a port's link is a port of another device, whose far end is the port; global link 511 of a group has none. -/
theorem far_far (me p : Nat) (hm : me < 2 ^ 14) (hp : p < 47) (hl : 16 * (me % 32) + (p - 31) < 511) :
    farPort me p < 47 ∧ farDevice me p ≠ me ∧ farDevice (farDevice me p) (farPort me p) = me ∧
      farPort (farDevice me p) (farPort me p) = p := by
  unfold farPort farDevice
  by_cases h : p < 31
  · have h' : 30 - p < 31 := by omega
    simp only [h, h', if_true]
    omega
  · have h' : ¬ 31 + (510 - (16 * (me % 32) + (p - 31))) % 16 < 31 := by omega
    simp only [h, h', if_false]
    generalize hj : 16 * (me % 32) + (p - 31) = j at *
    have e1 : (32 * ((me / 32 + j + 1) % 512) + (510 - j) / 16) % 32 = (510 - j) / 16 := by omega
    have e2 : (32 * ((me / 32 + j + 1) % 512) + (510 - j) / 16) / 32 = (me / 32 + j + 1) % 512 := by omega
    have e3 : 16 * ((510 - j) / 16) + (31 + (510 - j) % 16 - 31) = 510 - j := by omega
    have e4 : 510 - (510 - j) = j := by omega
    have e5 : ((me / 32 + j + 1) % 512 + (510 - j) + 1) % 512 = me / 32 := by omega
    have e6 : j / 16 = me % 32 ∧ j % 16 = p - 31 := by omega
    refine ⟨by omega, fun e => ?_, ?_, ?_⟩
    · have : (me / 32 + j + 1) % 512 = me / 32 := by rw [← e2, e]
      omega
    · rw [e1, e2, e3, e4, e5, e6.1]; omega
    · rw [e1, e3, e4, e6.2]; omega
/-- The minimal route's port to a device that a local port leads to is that port. -/
theorem minimalPort_local (me p : Nat) (hp : p < 31) : minimalPort me (farDevice me p) = p := by
  unfold farDevice minimalPort
  simp only [hp, if_true]
  split <;> omega

end Sys2Proof.Machine
end

