-- ==== Sys2Proof/Laws/PerInstr.lean ====
section
/-! SUPPORT. The family RoundTrip: decoding an encoded instruction gives it back, one lemma for each constructor. -/

namespace Sys2Proof.Laws.RoundTrip

/-- A well-formed instruction that has an encoding decodes from its word. -/
def Statement (i : Instr) : Prop := i.wf = true → i.encoded = true → decode (encodeWord i) = .ok i

/-! Segments that hold more than one field. -/

theorem seg1 (v0 : BitVec 15) : ((v0.extractLsb' 10 5 : BitVec 5) ++ (v0.extractLsb' 0 10 : BitVec 10)) = v0 := by
  apply BitVec.eq_of_getLsbD_eq
  intro i hi
  simp only [BitVec.getLsbD_append, BitVec.getLsbD_extractLsb']
  repeat' split
  all_goals first
    | (exfalso; omega)
    | (repeat rw [decide_eq_true (by omega), Bool.true_and]
       congr 1; omega)
theorem seg2 (v0 : BitVec 6) (c1 : BitVec 4) : ((c1 ++ v0 : BitVec 10).extractLsb' 0 6) = v0 := by
  apply BitVec.eq_of_getLsbD_eq
  intro i hi
  simp only [BitVec.getLsbD_append, BitVec.getLsbD_extractLsb']
  repeat' split
  all_goals first
    | (exfalso; omega)
    | (repeat rw [decide_eq_true (by omega), Bool.true_and]
       congr 1; omega)
theorem seg3 (v0 : BitVec 20) : ((v0.extractLsb' 15 5 : BitVec 5) ++ (v0.extractLsb' 10 5 : BitVec 5) ++ (v0.extractLsb' 0 10 : BitVec 10)) = v0 := by
  apply BitVec.eq_of_getLsbD_eq
  intro i hi
  simp only [BitVec.getLsbD_append, BitVec.getLsbD_extractLsb']
  repeat' split
  all_goals first
    | (exfalso; omega)
    | (repeat rw [decide_eq_true (by omega), Bool.true_and]
       congr 1; omega)
theorem seg4 (v0 : BitVec 14) (c1 : BitVec 1) : ((v0.extractLsb' 9 5 : BitVec 5) ++ (c1 ++ v0.extractLsb' 0 9 : BitVec 10).extractLsb' 0 9) = v0 := by
  apply BitVec.eq_of_getLsbD_eq
  intro i hi
  simp only [BitVec.getLsbD_append, BitVec.getLsbD_extractLsb']
  repeat' split
  all_goals first
    | (exfalso; omega)
    | (repeat rw [decide_eq_true (by omega), Bool.true_and]
       congr 1; omega)
theorem seg5 (v0 : BitVec 25) : ((v0.extractLsb' 20 5 : BitVec 5) ++ (v0.extractLsb' 15 5 : BitVec 5) ++ (v0.extractLsb' 10 5 : BitVec 5) ++ (v0.extractLsb' 0 10 : BitVec 10)) = v0 := by
  apply BitVec.eq_of_getLsbD_eq
  intro i hi
  simp only [BitVec.getLsbD_append, BitVec.getLsbD_extractLsb']
  repeat' split
  all_goals first
    | (exfalso; omega)
    | (repeat rw [decide_eq_true (by omega), Bool.true_and]
       congr 1; omega)
theorem seg6 (v0 : BitVec 24) (c1 : BitVec 1) : ((c1 ++ v0.extractLsb' 20 4 : BitVec 5).extractLsb' 0 4 ++ (v0.extractLsb' 15 5 : BitVec 5) ++ (v0.extractLsb' 10 5 : BitVec 5) ++ (v0.extractLsb' 0 10 : BitVec 10)) = v0 := by
  apply BitVec.eq_of_getLsbD_eq
  intro i hi
  simp only [BitVec.getLsbD_append, BitVec.getLsbD_extractLsb']
  repeat' split
  all_goals first
    | (exfalso; omega)
    | (repeat rw [decide_eq_true (by omega), Bool.true_and]
       congr 1; omega)
theorem seg7 (v0 : BitVec 4) (c1 : BitVec 1) : ((c1 ++ v0 : BitVec 5).extractLsb' 0 4) = v0 := by
  apply BitVec.eq_of_getLsbD_eq
  intro i hi
  simp only [BitVec.getLsbD_append, BitVec.getLsbD_extractLsb']
  repeat' split
  all_goals first
    | (exfalso; omega)
    | (repeat rw [decide_eq_true (by omega), Bool.true_and]
       congr 1; omega)
theorem seg8 (v0 : BitVec 3) (v1 : BitVec 12) : ((v0 ++ v1.extractLsb' 10 2 : BitVec 5).extractLsb' 2 3) = v0 := by
  apply BitVec.eq_of_getLsbD_eq
  intro i hi
  simp only [BitVec.getLsbD_append, BitVec.getLsbD_extractLsb']
  repeat' split
  all_goals first
    | (exfalso; omega)
    | (repeat rw [decide_eq_true (by omega), Bool.true_and]
       congr 1; omega)
theorem seg9 (v0 : BitVec 3) (v1 : BitVec 12) : ((v0 ++ v1.extractLsb' 10 2 : BitVec 5).extractLsb' 0 2 ++ (v1.extractLsb' 0 10 : BitVec 10)) = v1 := by
  apply BitVec.eq_of_getLsbD_eq
  intro i hi
  simp only [BitVec.getLsbD_append, BitVec.getLsbD_extractLsb']
  repeat' split
  all_goals first
    | (exfalso; omega)
    | (repeat rw [decide_eq_true (by omega), Bool.true_and]
       congr 1; omega)
theorem seg10 (v0 : BitVec 12) (c1 : BitVec 3) : ((c1 ++ v0.extractLsb' 10 2 : BitVec 5).extractLsb' 0 2 ++ (v0.extractLsb' 0 10 : BitVec 10)) = v0 := by
  apply BitVec.eq_of_getLsbD_eq
  intro i hi
  simp only [BitVec.getLsbD_append, BitVec.getLsbD_extractLsb']
  repeat' split
  all_goals first
    | (exfalso; omega)
    | (repeat rw [decide_eq_true (by omega), Bool.true_and]
       congr 1; omega)
theorem seg11 (v0 : BitVec 6) (v1 : BitVec 2) (c1 : BitVec 2) : ((v0 ++ v1 ++ c1 : BitVec 10).extractLsb' 4 6) = v0 := by
  apply BitVec.eq_of_getLsbD_eq
  intro i hi
  simp only [BitVec.getLsbD_append, BitVec.getLsbD_extractLsb']
  repeat' split
  all_goals first
    | (exfalso; omega)
    | (repeat rw [decide_eq_true (by omega), Bool.true_and]
       congr 1; omega)
theorem seg12 (v0 : BitVec 6) (v1 : BitVec 2) (c1 : BitVec 2) : ((v0 ++ v1 ++ c1 : BitVec 10).extractLsb' 2 2) = v1 := by
  apply BitVec.eq_of_getLsbD_eq
  intro i hi
  simp only [BitVec.getLsbD_append, BitVec.getLsbD_extractLsb']
  repeat' split
  all_goals first
    | (exfalso; omega)
    | (repeat rw [decide_eq_true (by omega), Bool.true_and]
       congr 1; omega)
theorem seg13 (v0 : BitVec 1) (v1 : BitVec 2) (c1 : BitVec 7) : ((c1 ++ v0 ++ v1 : BitVec 10).extractLsb' 2 1) = v0 := by
  apply BitVec.eq_of_getLsbD_eq
  intro i hi
  simp only [BitVec.getLsbD_append, BitVec.getLsbD_extractLsb']
  repeat' split
  all_goals first
    | (exfalso; omega)
    | (repeat rw [decide_eq_true (by omega), Bool.true_and]
       congr 1; omega)
theorem seg14 (v0 : BitVec 1) (v1 : BitVec 2) (c1 : BitVec 7) : ((c1 ++ v0 ++ v1 : BitVec 10).extractLsb' 0 2) = v1 := by
  apply BitVec.eq_of_getLsbD_eq
  intro i hi
  simp only [BitVec.getLsbD_append, BitVec.getLsbD_extractLsb']
  repeat' split
  all_goals first
    | (exfalso; omega)
    | (repeat rw [decide_eq_true (by omega), Bool.true_and]
       congr 1; omega)
theorem seg15 (v0 : BitVec 2) (c1 : BitVec 8) : ((c1 ++ v0 : BitVec 10).extractLsb' 0 2) = v0 := by
  apply BitVec.eq_of_getLsbD_eq
  intro i hi
  simp only [BitVec.getLsbD_append, BitVec.getLsbD_extractLsb']
  repeat' split
  all_goals first
    | (exfalso; omega)
    | (repeat rw [decide_eq_true (by omega), Bool.true_and]
       congr 1; omega)
theorem seg16 (v0 : BitVec 3) (v1 : BitVec 3) (c1 : BitVec 2) (c2 : BitVec 2) : ((c1 ++ v0 ++ v1 ++ c2 : BitVec 10).extractLsb' 5 3) = v0 := by
  apply BitVec.eq_of_getLsbD_eq
  intro i hi
  simp only [BitVec.getLsbD_append, BitVec.getLsbD_extractLsb']
  repeat' split
  all_goals first
    | (exfalso; omega)
    | (repeat rw [decide_eq_true (by omega), Bool.true_and]
       congr 1; omega)
theorem seg17 (v0 : BitVec 3) (v1 : BitVec 3) (c1 : BitVec 2) (c2 : BitVec 2) : ((c1 ++ v0 ++ v1 ++ c2 : BitVec 10).extractLsb' 2 3) = v1 := by
  apply BitVec.eq_of_getLsbD_eq
  intro i hi
  simp only [BitVec.getLsbD_append, BitVec.getLsbD_extractLsb']
  repeat' split
  all_goals first
    | (exfalso; omega)
    | (repeat rw [decide_eq_true (by omega), Bool.true_and]
       congr 1; omega)
theorem seg18 (v0 : BitVec 2) (v1 : BitVec 12) (c1 : BitVec 1) : ((c1 ++ v0 ++ v1.extractLsb' 10 2 : BitVec 5).extractLsb' 2 2) = v0 := by
  apply BitVec.eq_of_getLsbD_eq
  intro i hi
  simp only [BitVec.getLsbD_append, BitVec.getLsbD_extractLsb']
  repeat' split
  all_goals first
    | (exfalso; omega)
    | (repeat rw [decide_eq_true (by omega), Bool.true_and]
       congr 1; omega)
theorem seg19 (v0 : BitVec 2) (v1 : BitVec 12) (c1 : BitVec 1) : ((c1 ++ v0 ++ v1.extractLsb' 10 2 : BitVec 5).extractLsb' 0 2 ++ (v1.extractLsb' 0 10 : BitVec 10)) = v1 := by
  apply BitVec.eq_of_getLsbD_eq
  intro i hi
  simp only [BitVec.getLsbD_append, BitVec.getLsbD_extractLsb']
  repeat' split
  all_goals first
    | (exfalso; omega)
    | (repeat rw [decide_eq_true (by omega), Bool.true_and]
       congr 1; omega)
theorem seg20 (v0 : BitVec 2) (v1 : BitVec 3) (c1 : BitVec 5) : ((v0 ++ v1 ++ c1 : BitVec 10).extractLsb' 8 2) = v0 := by
  apply BitVec.eq_of_getLsbD_eq
  intro i hi
  simp only [BitVec.getLsbD_append, BitVec.getLsbD_extractLsb']
  repeat' split
  all_goals first
    | (exfalso; omega)
    | (repeat rw [decide_eq_true (by omega), Bool.true_and]
       congr 1; omega)
theorem seg21 (v0 : BitVec 2) (v1 : BitVec 3) (c1 : BitVec 5) : ((v0 ++ v1 ++ c1 : BitVec 10).extractLsb' 5 3) = v1 := by
  apply BitVec.eq_of_getLsbD_eq
  intro i hi
  simp only [BitVec.getLsbD_append, BitVec.getLsbD_extractLsb']
  repeat' split
  all_goals first
    | (exfalso; omega)
    | (repeat rw [decide_eq_true (by omega), Bool.true_and]
       congr 1; omega)
theorem seg22 (v0 : BitVec 3) (c1 : BitVec 2) : ((c1 ++ v0 : BitVec 5).extractLsb' 0 3) = v0 := by
  apply BitVec.eq_of_getLsbD_eq
  intro i hi
  simp only [BitVec.getLsbD_append, BitVec.getLsbD_extractLsb']
  repeat' split
  all_goals first
    | (exfalso; omega)
    | (repeat rw [decide_eq_true (by omega), Bool.true_and]
       congr 1; omega)
theorem seg23 (v0 : BitVec 2) (c1 : BitVec 8) : ((v0 ++ c1 : BitVec 10).extractLsb' 8 2) = v0 := by
  apply BitVec.eq_of_getLsbD_eq
  intro i hi
  simp only [BitVec.getLsbD_append, BitVec.getLsbD_extractLsb']
  repeat' split
  all_goals first
    | (exfalso; omega)
    | (repeat rw [decide_eq_true (by omega), Bool.true_and]
       congr 1; omega)
theorem seg24 (v0 : BitVec 1) (c1 : BitVec 9) : ((c1 ++ v0 : BitVec 10).extractLsb' 0 1) = v0 := by
  apply BitVec.eq_of_getLsbD_eq
  intro i hi
  simp only [BitVec.getLsbD_append, BitVec.getLsbD_extractLsb']
  repeat' split
  all_goals first
    | (exfalso; omega)
    | (repeat rw [decide_eq_true (by omega), Bool.true_and]
       congr 1; omega)
theorem seg25 (v0 : BitVec 8) (c1 : BitVec 2) : ((c1 ++ v0 : BitVec 10).extractLsb' 0 8) = v0 := by
  apply BitVec.eq_of_getLsbD_eq
  intro i hi
  simp only [BitVec.getLsbD_append, BitVec.getLsbD_extractLsb']
  repeat' split
  all_goals first
    | (exfalso; omega)
    | (repeat rw [decide_eq_true (by omega), Bool.true_and]
       congr 1; omega)
theorem seg26 (v0 : BitVec 4) (c1 : BitVec 6) : ((v0 ++ c1 : BitVec 10).extractLsb' 6 4) = v0 := by
  apply BitVec.eq_of_getLsbD_eq
  intro i hi
  simp only [BitVec.getLsbD_append, BitVec.getLsbD_extractLsb']
  repeat' split
  all_goals first
    | (exfalso; omega)
    | (repeat rw [decide_eq_true (by omega), Bool.true_and]
       congr 1; omega)
theorem seg27 (v0 : BitVec 2) (v1 : BitVec 2) (c1 : BitVec 2) (c2 : BitVec 4) : ((c1 ++ v0 ++ v1 ++ c2 : BitVec 10).extractLsb' 6 2) = v0 := by
  apply BitVec.eq_of_getLsbD_eq
  intro i hi
  simp only [BitVec.getLsbD_append, BitVec.getLsbD_extractLsb']
  repeat' split
  all_goals first
    | (exfalso; omega)
    | (repeat rw [decide_eq_true (by omega), Bool.true_and]
       congr 1; omega)
theorem seg28 (v0 : BitVec 2) (v1 : BitVec 2) (c1 : BitVec 2) (c2 : BitVec 4) : ((c1 ++ v0 ++ v1 ++ c2 : BitVec 10).extractLsb' 4 2) = v1 := by
  apply BitVec.eq_of_getLsbD_eq
  intro i hi
  simp only [BitVec.getLsbD_append, BitVec.getLsbD_extractLsb']
  repeat' split
  all_goals first
    | (exfalso; omega)
    | (repeat rw [decide_eq_true (by omega), Bool.true_and]
       congr 1; omega)
theorem seg29 (v0 : BitVec 2) (c1 : BitVec 2) (c2 : BitVec 6) : ((c1 ++ v0 ++ c2 : BitVec 10).extractLsb' 6 2) = v0 := by
  apply BitVec.eq_of_getLsbD_eq
  intro i hi
  simp only [BitVec.getLsbD_append, BitVec.getLsbD_extractLsb']
  repeat' split
  all_goals first
    | (exfalso; omega)
    | (repeat rw [decide_eq_true (by omega), Bool.true_and]
       congr 1; omega)

theorem segT (r : BitVec 2) (k : BitVec 3) (c : BitVec 5) : ((r ++ k ++ c : BitVec 10).extractLsb' 0 5) = c := by
  apply BitVec.eq_of_getLsbD_eq
  intro i hi
  simp only [BitVec.getLsbD_append, BitVec.getLsbD_extractLsb']
  rw [if_pos (by omega), decide_eq_true (by omega), Bool.true_and]
  congr 1; omega

theorem credSel (t o : BitVec 2) : (0#2 ++ t ++ o ++ 0#4) &&& 783#10 = 0#10 := by decide +revert
theorem cmaxbSel (t : BitVec 2) : (0#2 ++ t ++ 1#6) &&& 831#10 = 1#10 := by decide +revert

/-! Major 0x2B: the format pair chooses the mnemonic (03 R74). -/

theorem build_vcvt (m : Bool) (d a g : BitVec 5) (r : BitVec 2) (k : BitVec 3) (c : BitVec 5)
    (h : (Instr.vcvt m d a g r k c).wf = true) :
    buildConversion ⟨m, 43#6, d, a, g, r ++ k ++ c⟩ = .vcvt m d a g r k c := by
  simp only [Instr.wf, vcvtPair, Bool.and_eq_true, decide_eq_true_eq] at h
  simp only [buildConversion]
  rw [if_neg (by omega), segT, seg20, seg21, if_neg (by omega)]
theorem build_vquant (m : Bool) (d a g : BitVec 5) (r : BitVec 2) (k : BitVec 3) (c : BitVec 5)
    (h : (Instr.vquant m d a g r k c).wf = true) :
    buildConversion ⟨m, 43#6, d, a, g, r ++ k ++ c⟩ = .vquant m d a g r k c := by
  simp only [Instr.wf, vquantPair, Bool.and_eq_true, decide_eq_true_eq] at h
  simp only [buildConversion]
  rw [if_pos (by omega), segT, seg20, seg21]
theorem build_vdequant (m : Bool) (d a g : BitVec 5) (r : BitVec 2) (k : BitVec 3) (c : BitVec 5)
    (h : (Instr.vdequant m d a g r k c).wf = true) :
    buildConversion ⟨m, 43#6, d, a, g, r ++ k ++ c⟩ = .vdequant m d a g r k c := by
  simp only [Instr.wf, vdequantPair, Bool.and_eq_true, decide_eq_true_eq] at h
  simp only [buildConversion]
  rw [if_neg (by omega), segT, seg20, seg21, if_pos (by omega)]

theorem add (m : Bool) (d : BitVec 5) (a : BitVec 5) (b : BitVec 5) : Statement (.add m d a b) := fun hw _ =>
  decode_encodeWord rfl (mem_rowsScalar1 0 rfl) (Row.selects_of rfl BitVec.and_zero BitVec.and_zero BitVec.and_zero (show 0#10 &&& 1023#10 = 0#10 by decide)) rfl hw
theorem sub (m : Bool) (d : BitVec 5) (a : BitVec 5) (b : BitVec 5) : Statement (.sub m d a b) := fun hw _ =>
  decode_encodeWord rfl (mem_rowsScalar1 1 rfl) (Row.selects_of rfl BitVec.and_zero BitVec.and_zero BitVec.and_zero (show 1#10 &&& 1023#10 = 1#10 by decide)) rfl hw
theorem and (m : Bool) (d : BitVec 5) (a : BitVec 5) (b : BitVec 5) : Statement (.and m d a b) := fun hw _ =>
  decode_encodeWord rfl (mem_rowsScalar1 2 rfl) (Row.selects_of rfl BitVec.and_zero BitVec.and_zero BitVec.and_zero (show 2#10 &&& 1023#10 = 2#10 by decide)) rfl hw
theorem or (m : Bool) (d : BitVec 5) (a : BitVec 5) (b : BitVec 5) : Statement (.or m d a b) := fun hw _ =>
  decode_encodeWord rfl (mem_rowsScalar1 3 rfl) (Row.selects_of rfl BitVec.and_zero BitVec.and_zero BitVec.and_zero (show 3#10 &&& 1023#10 = 3#10 by decide)) rfl hw
theorem xor (m : Bool) (d : BitVec 5) (a : BitVec 5) (b : BitVec 5) : Statement (.xor m d a b) := fun hw _ =>
  decode_encodeWord rfl (mem_rowsScalar1 4 rfl) (Row.selects_of rfl BitVec.and_zero BitVec.and_zero BitVec.and_zero (show 4#10 &&& 1023#10 = 4#10 by decide)) rfl hw
theorem andn (m : Bool) (d : BitVec 5) (a : BitVec 5) (b : BitVec 5) : Statement (.andn m d a b) := fun hw _ =>
  decode_encodeWord rfl (mem_rowsScalar1 5 rfl) (Row.selects_of rfl BitVec.and_zero BitVec.and_zero BitVec.and_zero (show 5#10 &&& 1023#10 = 5#10 by decide)) rfl hw
theorem orn (m : Bool) (d : BitVec 5) (a : BitVec 5) (b : BitVec 5) : Statement (.orn m d a b) := fun hw _ =>
  decode_encodeWord rfl (mem_rowsScalar1 6 rfl) (Row.selects_of rfl BitVec.and_zero BitVec.and_zero BitVec.and_zero (show 6#10 &&& 1023#10 = 6#10 by decide)) rfl hw
theorem sll (m : Bool) (d : BitVec 5) (a : BitVec 5) (b : BitVec 5) : Statement (.sll m d a b) := fun hw _ =>
  decode_encodeWord rfl (mem_rowsScalar1 7 rfl) (Row.selects_of rfl BitVec.and_zero BitVec.and_zero BitVec.and_zero (show 7#10 &&& 1023#10 = 7#10 by decide)) rfl hw
theorem srl (m : Bool) (d : BitVec 5) (a : BitVec 5) (b : BitVec 5) : Statement (.srl m d a b) := fun hw _ =>
  decode_encodeWord rfl (mem_rowsScalar1 8 rfl) (Row.selects_of rfl BitVec.and_zero BitVec.and_zero BitVec.and_zero (show 8#10 &&& 1023#10 = 8#10 by decide)) rfl hw
theorem sra (m : Bool) (d : BitVec 5) (a : BitVec 5) (b : BitVec 5) : Statement (.sra m d a b) := fun hw _ =>
  decode_encodeWord rfl (mem_rowsScalar1 9 rfl) (Row.selects_of rfl BitVec.and_zero BitVec.and_zero BitVec.and_zero (show 9#10 &&& 1023#10 = 9#10 by decide)) rfl hw
theorem rol (m : Bool) (d : BitVec 5) (a : BitVec 5) (b : BitVec 5) : Statement (.rol m d a b) := fun hw _ =>
  decode_encodeWord rfl (mem_rowsScalar1 10 rfl) (Row.selects_of rfl BitVec.and_zero BitVec.and_zero BitVec.and_zero (show 10#10 &&& 1023#10 = 10#10 by decide)) rfl hw
theorem ror (m : Bool) (d : BitVec 5) (a : BitVec 5) (b : BitVec 5) : Statement (.ror m d a b) := fun hw _ =>
  decode_encodeWord rfl (mem_rowsScalar1 11 rfl) (Row.selects_of rfl BitVec.and_zero BitVec.and_zero BitVec.and_zero (show 11#10 &&& 1023#10 = 11#10 by decide)) rfl hw
theorem slt (m : Bool) (d : BitVec 5) (a : BitVec 5) (b : BitVec 5) : Statement (.slt m d a b) := fun hw _ =>
  decode_encodeWord rfl (mem_rowsScalar1 12 rfl) (Row.selects_of rfl BitVec.and_zero BitVec.and_zero BitVec.and_zero (show 12#10 &&& 1023#10 = 12#10 by decide)) rfl hw
theorem sltu (m : Bool) (d : BitVec 5) (a : BitVec 5) (b : BitVec 5) : Statement (.sltu m d a b) := fun hw _ =>
  decode_encodeWord rfl (mem_rowsScalar1 13 rfl) (Row.selects_of rfl BitVec.and_zero BitVec.and_zero BitVec.and_zero (show 13#10 &&& 1023#10 = 13#10 by decide)) rfl hw
theorem min (m : Bool) (d : BitVec 5) (a : BitVec 5) (b : BitVec 5) : Statement (.min m d a b) := fun hw _ =>
  decode_encodeWord rfl (mem_rowsScalar1 14 rfl) (Row.selects_of rfl BitVec.and_zero BitVec.and_zero BitVec.and_zero (show 14#10 &&& 1023#10 = 14#10 by decide)) rfl hw
theorem max (m : Bool) (d : BitVec 5) (a : BitVec 5) (b : BitVec 5) : Statement (.max m d a b) := fun hw _ =>
  decode_encodeWord rfl (mem_rowsScalar1 15 rfl) (Row.selects_of rfl BitVec.and_zero BitVec.and_zero BitVec.and_zero (show 15#10 &&& 1023#10 = 15#10 by decide)) rfl hw
theorem minu (m : Bool) (d : BitVec 5) (a : BitVec 5) (b : BitVec 5) : Statement (.minu m d a b) := fun hw _ =>
  decode_encodeWord rfl (mem_rowsScalar1 16 rfl) (Row.selects_of rfl BitVec.and_zero BitVec.and_zero BitVec.and_zero (show 16#10 &&& 1023#10 = 16#10 by decide)) rfl hw
theorem maxu (m : Bool) (d : BitVec 5) (a : BitVec 5) (b : BitVec 5) : Statement (.maxu m d a b) := fun hw _ =>
  decode_encodeWord rfl (mem_rowsScalar1 17 rfl) (Row.selects_of rfl BitVec.and_zero BitVec.and_zero BitVec.and_zero (show 17#10 &&& 1023#10 = 17#10 by decide)) rfl hw
theorem clz (m : Bool) (d : BitVec 5) (a : BitVec 5) : Statement (.clz m d a) := fun hw _ =>
  decode_encodeWord rfl (mem_rowsScalar1 18 rfl) (Row.selects_of rfl BitVec.and_zero BitVec.and_zero (show 0#5 &&& 31#5 = 0#5 by decide) (show 32#10 &&& 1023#10 = 32#10 by decide)) rfl hw
theorem ctz (m : Bool) (d : BitVec 5) (a : BitVec 5) : Statement (.ctz m d a) := fun hw _ =>
  decode_encodeWord rfl (mem_rowsScalar1 19 rfl) (Row.selects_of rfl BitVec.and_zero BitVec.and_zero (show 0#5 &&& 31#5 = 0#5 by decide) (show 33#10 &&& 1023#10 = 33#10 by decide)) rfl hw
theorem popc (m : Bool) (d : BitVec 5) (a : BitVec 5) : Statement (.popc m d a) := fun hw _ =>
  decode_encodeWord rfl (mem_rowsScalar2 0 rfl) (Row.selects_of rfl BitVec.and_zero BitVec.and_zero (show 0#5 &&& 31#5 = 0#5 by decide) (show 34#10 &&& 1023#10 = 34#10 by decide)) rfl hw
theorem bswap (m : Bool) (d : BitVec 5) (a : BitVec 5) : Statement (.bswap m d a) := fun hw _ =>
  decode_encodeWord rfl (mem_rowsScalar2 1 rfl) (Row.selects_of rfl BitVec.and_zero BitVec.and_zero (show 0#5 &&& 31#5 = 0#5 by decide) (show 35#10 &&& 1023#10 = 35#10 by decide)) rfl hw
theorem sextB (m : Bool) (d : BitVec 5) (a : BitVec 5) : Statement (.sextB m d a) := fun hw _ =>
  decode_encodeWord rfl (mem_rowsScalar2 2 rfl) (Row.selects_of rfl BitVec.and_zero BitVec.and_zero (show 0#5 &&& 31#5 = 0#5 by decide) (show 36#10 &&& 1023#10 = 36#10 by decide)) rfl hw
theorem sextH (m : Bool) (d : BitVec 5) (a : BitVec 5) : Statement (.sextH m d a) := fun hw _ =>
  decode_encodeWord rfl (mem_rowsScalar2 3 rfl) (Row.selects_of rfl BitVec.and_zero BitVec.and_zero (show 0#5 &&& 31#5 = 0#5 by decide) (show 37#10 &&& 1023#10 = 37#10 by decide)) rfl hw
theorem sextW (m : Bool) (d : BitVec 5) (a : BitVec 5) : Statement (.sextW m d a) := fun hw _ =>
  decode_encodeWord rfl (mem_rowsScalar2 4 rfl) (Row.selects_of rfl BitVec.and_zero BitVec.and_zero (show 0#5 &&& 31#5 = 0#5 by decide) (show 38#10 &&& 1023#10 = 38#10 by decide)) rfl hw
theorem zextB (m : Bool) (d : BitVec 5) (a : BitVec 5) : Statement (.zextB m d a) := fun hw _ =>
  decode_encodeWord rfl (mem_rowsScalar2 5 rfl) (Row.selects_of rfl BitVec.and_zero BitVec.and_zero (show 0#5 &&& 31#5 = 0#5 by decide) (show 39#10 &&& 1023#10 = 39#10 by decide)) rfl hw
theorem zextH (m : Bool) (d : BitVec 5) (a : BitVec 5) : Statement (.zextH m d a) := fun hw _ =>
  decode_encodeWord rfl (mem_rowsScalar2 6 rfl) (Row.selects_of rfl BitVec.and_zero BitVec.and_zero (show 0#5 &&& 31#5 = 0#5 by decide) (show 40#10 &&& 1023#10 = 40#10 by decide)) rfl hw
theorem zextW (m : Bool) (d : BitVec 5) (a : BitVec 5) : Statement (.zextW m d a) := fun hw _ =>
  decode_encodeWord rfl (mem_rowsScalar2 7 rfl) (Row.selects_of rfl BitVec.and_zero BitVec.and_zero (show 0#5 &&& 31#5 = 0#5 by decide) (show 41#10 &&& 1023#10 = 41#10 by decide)) rfl hw
theorem addi (m : Bool) (d : BitVec 5) (a : BitVec 5) (i : BitVec 15) : Statement (.addi m d a i) := fun hw _ =>
  decode_encodeWord rfl (mem_rowsScalar2 8 rfl) (Row.selects_of rfl BitVec.and_zero BitVec.and_zero BitVec.and_zero BitVec.and_zero) (congrArg (Instr.addi m d a) (seg1 i)) hw
theorem andi (m : Bool) (d : BitVec 5) (a : BitVec 5) (i : BitVec 15) : Statement (.andi m d a i) := fun hw _ =>
  decode_encodeWord rfl (mem_rowsScalar2 9 rfl) (Row.selects_of rfl BitVec.and_zero BitVec.and_zero BitVec.and_zero BitVec.and_zero) (congrArg (Instr.andi m d a) (seg1 i)) hw
theorem ori (m : Bool) (d : BitVec 5) (a : BitVec 5) (i : BitVec 15) : Statement (.ori m d a i) := fun hw _ =>
  decode_encodeWord rfl (mem_rowsScalar2 10 rfl) (Row.selects_of rfl BitVec.and_zero BitVec.and_zero BitVec.and_zero BitVec.and_zero) (congrArg (Instr.ori m d a) (seg1 i)) hw
theorem xori (m : Bool) (d : BitVec 5) (a : BitVec 5) (i : BitVec 15) : Statement (.xori m d a i) := fun hw _ =>
  decode_encodeWord rfl (mem_rowsScalar2 11 rfl) (Row.selects_of rfl BitVec.and_zero BitVec.and_zero BitVec.and_zero BitVec.and_zero) (congrArg (Instr.xori m d a) (seg1 i)) hw
theorem slti (m : Bool) (d : BitVec 5) (a : BitVec 5) (i : BitVec 15) : Statement (.slti m d a i) := fun hw _ =>
  decode_encodeWord rfl (mem_rowsScalar2 12 rfl) (Row.selects_of rfl BitVec.and_zero BitVec.and_zero BitVec.and_zero BitVec.and_zero) (congrArg (Instr.slti m d a) (seg1 i)) hw
theorem sltiu (m : Bool) (d : BitVec 5) (a : BitVec 5) (i : BitVec 15) : Statement (.sltiu m d a i) := fun hw _ =>
  decode_encodeWord rfl (mem_rowsScalar2 13 rfl) (Row.selects_of rfl BitVec.and_zero BitVec.and_zero BitVec.and_zero BitVec.and_zero) (congrArg (Instr.sltiu m d a) (seg1 i)) hw
theorem slli (m : Bool) (d : BitVec 5) (a : BitVec 5) (n : BitVec 6) : Statement (.slli m d a n) := fun hw _ =>
  decode_encodeWord rfl (mem_rowsScalar2 14 rfl) (Row.selects_of rfl BitVec.and_zero BitVec.and_zero (show 0#5 &&& 31#5 = 0#5 by decide) (segHi _ _ _ _ rfl rfl)) (congrArg (Instr.slli m d a) (seg2 n _)) hw
theorem srli (m : Bool) (d : BitVec 5) (a : BitVec 5) (n : BitVec 6) : Statement (.srli m d a n) := fun hw _ =>
  decode_encodeWord rfl (mem_rowsScalar2 15 rfl) (Row.selects_of rfl BitVec.and_zero BitVec.and_zero (show 0#5 &&& 31#5 = 0#5 by decide) (segHi _ _ _ _ rfl rfl)) (congrArg (Instr.srli m d a) (seg2 n _)) hw
theorem srai (m : Bool) (d : BitVec 5) (a : BitVec 5) (n : BitVec 6) : Statement (.srai m d a n) := fun hw _ =>
  decode_encodeWord rfl (mem_rowsScalar2 16 rfl) (Row.selects_of rfl BitVec.and_zero BitVec.and_zero (show 0#5 &&& 31#5 = 0#5 by decide) (segHi _ _ _ _ rfl rfl)) (congrArg (Instr.srai m d a) (seg2 n _)) hw
theorem lui (m : Bool) (d : BitVec 5) (i : BitVec 20) : Statement (.lui m d i) := fun hw _ =>
  decode_encodeWord rfl (mem_rowsScalar2 17 rfl) (Row.selects_of rfl BitVec.and_zero BitVec.and_zero BitVec.and_zero BitVec.and_zero) (congrArg (Instr.lui m d) (seg3 i)) hw
theorem lua (m : Bool) (d : BitVec 5) (i : BitVec 20) : Statement (.lua m d i) := fun hw _ =>
  decode_encodeWord rfl (mem_rowsScalar2 18 rfl) (Row.selects_of rfl BitVec.and_zero BitVec.and_zero BitVec.and_zero BitVec.and_zero) (congrArg (Instr.lua m d) (seg3 i)) hw
theorem mull (m : Bool) (d : BitVec 5) (a : BitVec 5) (b : BitVec 5) : Statement (.mull m d a b) := fun hw _ =>
  decode_encodeWord rfl (mem_rowsScalar2 19 rfl) (Row.selects_of rfl BitVec.and_zero BitVec.and_zero BitVec.and_zero (show 0#10 &&& 1023#10 = 0#10 by decide)) rfl hw
theorem mulhs (m : Bool) (d : BitVec 5) (a : BitVec 5) (b : BitVec 5) : Statement (.mulhs m d a b) := fun hw _ =>
  decode_encodeWord rfl (mem_rowsScalar3 0 rfl) (Row.selects_of rfl BitVec.and_zero BitVec.and_zero BitVec.and_zero (show 1#10 &&& 1023#10 = 1#10 by decide)) rfl hw
theorem mulhz (m : Bool) (d : BitVec 5) (a : BitVec 5) (b : BitVec 5) : Statement (.mulhz m d a b) := fun hw _ =>
  decode_encodeWord rfl (mem_rowsScalar3 1 rfl) (Row.selects_of rfl BitVec.and_zero BitVec.and_zero BitVec.and_zero (show 2#10 &&& 1023#10 = 2#10 by decide)) rfl hw
theorem mulhsz (m : Bool) (d : BitVec 5) (a : BitVec 5) (b : BitVec 5) : Statement (.mulhsz m d a b) := fun hw _ =>
  decode_encodeWord rfl (mem_rowsScalar3 2 rfl) (Row.selects_of rfl BitVec.and_zero BitVec.and_zero BitVec.and_zero (show 3#10 &&& 1023#10 = 3#10 by decide)) rfl hw
theorem divq (m : Bool) (d : BitVec 5) (a : BitVec 5) (b : BitVec 5) : Statement (.divq m d a b) := fun hw _ =>
  decode_encodeWord rfl (mem_rowsScalar3 3 rfl) (Row.selects_of rfl BitVec.and_zero BitVec.and_zero BitVec.and_zero (show 4#10 &&& 1023#10 = 4#10 by decide)) rfl hw
theorem divqz (m : Bool) (d : BitVec 5) (a : BitVec 5) (b : BitVec 5) : Statement (.divqz m d a b) := fun hw _ =>
  decode_encodeWord rfl (mem_rowsScalar3 4 rfl) (Row.selects_of rfl BitVec.and_zero BitVec.and_zero BitVec.and_zero (show 5#10 &&& 1023#10 = 5#10 by decide)) rfl hw
theorem divr (m : Bool) (d : BitVec 5) (a : BitVec 5) (b : BitVec 5) : Statement (.divr m d a b) := fun hw _ =>
  decode_encodeWord rfl (mem_rowsScalar3 5 rfl) (Row.selects_of rfl BitVec.and_zero BitVec.and_zero BitVec.and_zero (show 6#10 &&& 1023#10 = 6#10 by decide)) rfl hw
theorem divrz (m : Bool) (d : BitVec 5) (a : BitVec 5) (b : BitVec 5) : Statement (.divrz m d a b) := fun hw _ =>
  decode_encodeWord rfl (mem_rowsScalar3 6 rfl) (Row.selects_of rfl BitVec.and_zero BitVec.and_zero BitVec.and_zero (show 7#10 &&& 1023#10 = 7#10 by decide)) rfl hw
theorem divideComplete (core : Nat) : Statement (.divideComplete core) := fun _ h => by cases h
theorem padd (m : Bool) (d : BitVec 5) (a : BitVec 5) (b : BitVec 5) : Statement (.padd m d a b) := fun hw _ =>
  decode_encodeWord rfl (mem_rowsScalar3 7 rfl) (Row.selects_of rfl BitVec.and_zero BitVec.and_zero BitVec.and_zero (show 0#10 &&& 1023#10 = 0#10 by decide)) rfl hw
theorem pfmt (m : Bool) (d : BitVec 5) (a : BitVec 5) (b : BitVec 5) : Statement (.pfmt m d a b) := fun hw _ =>
  decode_encodeWord rfl (mem_rowsScalar3 8 rfl) (Row.selects_of rfl BitVec.and_zero BitVec.and_zero BitVec.and_zero (show 1#10 &&& 1023#10 = 1#10 by decide)) rfl hw
theorem pget (m : Bool) (d : BitVec 5) (a : BitVec 5) : Statement (.pget m d a) := fun hw _ =>
  decode_encodeWord rfl (mem_rowsScalar3 9 rfl) (Row.selects_of rfl BitVec.and_zero BitVec.and_zero (show 0#5 &&& 31#5 = 0#5 by decide) (show 2#10 &&& 1023#10 = 2#10 by decide)) rfl hw
theorem pstrip (m : Bool) (d : BitVec 5) (a : BitVec 5) : Statement (.pstrip m d a) := fun hw _ =>
  decode_encodeWord rfl (mem_rowsScalar3 10 rfl) (Row.selects_of rfl BitVec.and_zero BitVec.and_zero (show 0#5 &&& 31#5 = 0#5 by decide) (show 3#10 &&& 1023#10 = 3#10 by decide)) rfl hw
theorem pidx (m : Bool) (d : BitVec 5) (a : BitVec 5) (b : BitVec 5) : Statement (.pidx m d a b) := fun hw _ =>
  decode_encodeWord rfl (mem_rowsScalar3 11 rfl) (Row.selects_of rfl BitVec.and_zero BitVec.and_zero BitVec.and_zero (show 4#10 &&& 1023#10 = 4#10 by decide)) rfl hw
theorem paddi (m : Bool) (d : BitVec 5) (a : BitVec 5) (i : BitVec 14) : Statement (.paddi m d a i) := fun hw _ =>
  decode_encodeWord rfl (mem_rowsScalar3 12 rfl) (Row.selects_of rfl BitVec.and_zero BitVec.and_zero BitVec.and_zero (segHi _ _ _ _ rfl rfl)) (congrArg (Instr.paddi m d a) (seg4 i _)) hw
theorem beq (m : Bool) (a : BitVec 5) (b : BitVec 5) (o : BitVec 15) : Statement (.beq m a b o) := fun hw _ =>
  decode_encodeWord rfl (mem_rowsControl 0 rfl) (Row.selects_of rfl BitVec.and_zero BitVec.and_zero BitVec.and_zero BitVec.and_zero) (congrArg (Instr.beq m a b) (seg1 o)) hw
theorem bne (m : Bool) (a : BitVec 5) (b : BitVec 5) (o : BitVec 15) : Statement (.bne m a b o) := fun hw _ =>
  decode_encodeWord rfl (mem_rowsControl 1 rfl) (Row.selects_of rfl BitVec.and_zero BitVec.and_zero BitVec.and_zero BitVec.and_zero) (congrArg (Instr.bne m a b) (seg1 o)) hw
theorem blt (m : Bool) (a : BitVec 5) (b : BitVec 5) (o : BitVec 15) : Statement (.blt m a b o) := fun hw _ =>
  decode_encodeWord rfl (mem_rowsControl 2 rfl) (Row.selects_of rfl BitVec.and_zero BitVec.and_zero BitVec.and_zero BitVec.and_zero) (congrArg (Instr.blt m a b) (seg1 o)) hw
theorem bge (m : Bool) (a : BitVec 5) (b : BitVec 5) (o : BitVec 15) : Statement (.bge m a b o) := fun hw _ =>
  decode_encodeWord rfl (mem_rowsControl 3 rfl) (Row.selects_of rfl BitVec.and_zero BitVec.and_zero BitVec.and_zero BitVec.and_zero) (congrArg (Instr.bge m a b) (seg1 o)) hw
theorem bltu (m : Bool) (a : BitVec 5) (b : BitVec 5) (o : BitVec 15) : Statement (.bltu m a b o) := fun hw _ =>
  decode_encodeWord rfl (mem_rowsControl 4 rfl) (Row.selects_of rfl BitVec.and_zero BitVec.and_zero BitVec.and_zero BitVec.and_zero) (congrArg (Instr.bltu m a b) (seg1 o)) hw
theorem bgeu (m : Bool) (a : BitVec 5) (b : BitVec 5) (o : BitVec 15) : Statement (.bgeu m a b o) := fun hw _ =>
  decode_encodeWord rfl (mem_rowsControl 5 rfl) (Row.selects_of rfl BitVec.and_zero BitVec.and_zero BitVec.and_zero BitVec.and_zero) (congrArg (Instr.bgeu m a b) (seg1 o)) hw
theorem j (m : Bool) (o : BitVec 25) : Statement (.j m o) := fun hw _ =>
  decode_encodeWord rfl (mem_rowsControl 6 rfl) (Row.selects_of rfl BitVec.and_zero BitVec.and_zero BitVec.and_zero BitVec.and_zero) (congrArg (Instr.j m) (seg5 o)) hw
theorem jl (m : Bool) (o : BitVec 25) : Statement (.jl m o) := fun hw _ =>
  decode_encodeWord rfl (mem_rowsControl 7 rfl) (Row.selects_of rfl BitVec.and_zero BitVec.and_zero BitVec.and_zero BitVec.and_zero) (congrArg (Instr.jl m) (seg5 o)) hw
theorem jr (m : Bool) (a : BitVec 5) : Statement (.jr m a) := fun hw _ =>
  decode_encodeWord rfl (mem_rowsControl 8 rfl) (Row.selects_of rfl (show 0#5 &&& 31#5 = 0#5 by decide) BitVec.and_zero (show 0#5 &&& 31#5 = 0#5 by decide) (show 0#10 &&& 1023#10 = 0#10 by decide)) rfl hw
theorem jlr (m : Bool) (d : BitVec 5) (a : BitVec 5) : Statement (.jlr m d a) := fun hw _ =>
  decode_encodeWord rfl (mem_rowsControl 9 rfl) (Row.selects_of rfl BitVec.and_zero BitVec.and_zero (show 0#5 &&& 31#5 = 0#5 by decide) (show 1#10 &&& 1023#10 = 1#10 by decide)) rfl hw
theorem call (m : Bool) (o : BitVec 24) : Statement (.call m o) := fun hw _ =>
  decode_encodeWord rfl (mem_rowsControl 10 rfl) (Row.selects_of rfl (segHi _ _ _ _ rfl rfl) BitVec.and_zero BitVec.and_zero BitVec.and_zero) (congrArg (Instr.call m) (seg6 o _)) hw
theorem callr (m : Bool) (a : BitVec 5) : Statement (.callr m a) := fun hw _ =>
  decode_encodeWord rfl (mem_rowsControl 11 rfl) (Row.selects_of rfl (show 16#5 &&& 31#5 = 16#5 by decide) BitVec.and_zero (show 0#5 &&& 31#5 = 0#5 by decide) (show 0#10 &&& 1023#10 = 0#10 by decide)) rfl hw
theorem ret (m : Bool) : Statement (.ret m) := fun hw _ =>
  decode_encodeWord rfl (mem_rowsControl 12 rfl) (Row.selects_of rfl (show 0#5 &&& 31#5 = 0#5 by decide) (show 0#5 &&& 31#5 = 0#5 by decide) (show 0#5 &&& 31#5 = 0#5 by decide) (show 0#10 &&& 1023#10 = 0#10 by decide)) rfl hw
theorem rep (m : Bool) (l : BitVec 4) (t : BitVec 3) (c : BitVec 12) : Statement (.rep m l t c) := fun hw _ =>
  decode_encodeWord rfl (mem_rowsControl 13 rfl) (Row.selects_of rfl (segHi _ _ _ _ rfl rfl) (show 0#5 &&& 31#5 = 0#5 by decide) BitVec.and_zero BitVec.and_zero) (congr (congr (congrArg (Instr.rep m) (seg7 l _)) (seg8 t c)) (seg9 t c)) hw
theorem ldB (m : Bool) (d : BitVec 5) (a : BitVec 5) (o : BitVec 12) : Statement (.ldB m d a o) := fun hw _ =>
  decode_encodeWord rfl (mem_rowsMemory1 0 rfl) (Row.selects_of rfl BitVec.and_zero BitVec.and_zero (segHi _ _ _ _ rfl rfl) BitVec.and_zero) (congrArg (Instr.ldB m d a) (seg10 o _)) hw
theorem ldBu (m : Bool) (d : BitVec 5) (a : BitVec 5) (o : BitVec 12) : Statement (.ldBu m d a o) := fun hw _ =>
  decode_encodeWord rfl (mem_rowsMemory1 1 rfl) (Row.selects_of rfl BitVec.and_zero BitVec.and_zero (segHi _ _ _ _ rfl rfl) BitVec.and_zero) (congrArg (Instr.ldBu m d a) (seg10 o _)) hw
theorem ldH (m : Bool) (d : BitVec 5) (a : BitVec 5) (o : BitVec 12) : Statement (.ldH m d a o) := fun hw _ =>
  decode_encodeWord rfl (mem_rowsMemory1 2 rfl) (Row.selects_of rfl BitVec.and_zero BitVec.and_zero (segHi _ _ _ _ rfl rfl) BitVec.and_zero) (congrArg (Instr.ldH m d a) (seg10 o _)) hw
theorem ldHu (m : Bool) (d : BitVec 5) (a : BitVec 5) (o : BitVec 12) : Statement (.ldHu m d a o) := fun hw _ =>
  decode_encodeWord rfl (mem_rowsMemory1 3 rfl) (Row.selects_of rfl BitVec.and_zero BitVec.and_zero (segHi _ _ _ _ rfl rfl) BitVec.and_zero) (congrArg (Instr.ldHu m d a) (seg10 o _)) hw
theorem ldW (m : Bool) (d : BitVec 5) (a : BitVec 5) (o : BitVec 12) : Statement (.ldW m d a o) := fun hw _ =>
  decode_encodeWord rfl (mem_rowsMemory1 4 rfl) (Row.selects_of rfl BitVec.and_zero BitVec.and_zero (segHi _ _ _ _ rfl rfl) BitVec.and_zero) (congrArg (Instr.ldW m d a) (seg10 o _)) hw
theorem ldWu (m : Bool) (d : BitVec 5) (a : BitVec 5) (o : BitVec 12) : Statement (.ldWu m d a o) := fun hw _ =>
  decode_encodeWord rfl (mem_rowsMemory1 5 rfl) (Row.selects_of rfl BitVec.and_zero BitVec.and_zero (segHi _ _ _ _ rfl rfl) BitVec.and_zero) (congrArg (Instr.ldWu m d a) (seg10 o _)) hw
theorem ldD (m : Bool) (d : BitVec 5) (a : BitVec 5) (o : BitVec 12) : Statement (.ldD m d a o) := fun hw _ =>
  decode_encodeWord rfl (mem_rowsMemory1 6 rfl) (Row.selects_of rfl BitVec.and_zero BitVec.and_zero (segHi _ _ _ _ rfl rfl) BitVec.and_zero) (congrArg (Instr.ldD m d a) (seg10 o _)) hw
theorem pref (m : Bool) (a : BitVec 5) (o : BitVec 12) : Statement (.pref m a o) := fun hw _ =>
  decode_encodeWord rfl (mem_rowsMemory1 7 rfl) (Row.selects_of rfl (show 0#5 &&& 31#5 = 0#5 by decide) BitVec.and_zero (segHi _ _ _ _ rfl rfl) BitVec.and_zero) (congrArg (Instr.pref m a) (seg10 o _)) hw
theorem stB (m : Bool) (b : BitVec 5) (a : BitVec 5) (o : BitVec 12) : Statement (.stB m b a o) := fun hw _ =>
  decode_encodeWord rfl (mem_rowsMemory1 8 rfl) (Row.selects_of rfl BitVec.and_zero BitVec.and_zero (segHi _ _ _ _ rfl rfl) BitVec.and_zero) (congrArg (Instr.stB m b a) (seg10 o _)) hw
theorem stH (m : Bool) (b : BitVec 5) (a : BitVec 5) (o : BitVec 12) : Statement (.stH m b a o) := fun hw _ =>
  decode_encodeWord rfl (mem_rowsMemory1 9 rfl) (Row.selects_of rfl BitVec.and_zero BitVec.and_zero (segHi _ _ _ _ rfl rfl) BitVec.and_zero) (congrArg (Instr.stH m b a) (seg10 o _)) hw
theorem stW (m : Bool) (b : BitVec 5) (a : BitVec 5) (o : BitVec 12) : Statement (.stW m b a o) := fun hw _ =>
  decode_encodeWord rfl (mem_rowsMemory1 10 rfl) (Row.selects_of rfl BitVec.and_zero BitVec.and_zero (segHi _ _ _ _ rfl rfl) BitVec.and_zero) (congrArg (Instr.stW m b a) (seg10 o _)) hw
theorem stD (m : Bool) (b : BitVec 5) (a : BitVec 5) (o : BitVec 12) : Statement (.stD m b a o) := fun hw _ =>
  decode_encodeWord rfl (mem_rowsMemory1 11 rfl) (Row.selects_of rfl BitVec.and_zero BitVec.and_zero (segHi _ _ _ _ rfl rfl) BitVec.and_zero) (congrArg (Instr.stD m b a) (seg10 o _)) hw
theorem lde (m : Bool) (d : BitVec 5) (a : BitVec 5) (k : BitVec 12) : Statement (.lde m d a k) := fun hw _ =>
  decode_encodeWord rfl (mem_rowsMemory1 12 rfl) (Row.selects_of rfl BitVec.and_zero BitVec.and_zero (segHi _ _ _ _ rfl rfl) BitVec.and_zero) (congrArg (Instr.lde m d a) (seg10 k _)) hw
theorem ste (m : Bool) (d : BitVec 5) (a : BitVec 5) (k : BitVec 12) : Statement (.ste m d a k) := fun hw _ =>
  decode_encodeWord rfl (mem_rowsMemory1 13 rfl) (Row.selects_of rfl BitVec.and_zero BitVec.and_zero (segHi _ _ _ _ rfl rfl) BitVec.and_zero) (congrArg (Instr.ste m d a) (seg10 k _)) hw
theorem ldlW (m : Bool) (d : BitVec 5) (a : BitVec 5) (b : BitVec 5) (l : BitVec 6) (mode : BitVec 2) : Statement (.ldlW m d a b l mode) := fun hw _ =>
  decode_encodeWord rfl (mem_rowsMemory1 14 rfl) (Row.selects_of rfl BitVec.and_zero BitVec.and_zero BitVec.and_zero (segLo _ _ _ _ rfl rfl)) (congr (congrArg (Instr.ldlW m d a b) (seg11 l mode _)) (seg12 l mode _)) hw
theorem ldlWu (m : Bool) (d : BitVec 5) (a : BitVec 5) (b : BitVec 5) (l : BitVec 6) (mode : BitVec 2) : Statement (.ldlWu m d a b l mode) := fun hw _ =>
  decode_encodeWord rfl (mem_rowsMemory1 15 rfl) (Row.selects_of rfl BitVec.and_zero BitVec.and_zero BitVec.and_zero (segLo _ _ _ _ rfl rfl)) (congr (congrArg (Instr.ldlWu m d a b) (seg11 l mode _)) (seg12 l mode _)) hw
theorem ldlD (m : Bool) (d : BitVec 5) (a : BitVec 5) (b : BitVec 5) (l : BitVec 6) (mode : BitVec 2) : Statement (.ldlD m d a b l mode) := fun hw _ =>
  decode_encodeWord rfl (mem_rowsMemory1 16 rfl) (Row.selects_of rfl BitVec.and_zero BitVec.and_zero BitVec.and_zero (segLo _ _ _ _ rfl rfl)) (congr (congrArg (Instr.ldlD m d a b) (seg11 l mode _)) (seg12 l mode _)) hw
theorem amoadd (m : Bool) (d : BitVec 5) (a : BitVec 5) (b : BitVec 5) (w : BitVec 1) (o : BitVec 2) : Statement (.amoadd m d a b w o) := fun hw _ =>
  decode_encodeWord rfl (mem_rowsMemory1 17 rfl) (Row.selects_of rfl BitVec.and_zero BitVec.and_zero BitVec.and_zero (segHi2 _ _ _ _ _ rfl rfl)) (congr (congrArg (Instr.amoadd m d a b) (seg13 w o _)) (seg14 w o _)) hw
theorem amoand (m : Bool) (d : BitVec 5) (a : BitVec 5) (b : BitVec 5) (w : BitVec 1) (o : BitVec 2) : Statement (.amoand m d a b w o) := fun hw _ =>
  decode_encodeWord rfl (mem_rowsMemory1 18 rfl) (Row.selects_of rfl BitVec.and_zero BitVec.and_zero BitVec.and_zero (segHi2 _ _ _ _ _ rfl rfl)) (congr (congrArg (Instr.amoand m d a b) (seg13 w o _)) (seg14 w o _)) hw
theorem amoor (m : Bool) (d : BitVec 5) (a : BitVec 5) (b : BitVec 5) (w : BitVec 1) (o : BitVec 2) : Statement (.amoor m d a b w o) := fun hw _ =>
  decode_encodeWord rfl (mem_rowsMemory1 19 rfl) (Row.selects_of rfl BitVec.and_zero BitVec.and_zero BitVec.and_zero (segHi2 _ _ _ _ _ rfl rfl)) (congr (congrArg (Instr.amoor m d a b) (seg13 w o _)) (seg14 w o _)) hw
theorem amoxor (m : Bool) (d : BitVec 5) (a : BitVec 5) (b : BitVec 5) (w : BitVec 1) (o : BitVec 2) : Statement (.amoxor m d a b w o) := fun hw _ =>
  decode_encodeWord rfl (mem_rowsMemory2 0 rfl) (Row.selects_of rfl BitVec.and_zero BitVec.and_zero BitVec.and_zero (segHi2 _ _ _ _ _ rfl rfl)) (congr (congrArg (Instr.amoxor m d a b) (seg13 w o _)) (seg14 w o _)) hw
theorem amomin (m : Bool) (d : BitVec 5) (a : BitVec 5) (b : BitVec 5) (w : BitVec 1) (o : BitVec 2) : Statement (.amomin m d a b w o) := fun hw _ =>
  decode_encodeWord rfl (mem_rowsMemory2 1 rfl) (Row.selects_of rfl BitVec.and_zero BitVec.and_zero BitVec.and_zero (segHi2 _ _ _ _ _ rfl rfl)) (congr (congrArg (Instr.amomin m d a b) (seg13 w o _)) (seg14 w o _)) hw
theorem amomax (m : Bool) (d : BitVec 5) (a : BitVec 5) (b : BitVec 5) (w : BitVec 1) (o : BitVec 2) : Statement (.amomax m d a b w o) := fun hw _ =>
  decode_encodeWord rfl (mem_rowsMemory2 2 rfl) (Row.selects_of rfl BitVec.and_zero BitVec.and_zero BitVec.and_zero (segHi2 _ _ _ _ _ rfl rfl)) (congr (congrArg (Instr.amomax m d a b) (seg13 w o _)) (seg14 w o _)) hw
theorem amominu (m : Bool) (d : BitVec 5) (a : BitVec 5) (b : BitVec 5) (w : BitVec 1) (o : BitVec 2) : Statement (.amominu m d a b w o) := fun hw _ =>
  decode_encodeWord rfl (mem_rowsMemory2 3 rfl) (Row.selects_of rfl BitVec.and_zero BitVec.and_zero BitVec.and_zero (segHi2 _ _ _ _ _ rfl rfl)) (congr (congrArg (Instr.amominu m d a b) (seg13 w o _)) (seg14 w o _)) hw
theorem amomaxu (m : Bool) (d : BitVec 5) (a : BitVec 5) (b : BitVec 5) (w : BitVec 1) (o : BitVec 2) : Statement (.amomaxu m d a b w o) := fun hw _ =>
  decode_encodeWord rfl (mem_rowsMemory2 4 rfl) (Row.selects_of rfl BitVec.and_zero BitVec.and_zero BitVec.and_zero (segHi2 _ _ _ _ _ rfl rfl)) (congr (congrArg (Instr.amomaxu m d a b) (seg13 w o _)) (seg14 w o _)) hw
theorem amoswap (m : Bool) (d : BitVec 5) (a : BitVec 5) (b : BitVec 5) (w : BitVec 1) (o : BitVec 2) : Statement (.amoswap m d a b w o) := fun hw _ =>
  decode_encodeWord rfl (mem_rowsMemory2 5 rfl) (Row.selects_of rfl BitVec.and_zero BitVec.and_zero BitVec.and_zero (segHi2 _ _ _ _ _ rfl rfl)) (congr (congrArg (Instr.amoswap m d a b) (seg13 w o _)) (seg14 w o _)) hw
theorem amofaddS (m : Bool) (d : BitVec 5) (a : BitVec 5) (b : BitVec 5) (o : BitVec 2) : Statement (.amofaddS m d a b o) := fun hw _ =>
  decode_encodeWord rfl (mem_rowsMemory2 6 rfl) (Row.selects_of rfl BitVec.and_zero BitVec.and_zero BitVec.and_zero (segHi _ _ _ _ rfl rfl)) (congrArg (Instr.amofaddS m d a b) (seg15 o _)) hw
theorem cas (m : Bool) (d : BitVec 5) (a : BitVec 5) (b : BitVec 5) (w : BitVec 1) (o : BitVec 2) : Statement (.cas m d a b w o) := fun hw _ =>
  decode_encodeWord rfl (mem_rowsMemory2 7 rfl) (Row.selects_of rfl BitVec.and_zero BitVec.and_zero BitVec.and_zero (segHi2 _ _ _ _ _ rfl rfl)) (congr (congrArg (Instr.cas m d a b) (seg13 w o _)) (seg14 w o _)) hw
theorem cas2 (m : Bool) (d : BitVec 5) (a : BitVec 5) (b : BitVec 5) (w : BitVec 1) (o : BitVec 2) : Statement (.cas2 m d a b w o) := fun hw _ =>
  decode_encodeWord rfl (mem_rowsMemory2 8 rfl) (Row.selects_of rfl BitVec.and_zero BitVec.and_zero BitVec.and_zero (segHi2 _ _ _ _ _ rfl rfl)) (congr (congrArg (Instr.cas2 m d a b) (seg13 w o _)) (seg14 w o _)) hw
theorem fence (m : Bool) (c : BitVec 3) (k : BitVec 3) : Statement (.fence m c k) := fun hw _ =>
  decode_encodeWord rfl (mem_rowsMemory2 9 rfl) (Row.selects_of rfl (show 0#5 &&& 31#5 = 0#5 by decide) (show 0#5 &&& 31#5 = 0#5 by decide) (show 0#5 &&& 31#5 = 0#5 by decide) (by decide +revert)) (congr (congrArg (Instr.fence m) (seg16 c k _ _)) (seg17 c k _ _)) hw
theorem cflush (m : Bool) (a : BitVec 5) : Statement (.cflush m a) := fun hw _ =>
  decode_encodeWord rfl (mem_rowsMemory2 10 rfl) (Row.selects_of rfl (show 0#5 &&& 31#5 = 0#5 by decide) BitVec.and_zero (show 0#5 &&& 31#5 = 0#5 by decide) (show 256#10 &&& 1023#10 = 256#10 by decide)) rfl hw
theorem cinv (m : Bool) (a : BitVec 5) : Statement (.cinv m a) := fun hw _ =>
  decode_encodeWord rfl (mem_rowsMemory2 11 rfl) (Row.selects_of rfl (show 0#5 &&& 31#5 = 0#5 by decide) BitVec.and_zero (show 0#5 &&& 31#5 = 0#5 by decide) (show 512#10 &&& 1023#10 = 512#10 by decide)) rfl hw
theorem cwb (m : Bool) (a : BitVec 5) : Statement (.cwb m a) := fun hw _ =>
  decode_encodeWord rfl (mem_rowsMemory2 12 rfl) (Row.selects_of rfl (show 0#5 &&& 31#5 = 0#5 by decide) BitVec.and_zero (show 0#5 &&& 31#5 = 0#5 by decide) (show 768#10 &&& 1023#10 = 768#10 by decide)) rfl hw
theorem lda (m : Bool) (d : BitVec 5) (a : BitVec 5) (z : BitVec 2) (o : BitVec 12) : Statement (.lda m d a z o) := fun hw _ =>
  decode_encodeWord rfl (mem_rowsMemory2 13 rfl) (Row.selects_of rfl BitVec.and_zero BitVec.and_zero (segHi2 _ _ _ _ _ rfl rfl) BitVec.and_zero) (congr (congrArg (Instr.lda m d a) (seg18 z o _)) (seg19 z o _)) hw
theorem strl (m : Bool) (d : BitVec 5) (a : BitVec 5) (z : BitVec 2) (o : BitVec 12) : Statement (.strl m d a z o) := fun hw _ =>
  decode_encodeWord rfl (mem_rowsMemory2 14 rfl) (Row.selects_of rfl BitVec.and_zero BitVec.and_zero (segHi2 _ _ _ _ _ rfl rfl) BitVec.and_zero) (congr (congrArg (Instr.strl m d a) (seg18 z o _)) (seg19 z o _)) hw
theorem itadv (m : Bool) (i : BitVec 12) : Statement (.itadv m i) := fun hw _ =>
  decode_encodeWord rfl (mem_rowsMemory2 15 rfl) (Row.selects_of rfl (show 0#5 &&& 31#5 = 0#5 by decide) (show 0#5 &&& 31#5 = 0#5 by decide) (segHi _ _ _ _ rfl rfl) BitVec.and_zero) (congrArg (Instr.itadv m) (seg10 i _)) hw
theorem itset (m : Bool) (a : BitVec 5) (i : BitVec 12) : Statement (.itset m a i) := fun hw _ =>
  decode_encodeWord rfl (mem_rowsMemory2 16 rfl) (Row.selects_of rfl (show 0#5 &&& 31#5 = 0#5 by decide) BitVec.and_zero (segHi _ _ _ _ rfl rfl) BitVec.and_zero) (congrArg (Instr.itset m a) (seg10 i _)) hw
theorem itget (m : Bool) (d : BitVec 5) : Statement (.itget m d) := fun hw _ =>
  decode_encodeWord rfl (mem_rowsMemory2 17 rfl) (Row.selects_of rfl BitVec.and_zero (show 0#5 &&& 31#5 = 0#5 by decide) (show 8#5 &&& 31#5 = 8#5 by decide) (show 0#10 &&& 1023#10 = 0#10 by decide)) rfl hw
theorem vadd (m : Bool) (d : BitVec 5) (a : BitVec 5) (b : BitVec 5) (t : BitVec 2) (k : BitVec 3) : Statement (.vadd m d a b t k) := fun hw _ =>
  decode_encodeWord rfl (mem_rowsVector1 0 rfl) (Row.selects_of rfl BitVec.and_zero BitVec.and_zero BitVec.and_zero (segLo _ _ _ _ rfl rfl)) (congr (congrArg (Instr.vadd m d a b) (seg20 t k _)) (seg21 t k _)) hw
theorem vsub (m : Bool) (d : BitVec 5) (a : BitVec 5) (b : BitVec 5) (t : BitVec 2) (k : BitVec 3) : Statement (.vsub m d a b t k) := fun hw _ =>
  decode_encodeWord rfl (mem_rowsVector1 1 rfl) (Row.selects_of rfl BitVec.and_zero BitVec.and_zero BitVec.and_zero (segLo _ _ _ _ rfl rfl)) (congr (congrArg (Instr.vsub m d a b) (seg20 t k _)) (seg21 t k _)) hw
theorem vmul (m : Bool) (d : BitVec 5) (a : BitVec 5) (b : BitVec 5) (t : BitVec 2) (k : BitVec 3) : Statement (.vmul m d a b t k) := fun hw _ =>
  decode_encodeWord rfl (mem_rowsVector1 2 rfl) (Row.selects_of rfl BitVec.and_zero BitVec.and_zero BitVec.and_zero (segLo _ _ _ _ rfl rfl)) (congr (congrArg (Instr.vmul m d a b) (seg20 t k _)) (seg21 t k _)) hw
theorem vmin (m : Bool) (d : BitVec 5) (a : BitVec 5) (b : BitVec 5) (t : BitVec 2) (k : BitVec 3) : Statement (.vmin m d a b t k) := fun hw _ =>
  decode_encodeWord rfl (mem_rowsVector1 3 rfl) (Row.selects_of rfl BitVec.and_zero BitVec.and_zero BitVec.and_zero (segLo _ _ _ _ rfl rfl)) (congr (congrArg (Instr.vmin m d a b) (seg20 t k _)) (seg21 t k _)) hw
theorem vmax (m : Bool) (d : BitVec 5) (a : BitVec 5) (b : BitVec 5) (t : BitVec 2) (k : BitVec 3) : Statement (.vmax m d a b t k) := fun hw _ =>
  decode_encodeWord rfl (mem_rowsVector1 4 rfl) (Row.selects_of rfl BitVec.and_zero BitVec.and_zero BitVec.and_zero (segLo _ _ _ _ rfl rfl)) (congr (congrArg (Instr.vmax m d a b) (seg20 t k _)) (seg21 t k _)) hw
theorem vand (m : Bool) (d : BitVec 5) (a : BitVec 5) (b : BitVec 5) (t : BitVec 2) (k : BitVec 3) : Statement (.vand m d a b t k) := fun hw _ =>
  decode_encodeWord rfl (mem_rowsVector1 5 rfl) (Row.selects_of rfl BitVec.and_zero BitVec.and_zero BitVec.and_zero (segLo _ _ _ _ rfl rfl)) (congr (congrArg (Instr.vand m d a b) (seg20 t k _)) (seg21 t k _)) hw
theorem vor (m : Bool) (d : BitVec 5) (a : BitVec 5) (b : BitVec 5) (t : BitVec 2) (k : BitVec 3) : Statement (.vor m d a b t k) := fun hw _ =>
  decode_encodeWord rfl (mem_rowsVector1 6 rfl) (Row.selects_of rfl BitVec.and_zero BitVec.and_zero BitVec.and_zero (segLo _ _ _ _ rfl rfl)) (congr (congrArg (Instr.vor m d a b) (seg20 t k _)) (seg21 t k _)) hw
theorem vxor (m : Bool) (d : BitVec 5) (a : BitVec 5) (b : BitVec 5) (t : BitVec 2) (k : BitVec 3) : Statement (.vxor m d a b t k) := fun hw _ =>
  decode_encodeWord rfl (mem_rowsVector1 7 rfl) (Row.selects_of rfl BitVec.and_zero BitVec.and_zero BitVec.and_zero (segLo _ _ _ _ rfl rfl)) (congr (congrArg (Instr.vxor m d a b) (seg20 t k _)) (seg21 t k _)) hw
theorem vsll (m : Bool) (d : BitVec 5) (a : BitVec 5) (b : BitVec 5) (t : BitVec 2) (k : BitVec 3) : Statement (.vsll m d a b t k) := fun hw _ =>
  decode_encodeWord rfl (mem_rowsVector1 8 rfl) (Row.selects_of rfl BitVec.and_zero BitVec.and_zero BitVec.and_zero (segLo _ _ _ _ rfl rfl)) (congr (congrArg (Instr.vsll m d a b) (seg20 t k _)) (seg21 t k _)) hw
theorem vsrl (m : Bool) (d : BitVec 5) (a : BitVec 5) (b : BitVec 5) (t : BitVec 2) (k : BitVec 3) : Statement (.vsrl m d a b t k) := fun hw _ =>
  decode_encodeWord rfl (mem_rowsVector1 9 rfl) (Row.selects_of rfl BitVec.and_zero BitVec.and_zero BitVec.and_zero (segLo _ _ _ _ rfl rfl)) (congr (congrArg (Instr.vsrl m d a b) (seg20 t k _)) (seg21 t k _)) hw
theorem vsra (m : Bool) (d : BitVec 5) (a : BitVec 5) (b : BitVec 5) (t : BitVec 2) (k : BitVec 3) : Statement (.vsra m d a b t k) := fun hw _ =>
  decode_encodeWord rfl (mem_rowsVector1 10 rfl) (Row.selects_of rfl BitVec.and_zero BitVec.and_zero BitVec.and_zero (segLo _ _ _ _ rfl rfl)) (congr (congrArg (Instr.vsra m d a b) (seg20 t k _)) (seg21 t k _)) hw
theorem vfadd (m : Bool) (d : BitVec 5) (a : BitVec 5) (b : BitVec 5) (t : BitVec 2) (k : BitVec 3) : Statement (.vfadd m d a b t k) := fun hw _ =>
  decode_encodeWord rfl (mem_rowsVector1 11 rfl) (Row.selects_of rfl BitVec.and_zero BitVec.and_zero BitVec.and_zero (segLo _ _ _ _ rfl rfl)) (congr (congrArg (Instr.vfadd m d a b) (seg20 t k _)) (seg21 t k _)) hw
theorem vfsub (m : Bool) (d : BitVec 5) (a : BitVec 5) (b : BitVec 5) (t : BitVec 2) (k : BitVec 3) : Statement (.vfsub m d a b t k) := fun hw _ =>
  decode_encodeWord rfl (mem_rowsVector1 12 rfl) (Row.selects_of rfl BitVec.and_zero BitVec.and_zero BitVec.and_zero (segLo _ _ _ _ rfl rfl)) (congr (congrArg (Instr.vfsub m d a b) (seg20 t k _)) (seg21 t k _)) hw
theorem vfmul (m : Bool) (d : BitVec 5) (a : BitVec 5) (b : BitVec 5) (t : BitVec 2) (k : BitVec 3) : Statement (.vfmul m d a b t k) := fun hw _ =>
  decode_encodeWord rfl (mem_rowsVector1 13 rfl) (Row.selects_of rfl BitVec.and_zero BitVec.and_zero BitVec.and_zero (segLo _ _ _ _ rfl rfl)) (congr (congrArg (Instr.vfmul m d a b) (seg20 t k _)) (seg21 t k _)) hw
theorem vfma (m : Bool) (d : BitVec 5) (a : BitVec 5) (b : BitVec 5) (t : BitVec 2) (k : BitVec 3) : Statement (.vfma m d a b t k) := fun hw _ =>
  decode_encodeWord rfl (mem_rowsVector1 14 rfl) (Row.selects_of rfl BitVec.and_zero BitVec.and_zero BitVec.and_zero (segLo _ _ _ _ rfl rfl)) (congr (congrArg (Instr.vfma m d a b) (seg20 t k _)) (seg21 t k _)) hw
theorem vfnma (m : Bool) (d : BitVec 5) (a : BitVec 5) (b : BitVec 5) (t : BitVec 2) (k : BitVec 3) : Statement (.vfnma m d a b t k) := fun hw _ =>
  decode_encodeWord rfl (mem_rowsVector1 15 rfl) (Row.selects_of rfl BitVec.and_zero BitVec.and_zero BitVec.and_zero (segLo _ _ _ _ rfl rfl)) (congr (congrArg (Instr.vfnma m d a b) (seg20 t k _)) (seg21 t k _)) hw
theorem vfmin (m : Bool) (d : BitVec 5) (a : BitVec 5) (b : BitVec 5) (t : BitVec 2) (k : BitVec 3) : Statement (.vfmin m d a b t k) := fun hw _ =>
  decode_encodeWord rfl (mem_rowsVector1 16 rfl) (Row.selects_of rfl BitVec.and_zero BitVec.and_zero BitVec.and_zero (segLo _ _ _ _ rfl rfl)) (congr (congrArg (Instr.vfmin m d a b) (seg20 t k _)) (seg21 t k _)) hw
theorem vfmax (m : Bool) (d : BitVec 5) (a : BitVec 5) (b : BitVec 5) (t : BitVec 2) (k : BitVec 3) : Statement (.vfmax m d a b t k) := fun hw _ =>
  decode_encodeWord rfl (mem_rowsVector1 17 rfl) (Row.selects_of rfl BitVec.and_zero BitVec.and_zero BitVec.and_zero (segLo _ _ _ _ rfl rfl)) (congr (congrArg (Instr.vfmax m d a b) (seg20 t k _)) (seg21 t k _)) hw
theorem vfabs (m : Bool) (d : BitVec 5) (a : BitVec 5) (t : BitVec 2) (k : BitVec 3) : Statement (.vfabs m d a t k) := fun hw _ =>
  decode_encodeWord rfl (mem_rowsVector1 18 rfl) (Row.selects_of rfl BitVec.and_zero BitVec.and_zero (show 0#5 &&& 31#5 = 0#5 by decide) (segLo _ _ _ _ rfl rfl)) (congr (congrArg (Instr.vfabs m d a) (seg20 t k _)) (seg21 t k _)) hw
theorem vfneg (m : Bool) (d : BitVec 5) (a : BitVec 5) (t : BitVec 2) (k : BitVec 3) : Statement (.vfneg m d a t k) := fun hw _ =>
  decode_encodeWord rfl (mem_rowsVector1 19 rfl) (Row.selects_of rfl BitVec.and_zero BitVec.and_zero (show 0#5 &&& 31#5 = 0#5 by decide) (segLo _ _ _ _ rfl rfl)) (congr (congrArg (Instr.vfneg m d a) (seg20 t k _)) (seg21 t k _)) hw
theorem vfrcp (m : Bool) (d : BitVec 5) (a : BitVec 5) (t : BitVec 2) (k : BitVec 3) : Statement (.vfrcp m d a t k) := fun hw _ =>
  decode_encodeWord rfl (mem_rowsVector2 0 rfl) (Row.selects_of rfl BitVec.and_zero BitVec.and_zero (show 0#5 &&& 31#5 = 0#5 by decide) (segLo _ _ _ _ rfl rfl)) (congr (congrArg (Instr.vfrcp m d a) (seg20 t k _)) (seg21 t k _)) hw
theorem vfrsqrt (m : Bool) (d : BitVec 5) (a : BitVec 5) (t : BitVec 2) (k : BitVec 3) : Statement (.vfrsqrt m d a t k) := fun hw _ =>
  decode_encodeWord rfl (mem_rowsVector2 1 rfl) (Row.selects_of rfl BitVec.and_zero BitVec.and_zero (show 0#5 &&& 31#5 = 0#5 by decide) (segLo _ _ _ _ rfl rfl)) (congr (congrArg (Instr.vfrsqrt m d a) (seg20 t k _)) (seg21 t k _)) hw
theorem vfexp2 (m : Bool) (d : BitVec 5) (a : BitVec 5) (t : BitVec 2) (k : BitVec 3) : Statement (.vfexp2 m d a t k) := fun hw _ =>
  decode_encodeWord rfl (mem_rowsVector2 2 rfl) (Row.selects_of rfl BitVec.and_zero BitVec.and_zero (show 0#5 &&& 31#5 = 0#5 by decide) (segLo _ _ _ _ rfl rfl)) (congr (congrArg (Instr.vfexp2 m d a) (seg20 t k _)) (seg21 t k _)) hw
theorem vscale (m : Bool) (d : BitVec 5) (a : BitVec 5) (b : BitVec 5) (t : BitVec 2) (k : BitVec 3) : Statement (.vscale m d a b t k) := fun hw _ =>
  decode_encodeWord rfl (mem_rowsVector2 3 rfl) (Row.selects_of rfl BitVec.and_zero BitVec.and_zero BitVec.and_zero (segLo _ _ _ _ rfl rfl)) (congr (congrArg (Instr.vscale m d a b) (seg20 t k _)) (seg21 t k _)) hw
theorem vcmpEq (m : Bool) (d : BitVec 3) (a : BitVec 5) (b : BitVec 5) (t : BitVec 2) (k : BitVec 3) : Statement (.vcmpEq m d a b t k) := fun hw _ =>
  decode_encodeWord rfl (mem_rowsVector2 4 rfl) (Row.selects_of rfl (segHi _ _ _ _ rfl rfl) BitVec.and_zero BitVec.and_zero (segLo _ _ _ _ rfl rfl)) (congr (congr (congr (congr (congrArg (Instr.vcmpEq m) (seg22 d _)) (rfl)) (rfl)) (seg20 t k _)) (seg21 t k _)) hw
theorem vcmpLt (m : Bool) (d : BitVec 3) (a : BitVec 5) (b : BitVec 5) (t : BitVec 2) (k : BitVec 3) : Statement (.vcmpLt m d a b t k) := fun hw _ =>
  decode_encodeWord rfl (mem_rowsVector2 5 rfl) (Row.selects_of rfl (segHi _ _ _ _ rfl rfl) BitVec.and_zero BitVec.and_zero (segLo _ _ _ _ rfl rfl)) (congr (congr (congr (congr (congrArg (Instr.vcmpLt m) (seg22 d _)) (rfl)) (rfl)) (seg20 t k _)) (seg21 t k _)) hw
theorem vcmpLe (m : Bool) (d : BitVec 3) (a : BitVec 5) (b : BitVec 5) (t : BitVec 2) (k : BitVec 3) : Statement (.vcmpLe m d a b t k) := fun hw _ =>
  decode_encodeWord rfl (mem_rowsVector2 6 rfl) (Row.selects_of rfl (segHi _ _ _ _ rfl rfl) BitVec.and_zero BitVec.and_zero (segLo _ _ _ _ rfl rfl)) (congr (congr (congr (congr (congrArg (Instr.vcmpLe m) (seg22 d _)) (rfl)) (rfl)) (seg20 t k _)) (seg21 t k _)) hw
theorem vcmpNe (m : Bool) (d : BitVec 3) (a : BitVec 5) (b : BitVec 5) (t : BitVec 2) (k : BitVec 3) : Statement (.vcmpNe m d a b t k) := fun hw _ =>
  decode_encodeWord rfl (mem_rowsVector2 7 rfl) (Row.selects_of rfl (segHi _ _ _ _ rfl rfl) BitVec.and_zero BitVec.and_zero (segLo _ _ _ _ rfl rfl)) (congr (congr (congr (congr (congrArg (Instr.vcmpNe m) (seg22 d _)) (rfl)) (rfl)) (seg20 t k _)) (seg21 t k _)) hw
theorem vsel (m : Bool) (d : BitVec 5) (a : BitVec 5) (b : BitVec 5) (t : BitVec 2) (k : BitVec 3) : Statement (.vsel m d a b t k) := fun hw _ =>
  decode_encodeWord rfl (mem_rowsVector2 8 rfl) (Row.selects_of rfl BitVec.and_zero BitVec.and_zero BitVec.and_zero (segLo _ _ _ _ rfl rfl)) (congr (congrArg (Instr.vsel m d a b) (seg20 t k _)) (seg21 t k _)) hw
theorem vld (m : Bool) (d : BitVec 5) (a : BitVec 5) (t : BitVec 2) (k : BitVec 3) : Statement (.vld m d a t k) := fun hw _ =>
  decode_encodeWord rfl (mem_rowsVector2 9 rfl) (Row.selects_of rfl BitVec.and_zero BitVec.and_zero (show 0#5 &&& 31#5 = 0#5 by decide) (segLo _ _ _ _ rfl rfl)) (congr (congrArg (Instr.vld m d a) (seg20 t k _)) (seg21 t k _)) hw
theorem vst (m : Bool) (d : BitVec 5) (a : BitVec 5) (t : BitVec 2) (k : BitVec 3) : Statement (.vst m d a t k) := fun hw _ =>
  decode_encodeWord rfl (mem_rowsVector2 10 rfl) (Row.selects_of rfl BitVec.and_zero BitVec.and_zero (show 0#5 &&& 31#5 = 0#5 by decide) (segLo _ _ _ _ rfl rfl)) (congr (congrArg (Instr.vst m d a) (seg20 t k _)) (seg21 t k _)) hw
theorem vlds (m : Bool) (d : BitVec 5) (a : BitVec 5) (b : BitVec 5) (t : BitVec 2) (k : BitVec 3) : Statement (.vlds m d a b t k) := fun hw _ =>
  decode_encodeWord rfl (mem_rowsVector2 11 rfl) (Row.selects_of rfl BitVec.and_zero BitVec.and_zero BitVec.and_zero (segLo _ _ _ _ rfl rfl)) (congr (congrArg (Instr.vlds m d a b) (seg20 t k _)) (seg21 t k _)) hw
theorem vsts (m : Bool) (d : BitVec 5) (a : BitVec 5) (b : BitVec 5) (t : BitVec 2) (k : BitVec 3) : Statement (.vsts m d a b t k) := fun hw _ =>
  decode_encodeWord rfl (mem_rowsVector2 12 rfl) (Row.selects_of rfl BitVec.and_zero BitVec.and_zero BitVec.and_zero (segLo _ _ _ _ rfl rfl)) (congr (congrArg (Instr.vsts m d a b) (seg20 t k _)) (seg21 t k _)) hw
theorem vgath (m : Bool) (d : BitVec 5) (a : BitVec 5) (b : BitVec 5) (t : BitVec 2) (k : BitVec 3) : Statement (.vgath m d a b t k) := fun hw _ =>
  decode_encodeWord rfl (mem_rowsVector2 13 rfl) (Row.selects_of rfl BitVec.and_zero BitVec.and_zero BitVec.and_zero (segLo _ _ _ _ rfl rfl)) (congr (congrArg (Instr.vgath m d a b) (seg20 t k _)) (seg21 t k _)) hw
theorem vscat (m : Bool) (d : BitVec 5) (a : BitVec 5) (b : BitVec 5) (t : BitVec 2) (k : BitVec 3) : Statement (.vscat m d a b t k) := fun hw _ =>
  decode_encodeWord rfl (mem_rowsVector2 14 rfl) (Row.selects_of rfl BitVec.and_zero BitVec.and_zero BitVec.and_zero (segLo _ _ _ _ rfl rfl)) (congr (congrArg (Instr.vscat m d a b) (seg20 t k _)) (seg21 t k _)) hw
theorem vcvt (m : Bool) (d : BitVec 5) (a : BitVec 5) (g : BitVec 5) (r : BitVec 2) (k : BitVec 3) (c : BitVec 5) : Statement (.vcvt m d a g r k c) := fun hw _ =>
  decode_encodeWord rfl (mem_rowsVector2 15 rfl) (Row.selects_of rfl BitVec.and_zero BitVec.and_zero BitVec.and_zero BitVec.and_zero) (build_vcvt m d a g r k c hw) hw
theorem vquant (m : Bool) (d : BitVec 5) (a : BitVec 5) (g : BitVec 5) (r : BitVec 2) (k : BitVec 3) (c : BitVec 5) : Statement (.vquant m d a g r k c) := fun hw _ =>
  decode_encodeWord rfl (mem_rowsVector2 15 rfl) (Row.selects_of rfl BitVec.and_zero BitVec.and_zero BitVec.and_zero BitVec.and_zero) (build_vquant m d a g r k c hw) hw
theorem vdequant (m : Bool) (d : BitVec 5) (a : BitVec 5) (g : BitVec 5) (r : BitVec 2) (k : BitVec 3) (c : BitVec 5) : Statement (.vdequant m d a g r k c) := fun hw _ =>
  decode_encodeWord rfl (mem_rowsVector2 15 rfl) (Row.selects_of rfl BitVec.and_zero BitVec.and_zero BitVec.and_zero BitVec.and_zero) (build_vdequant m d a g r k c hw) hw
theorem vbcast (m : Bool) (d : BitVec 5) (a : BitVec 5) (t : BitVec 2) (k : BitVec 3) : Statement (.vbcast m d a t k) := fun hw _ =>
  decode_encodeWord rfl (mem_rowsVector2 16 rfl) (Row.selects_of rfl BitVec.and_zero BitVec.and_zero (show 0#5 &&& 31#5 = 0#5 by decide) (segLo _ _ _ _ rfl rfl)) (congr (congrArg (Instr.vbcast m d a) (seg20 t k _)) (seg21 t k _)) hw
theorem vmovx (m : Bool) (d : BitVec 5) (a : BitVec 5) (b : BitVec 5) (t : BitVec 2) : Statement (.vmovx m d a b t) := fun hw _ =>
  decode_encodeWord rfl (mem_rowsVector2 17 rfl) (Row.selects_of rfl BitVec.and_zero BitVec.and_zero BitVec.and_zero (segLo _ _ _ _ rfl rfl)) (congrArg (Instr.vmovx m d a b) (seg23 t _)) hw
theorem vins (m : Bool) (d : BitVec 5) (a : BitVec 5) (b : BitVec 5) (t : BitVec 2) : Statement (.vins m d a b t) := fun hw _ =>
  decode_encodeWord rfl (mem_rowsVector2 18 rfl) (Row.selects_of rfl BitVec.and_zero BitVec.and_zero BitVec.and_zero (segLo _ _ _ _ rfl rfl)) (congrArg (Instr.vins m d a b) (seg23 t _)) hw
theorem vperm (m : Bool) (d : BitVec 5) (a : BitVec 5) (b : BitVec 5) (t : BitVec 2) (k : BitVec 3) : Statement (.vperm m d a b t k) := fun hw _ =>
  decode_encodeWord rfl (mem_rowsVector2 19 rfl) (Row.selects_of rfl BitVec.and_zero BitVec.and_zero BitVec.and_zero (segLo _ _ _ _ rfl rfl)) (congr (congrArg (Instr.vperm m d a b) (seg20 t k _)) (seg21 t k _)) hw
theorem vslide (m : Bool) (d : BitVec 5) (a : BitVec 5) (b : BitVec 5) (t : BitVec 2) (k : BitVec 3) : Statement (.vslide m d a b t k) := fun hw _ =>
  decode_encodeWord rfl (mem_rowsVector3 0 rfl) (Row.selects_of rfl BitVec.and_zero BitVec.and_zero BitVec.and_zero (segLo _ _ _ _ rfl rfl)) (congr (congrArg (Instr.vslide m d a b) (seg20 t k _)) (seg21 t k _)) hw
theorem vredsum (m : Bool) (d : BitVec 5) (a : BitVec 5) (t : BitVec 2) (k : BitVec 3) : Statement (.vredsum m d a t k) := fun hw _ =>
  decode_encodeWord rfl (mem_rowsVector3 1 rfl) (Row.selects_of rfl BitVec.and_zero BitVec.and_zero (show 0#5 &&& 31#5 = 0#5 by decide) (segLo _ _ _ _ rfl rfl)) (congr (congrArg (Instr.vredsum m d a) (seg20 t k _)) (seg21 t k _)) hw
theorem vredmax (m : Bool) (d : BitVec 5) (a : BitVec 5) (t : BitVec 2) (k : BitVec 3) : Statement (.vredmax m d a t k) := fun hw _ =>
  decode_encodeWord rfl (mem_rowsVector3 2 rfl) (Row.selects_of rfl BitVec.and_zero BitVec.and_zero (show 0#5 &&& 31#5 = 0#5 by decide) (segLo _ _ _ _ rfl rfl)) (congr (congrArg (Instr.vredmax m d a) (seg20 t k _)) (seg21 t k _)) hw
theorem vredmin (m : Bool) (d : BitVec 5) (a : BitVec 5) (t : BitVec 2) (k : BitVec 3) : Statement (.vredmin m d a t k) := fun hw _ =>
  decode_encodeWord rfl (mem_rowsVector3 3 rfl) (Row.selects_of rfl BitVec.and_zero BitVec.and_zero (show 0#5 &&& 31#5 = 0#5 by decide) (segLo _ _ _ _ rfl rfl)) (congr (congrArg (Instr.vredmin m d a) (seg20 t k _)) (seg21 t k _)) hw
theorem vredsumFloat (m : Bool) (d : BitVec 5) (a : BitVec 5) (t : BitVec 2) (k : BitVec 3) : Statement (.vredsumFloat m d a t k) := fun hw _ =>
  decode_encodeWord rfl (mem_rowsVector3 4 rfl) (Row.selects_of rfl BitVec.and_zero BitVec.and_zero (show 0#5 &&& 31#5 = 0#5 by decide) (segLo _ _ _ _ rfl rfl)) (congr (congrArg (Instr.vredsumFloat m d a) (seg20 t k _)) (seg21 t k _)) hw
theorem vredmaxFloat (m : Bool) (d : BitVec 5) (a : BitVec 5) (t : BitVec 2) (k : BitVec 3) : Statement (.vredmaxFloat m d a t k) := fun hw _ =>
  decode_encodeWord rfl (mem_rowsVector3 5 rfl) (Row.selects_of rfl BitVec.and_zero BitVec.and_zero (show 0#5 &&& 31#5 = 0#5 by decide) (segLo _ _ _ _ rfl rfl)) (congr (congrArg (Instr.vredmaxFloat m d a) (seg20 t k _)) (seg21 t k _)) hw
theorem vredminFloat (m : Bool) (d : BitVec 5) (a : BitVec 5) (t : BitVec 2) (k : BitVec 3) : Statement (.vredminFloat m d a t k) := fun hw _ =>
  decode_encodeWord rfl (mem_rowsVector3 6 rfl) (Row.selects_of rfl BitVec.and_zero BitVec.and_zero (show 0#5 &&& 31#5 = 0#5 by decide) (segLo _ _ _ _ rfl rfl)) (congr (congrArg (Instr.vredminFloat m d a) (seg20 t k _)) (seg21 t k _)) hw
theorem kand (m : Bool) (d : BitVec 3) (a : BitVec 3) (b : BitVec 3) : Statement (.kand m d a b) := fun hw _ =>
  decode_encodeWord rfl (mem_rowsVector3 7 rfl) (Row.selects_of rfl (segHi _ _ _ _ rfl rfl) (segHi _ _ _ _ rfl rfl) (segHi _ _ _ _ rfl rfl) (show 0#10 &&& 1023#10 = 0#10 by decide)) (congr (congr (congrArg (Instr.kand m) (seg22 d _)) (seg22 a _)) (seg22 b _)) hw
theorem kor (m : Bool) (d : BitVec 3) (a : BitVec 3) (b : BitVec 3) : Statement (.kor m d a b) := fun hw _ =>
  decode_encodeWord rfl (mem_rowsVector3 8 rfl) (Row.selects_of rfl (segHi _ _ _ _ rfl rfl) (segHi _ _ _ _ rfl rfl) (segHi _ _ _ _ rfl rfl) (show 1#10 &&& 1023#10 = 1#10 by decide)) (congr (congr (congrArg (Instr.kor m) (seg22 d _)) (seg22 a _)) (seg22 b _)) hw
theorem kxor (m : Bool) (d : BitVec 3) (a : BitVec 3) (b : BitVec 3) : Statement (.kxor m d a b) := fun hw _ =>
  decode_encodeWord rfl (mem_rowsVector3 9 rfl) (Row.selects_of rfl (segHi _ _ _ _ rfl rfl) (segHi _ _ _ _ rfl rfl) (segHi _ _ _ _ rfl rfl) (show 2#10 &&& 1023#10 = 2#10 by decide)) (congr (congr (congrArg (Instr.kxor m) (seg22 d _)) (seg22 a _)) (seg22 b _)) hw
theorem knot (m : Bool) (d : BitVec 3) (a : BitVec 3) : Statement (.knot m d a) := fun hw _ =>
  decode_encodeWord rfl (mem_rowsVector3 10 rfl) (Row.selects_of rfl (segHi _ _ _ _ rfl rfl) (segHi _ _ _ _ rfl rfl) (show 0#5 &&& 31#5 = 0#5 by decide) (show 3#10 &&& 1023#10 = 3#10 by decide)) (congr (congrArg (Instr.knot m) (seg22 d _)) (seg22 a _)) hw
theorem kmovToMask (m : Bool) (d : BitVec 3) (a : BitVec 5) : Statement (.kmovToMask m d a) := fun hw _ =>
  decode_encodeWord rfl (mem_rowsVector3 11 rfl) (Row.selects_of rfl (segHi _ _ _ _ rfl rfl) BitVec.and_zero (show 0#5 &&& 31#5 = 0#5 by decide) (show 4#10 &&& 1023#10 = 4#10 by decide)) (congr (congrArg (Instr.kmovToMask m) (seg22 d _)) (rfl)) hw
theorem kmovFromMask (m : Bool) (d : BitVec 5) (a : BitVec 3) : Statement (.kmovFromMask m d a) := fun hw _ =>
  decode_encodeWord rfl (mem_rowsVector3 12 rfl) (Row.selects_of rfl BitVec.and_zero (segHi _ _ _ _ rfl rfl) (show 0#5 &&& 31#5 = 0#5 by decide) (show 5#10 &&& 1023#10 = 5#10 by decide)) (congrArg (Instr.kmovFromMask m d) (seg22 a _)) hw
theorem tcfg (m : Bool) (t : BitVec 3) (a : BitVec 5) : Statement (.tcfg m t a) := fun hw _ =>
  decode_encodeWord rfl (mem_rowsEngine1 0 rfl) (Row.selects_of rfl (segHi _ _ _ _ rfl rfl) BitVec.and_zero (show 0#5 &&& 31#5 = 0#5 by decide) (show 0#10 &&& 1023#10 = 0#10 by decide)) (congr (congrArg (Instr.tcfg m) (seg22 t _)) (rfl)) hw
theorem tzero (m : Bool) (t : BitVec 3) : Statement (.tzero m t) := fun hw _ =>
  decode_encodeWord rfl (mem_rowsEngine1 1 rfl) (Row.selects_of rfl (segHi _ _ _ _ rfl rfl) (show 0#5 &&& 31#5 = 0#5 by decide) (show 0#5 &&& 31#5 = 0#5 by decide) (show 64#10 &&& 1023#10 = 64#10 by decide)) (congrArg (Instr.tzero m) (seg22 t _)) hw
theorem tldr (m : Bool) (t : BitVec 3) (a : BitVec 5) (i : BitVec 6) : Statement (.tldr m t a i) := fun hw _ =>
  decode_encodeWord rfl (mem_rowsEngine1 2 rfl) (Row.selects_of rfl (segHi _ _ _ _ rfl rfl) BitVec.and_zero (show 0#5 &&& 31#5 = 0#5 by decide) (segHi _ _ _ _ rfl rfl)) (congr (congr (congrArg (Instr.tldr m) (seg22 t _)) (rfl)) (seg2 i _)) hw
theorem tstr (m : Bool) (t : BitVec 3) (a : BitVec 5) (i : BitVec 6) : Statement (.tstr m t a i) := fun hw _ =>
  decode_encodeWord rfl (mem_rowsEngine1 3 rfl) (Row.selects_of rfl (segHi _ _ _ _ rfl rfl) BitVec.and_zero (show 0#5 &&& 31#5 = 0#5 by decide) (segHi _ _ _ _ rfl rfl)) (congr (congr (congrArg (Instr.tstr m) (seg22 t _)) (rfl)) (seg2 i _)) hw
theorem tvrow (m : Bool) (t : BitVec 3) (a : BitVec 5) (i : BitVec 6) : Statement (.tvrow m t a i) := fun hw _ =>
  decode_encodeWord rfl (mem_rowsEngine1 4 rfl) (Row.selects_of rfl (segHi _ _ _ _ rfl rfl) BitVec.and_zero (show 0#5 &&& 31#5 = 0#5 by decide) (segHi _ _ _ _ rfl rfl)) (congr (congr (congrArg (Instr.tvrow m) (seg22 t _)) (rfl)) (seg2 i _)) hw
theorem trowv (m : Bool) (t : BitVec 3) (a : BitVec 5) (i : BitVec 6) : Statement (.trowv m t a i) := fun hw _ =>
  decode_encodeWord rfl (mem_rowsEngine1 5 rfl) (Row.selects_of rfl (segHi _ _ _ _ rfl rfl) BitVec.and_zero (show 0#5 &&& 31#5 = 0#5 by decide) (segHi _ _ _ _ rfl rfl)) (congr (congr (congrArg (Instr.trowv m) (seg22 t _)) (rfl)) (seg2 i _)) hw
theorem tvcol (m : Bool) (t : BitVec 3) (a : BitVec 5) (i : BitVec 6) : Statement (.tvcol m t a i) := fun hw _ =>
  decode_encodeWord rfl (mem_rowsEngine1 6 rfl) (Row.selects_of rfl (segHi _ _ _ _ rfl rfl) BitVec.and_zero (show 0#5 &&& 31#5 = 0#5 by decide) (segHi _ _ _ _ rfl rfl)) (congr (congr (congrArg (Instr.tvcol m) (seg22 t _)) (rfl)) (seg2 i _)) hw
theorem tcolv (m : Bool) (t : BitVec 3) (a : BitVec 5) (i : BitVec 6) : Statement (.tcolv m t a i) := fun hw _ =>
  decode_encodeWord rfl (mem_rowsEngine1 7 rfl) (Row.selects_of rfl (segHi _ _ _ _ rfl rfl) BitVec.and_zero (show 0#5 &&& 31#5 = 0#5 by decide) (segHi _ _ _ _ rfl rfl)) (congr (congr (congrArg (Instr.tcolv m) (seg22 t _)) (rfl)) (seg2 i _)) hw
theorem tsave (m : Bool) (t : BitVec 3) : Statement (.tsave m t) := fun hw _ =>
  decode_encodeWord rfl (mem_rowsEngine1 8 rfl) (Row.selects_of rfl (segHi _ _ _ _ rfl rfl) (show 0#5 &&& 31#5 = 0#5 by decide) (show 0#5 &&& 31#5 = 0#5 by decide) (show 512#10 &&& 1023#10 = 512#10 by decide)) (congrArg (Instr.tsave m) (seg22 t _)) hw
theorem tstat (m : Bool) (t : BitVec 3) (a : BitVec 5) : Statement (.tstat m t a) := fun hw _ =>
  decode_encodeWord rfl (mem_rowsEngine1 9 rfl) (Row.selects_of rfl (segHi _ _ _ _ rfl rfl) BitVec.and_zero (show 0#5 &&& 31#5 = 0#5 by decide) (show 576#10 &&& 1023#10 = 576#10 by decide)) (congr (congrArg (Instr.tstat m) (seg22 t _)) (rfl)) hw
theorem mma (m : Bool) (t : BitVec 3) (a : BitVec 5) (b : BitVec 5) (n : BitVec 1) : Statement (.mma m t a b n) := fun hw _ =>
  decode_encodeWord rfl (mem_rowsEngine1 10 rfl) (Row.selects_of rfl (segHi _ _ _ _ rfl rfl) BitVec.and_zero BitVec.and_zero (segHi _ _ _ _ rfl rfl)) (congr (congr (congr (congrArg (Instr.mma m) (seg22 t _)) (rfl)) (rfl)) (seg24 n _)) hw
theorem mmar (m : Bool) (t : BitVec 3) (a : BitVec 5) (b : BitVec 5) (n : BitVec 1) : Statement (.mmar m t a b n) := fun hw _ =>
  decode_encodeWord rfl (mem_rowsEngine1 11 rfl) (Row.selects_of rfl (segHi _ _ _ _ rfl rfl) BitVec.and_zero BitVec.and_zero (segHi _ _ _ _ rfl rfl)) (congr (congr (congr (congrArg (Instr.mmar m) (seg22 t _)) (rfl)) (rfl)) (seg24 n _)) hw
theorem mxw (m : Bool) (a : BitVec 5) (r : BitVec 8) : Statement (.mxw m a r) := fun hw _ =>
  decode_encodeWord rfl (mem_rowsEngine1 12 rfl) (Row.selects_of rfl BitVec.and_zero (show 0#5 &&& 31#5 = 0#5 by decide) (show 0#5 &&& 31#5 = 0#5 by decide) (segHi _ _ _ _ rfl rfl)) (congrArg (Instr.mxw m a) (seg25 r _)) hw
theorem mxr (m : Bool) (a : BitVec 5) (r : BitVec 8) : Statement (.mxr m a r) := fun hw _ =>
  decode_encodeWord rfl (mem_rowsEngine1 13 rfl) (Row.selects_of rfl BitVec.and_zero (show 0#5 &&& 31#5 = 0#5 by decide) (show 0#5 &&& 31#5 = 0#5 by decide) (segHi _ _ _ _ rfl rfl)) (congrArg (Instr.mxr m a) (seg25 r _)) hw
theorem ceStart (m : Bool) (a : BitVec 5) (b : BitVec 5) : Statement (.ceStart m a b) := fun hw _ =>
  decode_encodeWord rfl (mem_rowsEngine1 14 rfl) (Row.selects_of rfl BitVec.and_zero BitVec.and_zero (show 4#5 &&& 31#5 = 4#5 by decide) (show 0#10 &&& 1023#10 = 0#10 by decide)) rfl hw
theorem ceCancel (m : Bool) (a : BitVec 5) : Statement (.ceCancel m a) := fun hw _ =>
  decode_encodeWord rfl (mem_rowsEngine1 15 rfl) (Row.selects_of rfl BitVec.and_zero (show 0#5 &&& 31#5 = 0#5 by decide) (show 4#5 &&& 31#5 = 4#5 by decide) (show 1#10 &&& 1023#10 = 1#10 by decide)) rfl hw
theorem ceStat (m : Bool) (a : BitVec 5) (b : BitVec 5) : Statement (.ceStat m a b) := fun hw _ =>
  decode_encodeWord rfl (mem_rowsEngine1 16 rfl) (Row.selects_of rfl BitVec.and_zero BitVec.and_zero (show 4#5 &&& 31#5 = 4#5 by decide) (show 2#10 &&& 1023#10 = 2#10 by decide)) rfl hw
theorem vcdef (m : Bool) (a : BitVec 5) (b : BitVec 5) : Statement (.vcdef m a b) := fun hw _ =>
  decode_encodeWord rfl (mem_rowsEngine1 17 rfl) (Row.selects_of rfl BitVec.and_zero BitVec.and_zero (show 8#5 &&& 31#5 = 8#5 by decide) (show 0#10 &&& 1023#10 = 0#10 by decide)) rfl hw
theorem vcresize (m : Bool) (a : BitVec 5) (b : BitVec 5) : Statement (.vcresize m a b) := fun hw _ =>
  decode_encodeWord rfl (mem_rowsEngine1 18 rfl) (Row.selects_of rfl BitVec.and_zero BitVec.and_zero (show 8#5 &&& 31#5 = 8#5 by decide) (show 1#10 &&& 1023#10 = 1#10 by decide)) rfl hw
theorem vcflush (m : Bool) (a : BitVec 5) (b : BitVec 5) : Statement (.vcflush m a b) := fun hw _ =>
  decode_encodeWord rfl (mem_rowsEngine1 19 rfl) (Row.selects_of rfl BitVec.and_zero BitVec.and_zero (show 8#5 &&& 31#5 = 8#5 by decide) (show 2#10 &&& 1023#10 = 2#10 by decide)) rfl hw
theorem vcinv (m : Bool) (a : BitVec 5) (b : BitVec 5) : Statement (.vcinv m a b) := fun hw _ =>
  decode_encodeWord rfl (mem_rowsEngine2 0 rfl) (Row.selects_of rfl BitVec.and_zero BitVec.and_zero (show 8#5 &&& 31#5 = 8#5 by decide) (show 3#10 &&& 1023#10 = 3#10 by decide)) rfl hw
theorem vcstat (m : Bool) (a : BitVec 5) (b : BitVec 5) : Statement (.vcstat m a b) := fun hw _ =>
  decode_encodeWord rfl (mem_rowsEngine2 1 rfl) (Row.selects_of rfl BitVec.and_zero BitVec.and_zero (show 8#5 &&& 31#5 = 8#5 by decide) (show 4#10 &&& 1023#10 = 4#10 by decide)) rfl hw
theorem tlbfill (m : Bool) (a : BitVec 5) (b : BitVec 5) : Statement (.tlbfill m a b) := fun hw _ =>
  decode_encodeWord rfl (mem_rowsEngine2 2 rfl) (Row.selects_of rfl BitVec.and_zero BitVec.and_zero (show 8#5 &&& 31#5 = 8#5 by decide) (show 5#10 &&& 1023#10 = 5#10 by decide)) rfl hw
theorem tlbprobe (m : Bool) (a : BitVec 5) (b : BitVec 5) : Statement (.tlbprobe m a b) := fun hw _ =>
  decode_encodeWord rfl (mem_rowsEngine2 3 rfl) (Row.selects_of rfl BitVec.and_zero BitVec.and_zero (show 8#5 &&& 31#5 = 8#5 by decide) (show 6#10 &&& 1023#10 = 6#10 by decide)) rfl hw
theorem pblock (m : Bool) (a : BitVec 5) : Statement (.pblock m a) := fun hw _ =>
  decode_encodeWord rfl (mem_rowsEngine2 4 rfl) (Row.selects_of rfl BitVec.and_zero (show 0#5 &&& 31#5 = 0#5 by decide) (show 8#5 &&& 31#5 = 8#5 by decide) (show 7#10 &&& 1023#10 = 7#10 by decide)) rfl hw
theorem punblock (m : Bool) (a : BitVec 5) (b : BitVec 5) : Statement (.punblock m a b) := fun hw _ =>
  decode_encodeWord rfl (mem_rowsEngine2 5 rfl) (Row.selects_of rfl BitVec.and_zero BitVec.and_zero (show 8#5 &&& 31#5 = 8#5 by decide) (show 8#10 &&& 1023#10 = 8#10 by decide)) rfl hw
theorem tmark (m : Bool) (a : BitVec 5) : Statement (.tmark m a) := fun hw _ =>
  decode_encodeWord rfl (mem_rowsEngine2 6 rfl) (Row.selects_of rfl BitVec.and_zero (show 0#5 &&& 31#5 = 0#5 by decide) (show 12#5 &&& 31#5 = 12#5 by decide) (show 0#10 &&& 1023#10 = 0#10 by decide)) rfl hw
theorem hstart (m : Bool) (a : BitVec 5) (b : BitVec 5) (h : BitVec 4) : Statement (.hstart m a b h) := fun hw _ =>
  decode_encodeWord rfl (mem_rowsSystem1 0 rfl) (Row.selects_of rfl (show 0#5 &&& 31#5 = 0#5 by decide) BitVec.and_zero BitVec.and_zero (segLo _ _ _ _ rfl rfl)) (congrArg (Instr.hstart m a b) (seg26 h _)) hw
theorem hexit (m : Bool) (a : BitVec 5) : Statement (.hexit m a) := fun hw _ =>
  decode_encodeWord rfl (mem_rowsSystem1 1 rfl) (Row.selects_of rfl (show 0#5 &&& 31#5 = 0#5 by decide) BitVec.and_zero (show 0#5 &&& 31#5 = 0#5 by decide) (show 1#10 &&& 1023#10 = 1#10 by decide)) rfl hw
theorem hjoin (m : Bool) (d : BitVec 5) (h : BitVec 4) : Statement (.hjoin m d h) := fun hw _ =>
  decode_encodeWord rfl (mem_rowsSystem1 2 rfl) (Row.selects_of rfl BitVec.and_zero (show 0#5 &&& 31#5 = 0#5 by decide) (show 0#5 &&& 31#5 = 0#5 by decide) (segLo _ _ _ _ rfl rfl)) (congrArg (Instr.hjoin m d) (seg26 h _)) hw
theorem exit (m : Bool) (a : BitVec 5) : Statement (.exit m a) := fun hw _ =>
  decode_encodeWord rfl (mem_rowsSystem1 3 rfl) (Row.selects_of rfl (show 0#5 &&& 31#5 = 0#5 by decide) BitVec.and_zero (show 0#5 &&& 31#5 = 0#5 by decide) (show 3#10 &&& 1023#10 = 3#10 by decide)) rfl hw
theorem pusht (m : Bool) (a : BitVec 5) : Statement (.pusht m a) := fun hw _ =>
  decode_encodeWord rfl (mem_rowsSystem1 4 rfl) (Row.selects_of rfl (show 0#5 &&& 31#5 = 0#5 by decide) BitVec.and_zero (show 0#5 &&& 31#5 = 0#5 by decide) (show 4#10 &&& 1023#10 = 4#10 by decide)) rfl hw
theorem popt (m : Bool) (d : BitVec 5) : Statement (.popt m d) := fun hw _ =>
  decode_encodeWord rfl (mem_rowsSystem1 5 rfl) (Row.selects_of rfl BitVec.and_zero (show 0#5 &&& 31#5 = 0#5 by decide) (show 0#5 &&& 31#5 = 0#5 by decide) (show 5#10 &&& 1023#10 = 5#10 by decide)) rfl hw
theorem tcancel (m : Bool) (a : BitVec 5) : Statement (.tcancel m a) := fun hw _ =>
  decode_encodeWord rfl (mem_rowsSystem1 6 rfl) (Row.selects_of rfl (show 0#5 &&& 31#5 = 0#5 by decide) BitVec.and_zero (show 0#5 &&& 31#5 = 0#5 by decide) (show 6#10 &&& 1023#10 = 6#10 by decide)) rfl hw
theorem tpoll (m : Bool) (d : BitVec 5) : Statement (.tpoll m d) := fun hw _ =>
  decode_encodeWord rfl (mem_rowsSystem1 7 rfl) (Row.selects_of rfl BitVec.and_zero (show 0#5 &&& 31#5 = 0#5 by decide) (show 0#5 &&& 31#5 = 0#5 by decide) (show 7#10 &&& 1023#10 = 7#10 by decide)) rfl hw
theorem ctxid (m : Bool) (d : BitVec 5) : Statement (.ctxid m d) := fun hw _ =>
  decode_encodeWord rfl (mem_rowsSystem1 8 rfl) (Row.selects_of rfl BitVec.and_zero (show 0#5 &&& 31#5 = 0#5 by decide) (show 0#5 &&& 31#5 = 0#5 by decide) (show 8#10 &&& 1023#10 = 8#10 by decide)) rfl hw
theorem binit (m : Bool) (a : BitVec 5) (b : BitVec 5) : Statement (.binit m a b) := fun hw _ =>
  decode_encodeWord rfl (mem_rowsSystem1 9 rfl) (Row.selects_of rfl (show 0#5 &&& 31#5 = 0#5 by decide) BitVec.and_zero BitVec.and_zero (show 0#10 &&& 1023#10 = 0#10 by decide)) rfl hw
theorem barrive (m : Bool) (a : BitVec 5) : Statement (.barrive m a) := fun hw _ =>
  decode_encodeWord rfl (mem_rowsSystem1 10 rfl) (Row.selects_of rfl (show 0#5 &&& 31#5 = 0#5 by decide) BitVec.and_zero (show 0#5 &&& 31#5 = 0#5 by decide) (show 1#10 &&& 1023#10 = 1#10 by decide)) rfl hw
theorem bbeat (m : Bool) (a : BitVec 5) (b : BitVec 5) : Statement (.bbeat m a b) := fun hw _ =>
  decode_encodeWord rfl (mem_rowsSystem1 11 rfl) (Row.selects_of rfl (show 0#5 &&& 31#5 = 0#5 by decide) BitVec.and_zero BitVec.and_zero (show 2#10 &&& 1023#10 = 2#10 by decide)) rfl hw
theorem bwait (m : Bool) (a : BitVec 5) (b : BitVec 5) : Statement (.bwait m a b) := fun hw _ =>
  decode_encodeWord rfl (mem_rowsSystem1 12 rfl) (Row.selects_of rfl (show 0#5 &&& 31#5 = 0#5 by decide) BitVec.and_zero BitVec.and_zero (show 3#10 &&& 1023#10 = 3#10 by decide)) rfl hw
theorem bstat (m : Bool) (d : BitVec 5) (a : BitVec 5) : Statement (.bstat m d a) := fun hw _ =>
  decode_encodeWord rfl (mem_rowsSystem1 13 rfl) (Row.selects_of rfl BitVec.and_zero BitVec.and_zero (show 0#5 &&& 31#5 = 0#5 by decide) (show 4#10 &&& 1023#10 = 4#10 by decide)) rfl hw
theorem msend (m : Bool) (d : BitVec 5) (a : BitVec 5) (b : BitVec 5) : Statement (.msend m d a b) := fun hw _ =>
  decode_encodeWord rfl (mem_rowsSystem1 14 rfl) (Row.selects_of rfl BitVec.and_zero BitVec.and_zero BitVec.and_zero (show 0#10 &&& 1023#10 = 0#10 by decide)) rfl hw
theorem mdep (m : Bool) (a : BitVec 5) (b : BitVec 5) : Statement (.mdep m a b) := fun hw _ =>
  decode_encodeWord rfl (mem_rowsSystem1 15 rfl) (Row.selects_of rfl (show 0#5 &&& 31#5 = 0#5 by decide) BitVec.and_zero BitVec.and_zero (show 1#10 &&& 1023#10 = 1#10 by decide)) rfl hw
theorem waitm (m : Bool) : Statement (.waitm m) := fun hw _ =>
  decode_encodeWord rfl (mem_rowsSystem1 16 rfl) (Row.selects_of rfl (show 0#5 &&& 31#5 = 0#5 by decide) (show 0#5 &&& 31#5 = 0#5 by decide) (show 0#5 &&& 31#5 = 0#5 by decide) (show 2#10 &&& 1023#10 = 2#10 by decide)) rfl hw
theorem cred (m : Bool) (d : BitVec 5) (a : BitVec 5) (b : BitVec 5) (t : BitVec 2) (o : BitVec 2) : Statement (.cred m d a b t o) := fun hw _ =>
  decode_encodeWord rfl (mem_rowsSystem1 17 rfl) (Row.selects_of rfl BitVec.and_zero BitVec.and_zero BitVec.and_zero (credSel t o)) (congr (congrArg (Instr.cred m d a b) (seg27 t o _ _)) (seg28 t o _ _)) hw
theorem cmaxb (m : Bool) (d : BitVec 5) (a : BitVec 5) (b : BitVec 5) (t : BitVec 2) : Statement (.cmaxb m d a b t) := fun hw _ =>
  decode_encodeWord rfl (mem_rowsSystem1 18 rfl) (Row.selects_of rfl BitVec.and_zero BitVec.and_zero BitVec.and_zero (cmaxbSel t)) (congrArg (Instr.cmaxb m d a b) (seg29 t _ _)) hw
theorem csrr (m : Bool) (d : BitVec 5) (c : BitVec 12) : Statement (.csrr m d c) := fun hw _ =>
  decode_encodeWord rfl (mem_rowsSystem1 19 rfl) (Row.selects_of rfl BitVec.and_zero (show 0#5 &&& 31#5 = 0#5 by decide) (segHi _ _ _ _ rfl rfl) BitVec.and_zero) (congrArg (Instr.csrr m d) (seg10 c _)) hw
theorem csrw (m : Bool) (a : BitVec 5) (c : BitVec 12) : Statement (.csrw m a c) := fun hw _ =>
  decode_encodeWord rfl (mem_rowsSystem2 0 rfl) (Row.selects_of rfl (show 0#5 &&& 31#5 = 0#5 by decide) BitVec.and_zero (segHi _ _ _ _ rfl rfl) BitVec.and_zero) (congrArg (Instr.csrw m a) (seg10 c _)) hw
theorem csrs (m : Bool) (d : BitVec 5) (a : BitVec 5) (c : BitVec 12) : Statement (.csrs m d a c) := fun hw _ =>
  decode_encodeWord rfl (mem_rowsSystem2 1 rfl) (Row.selects_of rfl BitVec.and_zero BitVec.and_zero (segHi _ _ _ _ rfl rfl) BitVec.and_zero) (congrArg (Instr.csrs m d a) (seg10 c _)) hw
theorem csrc (m : Bool) (d : BitVec 5) (a : BitVec 5) (c : BitVec 12) : Statement (.csrc m d a c) := fun hw _ =>
  decode_encodeWord rfl (mem_rowsSystem2 2 rfl) (Row.selects_of rfl BitVec.and_zero BitVec.and_zero (segHi _ _ _ _ rfl rfl) BitVec.and_zero) (congrArg (Instr.csrc m d a) (seg10 c _)) hw
theorem trap (m : Bool) (i : BitVec 12) : Statement (.trap m i) := fun hw _ =>
  decode_encodeWord rfl (mem_rowsSystem2 3 rfl) (Row.selects_of rfl (show 0#5 &&& 31#5 = 0#5 by decide) (show 0#5 &&& 31#5 = 0#5 by decide) (segHi _ _ _ _ rfl rfl) BitVec.and_zero) (congrArg (Instr.trap m) (seg10 i _)) hw
theorem rtt (m : Bool) : Statement (.rtt m) := fun hw _ =>
  decode_encodeWord rfl (mem_rowsSystem2 4 rfl) (Row.selects_of rfl (show 0#5 &&& 31#5 = 0#5 by decide) (show 0#5 &&& 31#5 = 0#5 by decide) (show 20#5 &&& 31#5 = 20#5 by decide) (show 0#10 &&& 1023#10 = 0#10 by decide)) rfl hw
theorem halt (m : Bool) (d : BitVec 5) (a : BitVec 5) : Statement (.halt m d a) := fun hw _ =>
  decode_encodeWord rfl (mem_rowsSystem2 5 rfl) (Row.selects_of rfl BitVec.and_zero BitVec.and_zero (show 20#5 &&& 31#5 = 20#5 by decide) (show 1#10 &&& 1023#10 = 1#10 by decide)) rfl hw
theorem bkpt (m : Bool) : Statement (.bkpt m) := fun hw _ =>
  decode_encodeWord rfl (mem_rowsSystem2 6 rfl) (Row.selects_of rfl (show 0#5 &&& 31#5 = 0#5 by decide) (show 0#5 &&& 31#5 = 0#5 by decide) (show 20#5 &&& 31#5 = 20#5 by decide) (show 2#10 &&& 1023#10 = 2#10 by decide)) rfl hw
theorem resume (m : Bool) (d : BitVec 5) (a : BitVec 5) : Statement (.resume m d a) := fun hw _ =>
  decode_encodeWord rfl (mem_rowsSystem2 7 rfl) (Row.selects_of rfl BitVec.and_zero BitVec.and_zero (show 20#5 &&& 31#5 = 20#5 by decide) (show 3#10 &&& 1023#10 = 3#10 by decide)) rfl hw
theorem kill (m : Bool) (d : BitVec 5) (a : BitVec 5) : Statement (.kill m d a) := fun hw _ =>
  decode_encodeWord rfl (mem_rowsSystem2 8 rfl) (Row.selects_of rfl BitVec.and_zero BitVec.and_zero (show 20#5 &&& 31#5 = 20#5 by decide) (show 4#10 &&& 1023#10 = 4#10 by decide)) rfl hw
theorem migr (m : Bool) (d : BitVec 5) (a : BitVec 5) : Statement (.migr m d a) := fun hw _ =>
  decode_encodeWord rfl (mem_rowsSystem2 9 rfl) (Row.selects_of rfl BitVec.and_zero BitVec.and_zero (show 20#5 &&& 31#5 = 20#5 by decide) (show 5#10 &&& 1023#10 = 5#10 by decide)) rfl hw
theorem illegalEncoding (w : BitVec 32) : Statement (.illegalEncoding w) := fun _ h => by cases h
theorem resultWriteback (core ctx tag : Nat) (ecc : Option Nat) : Statement (.resultWriteback core ctx tag ecc) := fun _ h => by cases h
theorem translationInvalidation (id : Nat) : Statement (.translationInvalidation id) := fun _ h => by cases h
theorem translationInvalidationAck (id : Nat) : Statement (.translationInvalidationAck id) := fun _ h => by cases h
theorem ownershipRequest (id : Nat) : Statement (.ownershipRequest id) := fun _ h => by cases h
theorem recallCopy (id : Nat) : Statement (.recallCopy id) := fun _ h => by cases h
theorem invalidationAcknowledgement (id : Nat) : Statement (.invalidationAcknowledgement id) := fun _ h => by cases h
theorem grant (id : Nat) : Statement (.grant id) := fun _ h => by cases h
theorem bisnpResponse (id : Nat) (modified : Option (BitVec 1024)) : Statement (.bisnpResponse id modified) := fun _ h => by cases h
theorem stampedStoreAtHome (id : Nat) : Statement (.stampedStoreAtHome id) := fun _ h => by cases h
theorem stampedReadAtHome (id : Nat) : Statement (.stampedReadAtHome id) := fun _ h => by cases h
theorem staleTimeout (core ctx tag : Nat) : Statement (.staleTimeout core ctx tag) := fun _ h => by cases h
theorem backoffRetry (id : Nat) : Statement (.backoffRetry id) := fun _ h => by cases h
theorem blockedPageAccess (id : Nat) : Statement (.blockedPageAccess id) := fun _ h => by cases h
theorem replayAccess (id : Nat) : Statement (.replayAccess id) := fun _ h => by cases h
theorem hostCxlMemRead (addr n : Nat) : Statement (.hostCxlMemRead addr n) := fun _ h => by cases h
theorem hostCxlMemWrite (addr n : Nat) (data : BitVec 1024) : Statement (.hostCxlMemWrite addr n data) := fun _ h => by cases h
theorem load (id : Nat) : Statement (.load id) := fun _ h => by cases h
theorem store (id : Nat) : Statement (.store id) := fun _ h => by cases h
theorem atomic (id : Nat) : Statement (.atomic id) := fun _ h => by cases h
theorem cas2Packet (id : Nat) : Statement (.cas2Packet id) := fun _ h => by cases h
theorem enq (id : Nat) : Statement (.enq id) := fun _ h => by cases h
theorem chase (id : Nat) : Statement (.chase id) := fun _ h => by cases h
theorem withdraw (id : Nat) : Statement (.withdraw id) := fun _ h => by cases h
theorem data (id : Nat) : Statement (.data id) := fun _ h => by cases h
theorem ack (id : Nat) : Statement (.ack id) := fun _ h => by cases h
theorem nack (id : Nat) : Statement (.nack id) := fun _ h => by cases h
theorem fabricTimeout (core tag : Nat) : Statement (.fabricTimeout core tag) := fun _ h => by cases h
theorem packetDiscard (id : Nat) : Statement (.packetDiscard id) := fun _ h => by cases h
theorem tagGroupClose (port : Nat) : Statement (.tagGroupClose port) := fun _ h => by cases h
theorem tagFlit (port : Nat) (group : List Packet) (verified : Bool) : Statement (.tagFlit port group verified) := fun _ h => by cases h
theorem retransmitRequest (port group : Nat) : Statement (.retransmitRequest port group) := fun _ h => by cases h
theorem keyload : Statement .keyload := fun _ h => by cases h
theorem partitionDissolve : Statement .partitionDissolve := fun _ h => by cases h
theorem registerWrite (off : Nat) (v : BitVec 64) : Statement (.registerWrite off v) := fun _ h => by cases h
theorem rejCounterClear (fabric : Bool) : Statement (.rejCounterClear fabric) := fun _ h => by cases h
theorem domainWrite (core : Nat) (v : BitVec 64) : Statement (.domainWrite core v) := fun _ h => by cases h
theorem scrubComplete (id : Nat) : Statement (.scrubComplete id) := fun _ h => by cases h
theorem bsplitWrite (core : Nat) (v : BitVec 64) : Statement (.bsplitWrite core v) := fun _ h => by cases h
theorem iterWrite (core ctx : Nat) (v : BitVec 64) : Statement (.iterWrite core ctx v) := fun _ h => by cases h
theorem tshapeWrite (core : Nat) (t : BitVec 3) (v : BitVec 64) : Statement (.tshapeWrite core t v) := fun _ h => by cases h
theorem tsavepWrite (v : BitVec 64) : Statement (.tsavepWrite v) := fun _ h => by cases h
theorem mxstepWrite (core : Nat) (v : BitVec 64) : Statement (.mxstepWrite core v) := fun _ h => by cases h
theorem vcSetMigrated (vcid : Nat) : Statement (.vcSetMigrated vcid) := fun _ h => by cases h
theorem vcOperationComplete (vcid : Nat) : Statement (.vcOperationComplete vcid) := fun _ h => by cases h
theorem vcRetireComplete (vcid : Nat) : Statement (.vcRetireComplete vcid) := fun _ h => by cases h
theorem copyWindow (cluster ch : Nat) : Statement (.copyWindow cluster ch) := fun _ h => by cases h
theorem copyComplete (cluster ch : Nat) : Statement (.copyComplete cluster ch) := fun _ h => by cases h
theorem matrixStep (core : Nat) : Statement (.matrixStep core) := fun _ h => by cases h
theorem mmarCommand (id : Nat) : Statement (.mmarCommand id) := fun _ h => by cases h
theorem handlerMessageDelivery (id : Nat) : Statement (.handlerMessageDelivery id) := fun _ h => by cases h
theorem directedMessageDelivery (id : Nat) : Statement (.directedMessageDelivery id) := fun _ h => by cases h
theorem deposit (id : Nat) : Statement (.deposit id) := fun _ h => by cases h
theorem depositAnswer (id : Nat) : Statement (.depositAnswer id) := fun _ h => by cases h
theorem dispatch (core : Nat) : Statement (.dispatch core) := fun _ h => by cases h
theorem dispatchRoundTimer (core : Nat) : Statement (.dispatchRoundTimer core) := fun _ h => by cases h
theorem stealRequest (id : Nat) : Statement (.stealRequest id) := fun _ h => by cases h
theorem stealReply (id : Nat) : Statement (.stealReply id) := fun _ h => by cases h
theorem combiningContribution (id : Nat) : Statement (.combiningContribution id) := fun _ h => by cases h
theorem combiningTimeout (core gid : Nat) : Statement (.combiningTimeout core gid) := fun _ h => by cases h
theorem lateCount (id : Nat) : Statement (.lateCount id) := fun _ h => by cases h
theorem cmaxbRelease (id : Nat) : Statement (.cmaxbRelease id) := fun _ h => by cases h
theorem bwaitAnswer (id : Nat) : Statement (.bwaitAnswer id) := fun _ h => by cases h
theorem forwardedArrival (id : Nat) : Statement (.forwardedArrival id) := fun _ h => by cases h
theorem doorbell (q : Nat) (v : BitVec 64) : Statement (.doorbell q v) := fun _ h => by cases h
theorem ringEntryRead (q : Nat) : Statement (.ringEntryRead q) := fun _ h => by cases h
theorem queueEnable (q : Nat) : Statement (.queueEnable q) := fun _ h => by cases h
theorem queueDrain (q : Nat) : Statement (.queueDrain q) := fun _ h => by cases h
theorem queueDisable (q : Nat) : Statement (.queueDisable q) := fun _ h => by cases h
theorem queueKill (q : Nat) : Statement (.queueKill q) := fun _ h => by cases h
theorem launchEligible (q : Nat) : Statement (.launchEligible q) := fun _ h => by cases h
theorem launchPrepare (q : Nat) (resident : Bool) : Statement (.launchPrepare q resident) := fun _ h => by cases h
theorem launchComplete (q : Nat) : Statement (.launchComplete q) := fun _ h => by cases h
theorem powerOn (calibrated : Bool) : Statement (.powerOn calibrated) := fun _ h => by cases h
theorem bootgo (imageRead initialised : Bool) : Statement (.bootgo imageRead initialised) := fun _ h => by cases h
theorem attgo : Statement .attgo := fun _ h => by cases h
theorem gong (cluster : Nat) : Statement (.gong cluster) := fun _ h => by cases h
theorem release (cluster : Nat) : Statement (.release cluster) := fun _ h => by cases h
theorem counterClear (cluster : Nat) (late : Bool) : Statement (.counterClear cluster late) := fun _ h => by cases h
theorem trcdataRead (cluster : Nat) : Statement (.trcdataRead cluster) := fun _ h => by cases h
theorem traceGap (core : Nat) : Statement (.traceGap core) := fun _ h => by cases h
theorem powerMeasure (watts : Nat) : Statement (.powerMeasure watts) := fun _ h => by cases h
theorem thermalLimit (die celsius : Nat) : Statement (.thermalLimit die celsius) := fun _ h => by cases h
theorem writeBack (id : Nat) : Statement (.writeBack id) := fun _ h => by cases h
theorem hostAcknowledgement (id : Nat) : Statement (.hostAcknowledgement id) := fun _ h => by cases h
theorem adaptiveRoutingReenable (port : Nat) : Statement (.adaptiveRoutingReenable port) := fun _ h => by cases h

end Sys2Proof.Laws.RoundTrip
end

