-- ==== Sys2Proof/Laws/Retire.lean ====
section
/-! SUPPORT. What completing an instruction does: the marker's park, and the results of fixed latency. -/

namespace Sys2Proof.Machine

@[simp] theorem Ctx.advance_pc (y : Ctx) : y.advance.pc = y.nextPos.1 := rfl
@[simp] theorem Ctx.advance_rep (y : Ctx) : y.advance.rep = y.nextPos.2 := rfl
@[simp] theorem Ctx.advance_seq (y : Ctx) : y.advance.seq = y.seq + 1 := rfl
@[simp] theorem Ctx.advance_st (y : Ctx) : y.advance.st = .ready := rfl
@[simp] theorem Ctx.advance_wait (y : Ctx) : y.advance.wait = .none := rfl
@[simp] theorem Ctx.advance_ptrap (y : Ctx) : y.advance.ptrap = y.ptrap := rfl
@[simp] theorem Ctx.advance_globs (y : Ctx) : y.advance.globs = y.globs := rfl
@[simp] theorem Ctx.advance_vecs (y : Ctx) : y.advance.vecs = y.vecs := rfl
@[simp] theorem Ctx.advance_masks (y : Ctx) : y.advance.masks = y.masks := rfl
/-- Advancing moves position, state and the repetition, and nothing else. -/
theorem Ctx.advance_at (y : Ctx) : y.advance = y.At y.advance := rfl

/-- The context after an instruction completes with a marker or without. -/
def Ctx.retired (y : Ctx) (parked : Bool) : Ctx :=
  if parked then { y.advance with st := .parked, wait := .marker } else y.advance

@[simp] theorem Ctx.retired_pc (y : Ctx) (p : Bool) : (y.retired p).pc = y.advance.pc := by
  unfold Ctx.retired; split <;> rfl
@[simp] theorem Ctx.retired_rep (y : Ctx) (p : Bool) : (y.retired p).rep = y.advance.rep := by
  unfold Ctx.retired; split <;> rfl
@[simp] theorem Ctx.retired_st (y : Ctx) (p : Bool) : (y.retired p).st = if p then .parked else .ready := by
  unfold Ctx.retired; split <;> simp
theorem Ctx.retired_at (y : Ctx) (p : Bool) : y.retired p = y.At (y.retired p) := by
  unfold Ctx.retired; split <;> rfl
/-- Completing an instruction when no trap is due: the issuing context advances, and parks when the marker finds a result
outstanding. -/
theorem State.retire_eq (s : State) (m : Bool) (h : s.NoTrapDue m) :
    s.retire m = s.modMe fun y => y.retired (m && s.mine.resultsOut s.curCtx) := by
  unfold State.retire
  cases m with
  | false => simp [Ctx.retired]
  | true =>
    have hp : s.me.ptrap = none := h rfl
    have hr : ((s.modMe Ctx.advance).core s.curCore).resultsOut s.curCtx = s.mine.resultsOut s.curCtx := by
      simp [State.mine, Core.resultsOut, Core.opsOf]
    simp only [if_true, State.park, State.modMe_curCore, State.modMe_curCtx, hr, Bool.true_and]
    cases hb : s.mine.resultsOut s.curCtx with
    | true =>
      simp only [if_true]
      show (s.modCtx _ _ _).modCtx _ _ _ = _
      simp [Ctx.retired, State.modMe]
    | false =>
      have hq : ((s.modMe Ctx.advance).ctx s.curCore s.curCtx).ptrap = none := by simpa using hp
      simp only [State.endPark, hq, Ctx.retired, Bool.false_eq_true, if_false]
      show (s.modCtx _ _ _).modCtx _ _ _ = _
      simp only [State.modCtx_modCtx, State.modMe, Ctx.advance_st]
      rfl

/-! ### Results of fixed latency -/

@[simp] theorem State.byteAt_modMe (s : State) (f : Ctx → Ctx) (p : ByteAt) : (s.modMe f).byteAt p = s.byteAt p := by
  cases p with
  | hbm a => rfl
  | host a => rfl
  | tcm c o => simp only [State.byteAt, State.core_modMe]; split <;> simp_all [State.mine]
  | scratch c o => simp only [State.byteAt, State.core_modMe]; split <;> simp_all [State.mine]

@[simp] theorem State.byteAt_writeDst (s : State) (c x : Nat) (d : RegDst) (w : Word) (p : ByteAt) :
    (s.writeDst c x d w).byteAt p = s.byteAt p := by
  cases d <;> cases p <;> simp only [State.writeDst, State.byteAt, State.core_modCore, State.core_modCtx,
    State.modCore_hbm, State.modCore_hostMem, State.modCtx_hbm, State.modCtx_hostMem]
  all_goals split <;> simp_all

@[simp] theorem Core.resultsOut_setCtx (k : Core) (x z : Nat) (y : Ctx) : (k.setCtx x y).resultsOut z = k.resultsOut z := rfl
@[simp] theorem Core.resultsOut_setRam (k : Core) (e z : Nat) (w : Word) : (k.setRam e w).resultsOut z = k.resultsOut z := rfl

@[simp] theorem State.writeDst_curCore (s : State) (c x : Nat) (d : RegDst) (w : Word) :
    (s.writeDst c x d w).curCore = s.curCore := by cases d <;> rfl
@[simp] theorem State.writeDst_curCtx (s : State) (c x : Nat) (d : RegDst) (w : Word) :
    (s.writeDst c x d w).curCtx = s.curCtx := by cases d <;> rfl
@[simp] theorem State.resultsOut_writeDst (s : State) (c x a z : Nat) (d : RegDst) (w : Word) :
    ((s.writeDst c x d w).core a).resultsOut z = (s.core a).resultsOut z := by
  cases d <;> simp only [State.writeDst, State.core_modCore, State.core_modCtx] <;> split <;> simp_all
/-- A register write changes no field of its context but its globals. -/
theorem State.me_writeDst (s : State) (d : RegDst) (w : Word) :
    (s.writeDst s.curCore s.curCtx d w).me = { s.me with globs := (s.writeDst s.curCore s.curCtx d w).me.globs } := by
  cases d with
  | none => rfl
  | ram e => simp [State.me, State.writeDst, State.ctx]
  | glob j => simp [State.me, State.writeDst, Ctx.setGlob]

@[simp] theorem Ctx.retired_globs (y : Ctx) (p : Bool) : (y.retired p).globs = y.globs := by
  unfold Ctx.retired; split <;> simp
theorem Ctx.at_of_globs {y z : Ctx} (h : z = { y with globs := z.globs }) (w : Ctx) :
    z.At w = { y.At w with globs := z.globs } := by rw [h]; rfl
/-- Whether the context advances by a position depends on its position alone. -/
theorem Ctx.advance_of_globs {y z : Ctx} (h : z = { y with globs := z.globs }) :
    z.advance.pc = y.advance.pc ∧ z.advance.rep = y.advance.rep := by
  have e : z.pc = y.pc ∧ z.rep = y.rep := by rw [h]; exact ⟨rfl, rfl⟩
  simp only [Ctx.advance_pc, Ctx.advance_rep, Ctx.nextPos, e.1, e.2, and_self]

/-- Moving the issuing context's position keeps every register. -/
theorem State.readDst_moved (s : State) (p : Bool) (e : RegDst) :
    (s.modMe fun y => y.retired p).readDst s.curCore s.curCtx e = s.readDst s.curCore s.curCtx e := by
  cases e <;> simp [State.readDst, State.mine, State.me]

theorem State.frame_writeDst (s : State) (d : RegDst) (w : Word) (p : Bool) :
    s.ScalarFrame ((s.writeDst s.curCore s.curCtx d w).modMe fun y => y.retired p) d := by
  have hc : (s.writeDst s.curCore s.curCtx d w).curCore = s.curCore := by simp
  have hx : (s.writeDst s.curCore s.curCtx d w).curCtx = s.curCtx := by simp
  refine ⟨⟨?_, ?_⟩, ?_, ?_, ?_, ?_, ?_⟩
  · cases d <;> rfl
  · intro c h
    cases d <;> simp [State.writeDst, h]
  · simp only [State.mine, State.core_modMe, hc, hx, State.modMe_curCore, if_true]
    cases d <;> simp [State.writeDst, Core.setRam, Core.setCtx]
  · intro x h
    cases d <;> simp [State.writeDst, State.ctx, State.mine, h]
  · simp only [State.me_modMe]
    exact (Ctx.retired_at _ p).trans ((Ctx.at_of_globs (State.me_writeDst s d w) _).trans (by rw [Ctx.retired_globs]))
  · intro e h
    have := State.readDst_moved (s.writeDst s.curCore s.curCtx d w) p e
    rw [hc, hx] at this
    rw [this, State.readDst_writeDst, if_neg (by simp [h])]
  · intro q _; simp

/-- A register write is everything a scalar result of fixed latency changes besides the position. -/
theorem State.finish_spec (s : State) (m : Bool) (d : BitVec 5) (w : Word) (h : s.NoTrapDue m) :
    ∃ t, s.finish m d w = .next t ∧ s.ScalarFrame t (s.dst d) ∧ s.Advanced t m ∧
      t.readDst s.curCore s.curCtx (s.dst d) = if s.dst d = .none then 0 else w := by
  refine ⟨_, rfl, ?_⟩
  have hm := State.me_writeDst s (s.dst d) w
  have h' : (s.setReg d w).NoTrapDue m := fun e => by
    show (s.writeDst s.curCore s.curCtx (s.dst d) w).me.ptrap = none
    rw [hm]; exact h e
  rw [State.retire_eq _ _ h']
  refine ⟨State.frame_writeDst s (s.dst d) w _, ?_, ?_⟩
  · have ha := Ctx.advance_of_globs hm
    refine ⟨?_, ?_, ?_⟩
    · simp only [State.me_modMe]; rw [Ctx.retired_pc]; exact ha.1
    · simp only [State.me_modMe]; rw [Ctx.retired_rep]; exact ha.2
    · simp only [State.me_modMe, Ctx.retired_st]
      simp [State.setReg, State.mine]
  · have := State.readDst_moved (s.setReg d w) (m && (s.setReg d w).mine.resultsOut (s.setReg d w).curCtx) (s.dst d)
    simp only [State.setReg, State.writeDst_curCore, State.writeDst_curCtx] at this
    simp only [State.setReg, State.writeDst_curCtx]
    rw [this, State.readDst_writeDst]
    split <;> simp_all

@[simp] theorem Ctx.retired_vecs (y : Ctx) (p : Bool) : (y.retired p).vecs = y.vecs := by
  unfold Ctx.retired; split <;> rfl
@[simp] theorem Ctx.retired_masks (y : Ctx) (p : Bool) : (y.retired p).masks = y.masks := by
  unfold Ctx.retired; split <;> rfl
@[simp] theorem Ctx.vec_retired (y : Ctx) (p : Bool) (v : Nat) : (y.retired p).vec v = y.vec v := by simp [Ctx.vec]
@[simp] theorem Ctx.mask_retired (y : Ctx) (p : Bool) (k : Nat) : (y.retired p).mask k = y.mask k := by simp [Ctx.mask]

/-- Changing the issuing context alone. -/
theorem State.onlyMe_modMe (s : State) (f : Ctx → Ctx) : s.OnlyMe (s.modMe f) := by
  refine ⟨⟨rfl, ?_⟩, ?_, ?_⟩
  · intro c h; simp [h]
  · simp [Core.setCtx]
  · intro x h; simp [h]

/-- What completing an instruction that changed its own context by f amounts to. -/
theorem State.retire_modMe (s : State) (m : Bool) (f : Ctx → Ctx) (hp : ∀ y, (f y).ptrap = y.ptrap) (h : s.NoTrapDue m) :
    (s.modMe f).retire m = s.modMe fun y => (f y).retired (m && s.mine.resultsOut s.curCtx) := by
  rw [State.retire_eq _ _ (fun e => by simpa [hp] using h e)]
  simp

theorem State.advanced_modMe (s : State) (m : Bool) (f : Ctx → Ctx) (hf : ∀ y, (f y).nextPos = y.nextPos) :
    s.Advanced (s.modMe fun y => (f y).retired (m && s.mine.resultsOut s.curCtx)) m := by
  refine ⟨?_, ?_, ?_⟩ <;> simp [hf]

theorem State.finishV_spec (s : State) (m : Bool) (d : BitVec 5) (w : Vec) (h : s.NoTrapDue m) :
    ∃ t, s.finishV m d w = .next t ∧ s.VectorFrame t d ∧ s.Advanced t m ∧ t.me.vec d.toNat = w := by
  refine ⟨_, rfl, ?_⟩
  unfold State.setVreg
  rw [State.retire_modMe s m (fun x => x.setVec d.toNat w) (fun _ => rfl) h]
  refine ⟨⟨State.onlyMe_modMe .., ?_, ?_, ?_⟩, State.advanced_modMe s m (fun x => x.setVec d.toNat w) (fun _ => rfl), ?_⟩
  · simp only [State.me_modMe]
    exact (Ctx.retired_at _ _).trans (by rw [Ctx.retired_vecs]; rfl)
  · intro v hv; simp [hv]
  · intro q _; simp
  · simp

theorem Ctx.setMask_masks (y : Ctx) (k : Nat) (w : Word) : y.setMask k w = { y with masks := (y.setMask k w).masks } := by
  unfold Ctx.setMask; split <;> rfl
theorem Ctx.setMask_ptrap (y : Ctx) (k : Nat) (w : Word) : (y.setMask k w).ptrap = y.ptrap := by
  rw [Ctx.setMask_masks]
theorem Ctx.setMask_nextPos (y : Ctx) (k : Nat) (w : Word) : (y.setMask k w).nextPos = y.nextPos := by
  rw [Ctx.setMask_masks]; rfl

theorem State.finishK_spec (s : State) (m : Bool) (k : BitVec 3) (w : Word) (h : s.NoTrapDue m) :
    ∃ t, s.finishK m k w = .next t ∧ s.MaskFrame t k ∧ s.Advanced t m ∧
      t.me.mask k.toNat = if k = 0 then BitVec.allOnes 64 else w := by
  refine ⟨_, rfl, ?_⟩
  unfold State.setKreg
  rw [State.retire_modMe s m (fun x => x.setMask k.toNat w) (fun y => Ctx.setMask_ptrap ..) h]
  refine ⟨⟨State.onlyMe_modMe .., ?_, ?_, ?_⟩, State.advanced_modMe s m (fun x => x.setMask k.toNat w) (fun y => Ctx.setMask_nextPos ..), ?_⟩
  · simp only [State.me_modMe]
    exact (Ctx.retired_at _ _).trans (by rw [Ctx.retired_masks, Ctx.setMask_masks]; rfl)
  · intro j hj; simp [hj]
  · intro q _; simp
  · simp only [State.me_modMe, Ctx.mask_retired, Ctx.mask_setMask, and_true]
    by_cases hk : k = 0
    · subst k; simp
    · rw [if_neg hk, if_pos]
      intro e; exact hk (BitVec.eq_of_toNat_eq e)

/-- An instruction that only moves on. -/
theorem State.retire_moves (s : State) (m : Bool) (h : s.NoTrapDue m) : s.Moves (s.retire m) ∧ s.Advanced (s.retire m) m := by
  rw [State.retire_eq s m h]
  refine ⟨⟨State.onlyMe_modMe .., ?_, ?_⟩, State.advanced_modMe s m id (fun _ => rfl)⟩
  · simp only [State.me_modMe]; exact Ctx.retired_at _ _
  · intro q _; simp

end Sys2Proof.Machine
end

