-- ==== Sys2Proof/Tests/Slice0.lean ====
section
/-! SUPPORT. Tests: words written out from the spec's encodings, ill-formed terms, the spec's worked examples on single steps, and for
each statement with hypotheses a state and operands that meet them (the theorems named witness). -/

set_option Elab.async false

namespace Sys2Proof.Tests

open Sys2Proof.Machine

/-! ### Well-formedness: a term that each check refuses -/

/-- 06 R148: mode 3 of ldl; 07 R172: scope 6 and kind 5; 12 R246: float type 3; 12 R262: pairs of formats; 13 R275: register 6;
14 R291: helpers 0 and 11; 15 R328: type 3 and operation 3; 03 R79: an unassigned CSR. -/
theorem test_wf_refuses : [Instr.ldlW false 1 2 3 0 3, .ldlWu false 1 2 3 0 3, .ldlD false 1 2 3 0 3, .fence false 6 0, .fence false 0 5,
    .vfadd false 1 2 3 3 0, .vfsub false 1 2 3 3 0, .vfmul false 1 2 3 3 0, .vfma false 1 2 3 3 0, .vfnma false 1 2 3 3 0, .vfmin false 1 2 3 3 0,
    .vfmax false 1 2 3 3 0, .vfabs false 1 2 3 0, .vfneg false 1 2 3 0, .vfrcp false 1 2 3 0, .vfrsqrt false 1 2 3 0, .vfexp2 false 1 2 3 0,
    .vscale false 1 2 3 3 0, .vcmpEq false 1 2 3 3 0, .vcmpLt false 1 2 3 3 0, .vcmpLe false 1 2 3 3 0, .vcmpNe false 1 2 3 3 0,
    .vsel false 1 2 3 3 0, .vredsumFloat false 1 2 3 0, .vredmaxFloat false 1 2 3 0, .vredminFloat false 1 2 3 0,
    .vcvt false 1 2 6 0 0 6, .vcvt false 1 2 11 0 0 6, .vcvt false 1 2 6 0 0 0, .vquant false 1 3 11 0 0 8, .vquant false 1 2 8 0 0 8,
    .vquant false 1 2 11 0 0 5, .vdequant false 1 2 8 0 0 11, .vdequant false 2 2 9 0 0 11, .vdequant false 2 2 8 0 0 18,
    .mxw false 1 6, .mxr false 1 255, .hstart false 1 2 0, .hstart false 1 2 11, .hjoin false 1 0, .hjoin false 1 11,
    .cred false 1 2 3 3 0, .cred false 1 2 3 0 3, .cmaxb false 1 2 3 3, .csrr false 1 0, .csrw false 1 7, .csrs false 1 2 0x114,
    .csrc false 1 2 0x206].all (fun i => !i.wf) = true := by decide

/-- The bounds of the operands of events. -/
theorem test_wf_refuses_events : [Instr.divideComplete 8192, .resultWriteback 0 11 0 none, .resultWriteback 8192 0 0 none, .staleTimeout 0 11 0,
    .staleTimeout 8192 0 0, .hostCxlMemRead 0 0, .hostCxlMemRead 127 2, .hostCxlMemRead (2 ^ 40) 1, .hostCxlMemWrite 0 0 0, .hostCxlMemWrite 127 2 0,
    .hostCxlMemWrite (2 ^ 40) 1 0, .fabricTimeout 8192 0, .tagGroupClose 47, .tagFlit 47 [] true, .retransmitRequest 47 0, .domainWrite 8192 0,
    .bsplitWrite 8192 0, .iterWrite 0 11 0, .iterWrite 8192 0 0, .tshapeWrite 8192 0 0, .mxstepWrite 8192 0, .vcSetMigrated 256, .vcOperationComplete 256,
    .vcRetireComplete 256, .copyWindow 32 0, .copyWindow 0 32, .copyComplete 32 0, .copyComplete 0 32, .matrixStep 8192, .dispatch 8192,
    .dispatchRoundTimer 8192, .combiningTimeout 8192 0, .combiningTimeout 0 256, .doorbell 8192 0, .ringEntryRead 8192, .queueEnable 8192,
    .queueDrain 8192, .queueDisable 8192, .queueKill 8192, .launchEligible 8192, .launchPrepare 8192 true, .launchComplete 8192, .gong 32, .release 32,
    .counterClear 32 true, .trcdataRead 32, .traceGap 8192, .thermalLimit 8 0, .adaptiveRoutingReenable 47].all (fun i => !i.wf) = true := by
  decide

/-! ### Decoding: words written out from the encodings -/

/-- Whether a word decodes to an instruction. -/
def decodesTo (w : BitVec 32) (i : Instr) : Bool := match decode w with
  | .ok j => decide (j = i)
  | .error _ => false

/-- 11: the words that R234 to R243 give. -/
theorem test_decode_scalar : [(0x0329D001#32, Instr.sub false 18 19 20), (0x03088020#32, .clz false 16 17), (0x05087FFF#32, .addi false 16 16 (-1)),
    (0x11290004#32, .slli false 18 18 4), (0x1118823F#32, .srai false 17 17 63), (0x13012345#32, .lui false 16 0x12345), (0x150DFFFF#32, .lua false 16 0xDFFFF),
    (0x1904C404#32, .pidx false 16 9 17), (0x1984D400#32, .padd false 24 9 21), (0x19087F80#32, .paddi false 16 16 (-128)),
    (0x1708C804#32, .divq false 16 17 18), (0x97284407#32, .divrz true 18 16 17),
    (0x21000006#32, .beq false 16 0 6), (0x23107FFE#32, .bne false 17 0 (-2)), (0x2C000100#32, .j false 256), (0x2FFFFFFD#32, .jl false (-3)),
    (0x300F8000#32, .jr false 31), (0x313A0001#32, .jlr false 19 20), (0x32000005#32, .call false 5), (0x33090000#32, .callr false 18),
    (0xB4000000#32, .ret true)].all (fun p => decodesTo p.1 p.2) = true := by decide +kernel

/-- 06, 08: loads, stores, atomics, cache maintenance and iteration. -/
theorem test_decode_memory : [(0x41046008#32, Instr.ldD false 16 8 8), (0x4310C00C#32, .stW false 17 1 12), (0x40047080#32, .pref false 8 128),
    (0x474157FA#32, .ldlD false 20 2 21 63 2), (0x49014407#32, .amoadd false 16 2 17 1 3), (0x49014456#32, .cas false 16 2 17 1 2),
    (0x4811885D#32, .cas2 false 1 3 2 1 1), (0x4A098300#32, .cwb false 19), (0x452480A5#32, .lde false 18 9 165), (0x4E000001#32, .itadv false 1),
    (0x4E089000#32, .itset false 17 0), (0x4F002000#32, .itget false 16)].all (fun p => decodesTo p.1 p.2) = true := by decide +kernel

/-- 12: vector and mask instructions. -/
theorem test_decode_vector : [(0x50429A40#32, Instr.vadd false 4 5 6 2 2), (0x54080200#32, .vld false 0 16 2 0), (0x52108811#32, .vcmpLt false 1 1 2 0 0),
    (0x5A110C00#32, .kand false 1 2 3), (0x5A180004#32, .kmovToMask false 1 16)].all (fun p => decodesTo p.1 p.2) = true := by decide +kernel

/-- 09, 13: tiles, the matrix unit and the copy engine. -/
theorem test_decode_engines : [(0x60080000#32, Instr.tcfg false 0 16), (0x65089000#32, .ceStart false 16 17), (0x65001001#32, .ceCancel false 16),
    (0x65289002#32, .ceStat false 18 17)].all (fun p => decodesTo p.1 p.2) = true ∧ decodesTo 0x62042400#32 (.mma false 0 8 9 0) = true := by
  decide +kernel

/-- 04, 05, 14, 15, 17, 24: tasks, barriers, messages, caches, translation and the system instructions. -/
theorem test_decode_system : [(0x680844C0#32, Instr.hstart false 16 17 3), (0x68080001#32, .hexit false 16), (0x691000C2#32, .hjoin false 17 3),
    (0x68090003#32, .exit false 18), (0x6C184400#32, .msend false 1 16 17), (0x6A084400#32, .binit false 16 17), (0x65003000#32, .tmark false 16),
    (0x70004005#32, .trap false 5), (0x70005000#32, .rtt false), (0x7108D001#32, .halt false 16 17), (0x7108D003#32, .resume false 16 17),
    (0x7108D004#32, .kill false 16 17), (0x7108D005#32, .migr false 16 17), (0x70005002#32, .bkpt false),
    (0x71000001#32, .csrr false 16 1), (0x70089005#32, .csrw false 17 5)].all (fun p => decodesTo p.1 p.2) = true := by decide +kernel

/-- 03 R78: the words 0 and all ones are illegal. -/
theorem test_decode_illegal : instrOf 0 = .illegalEncoding 0 ∧ instrOf 0xFFFFFFFF = .illegalEncoding 0xFFFFFFFF := by decide +kernel

/-! ### Single steps -/

/-- The state that an outcome goes on with. -/
def after (o : Out) : State := match o with
  | .next t => t
  | _ => State.reset
/-- Context 0 of core 255 in supervisor mode, about to fetch a word from TCM offset 0x40. -/
def at255 (w : Nat) : State := State.reset.withFetchWord 32 w
/-- The same in user mode. -/
def user255 : State := (at255 0).modMe fun y => { y with mode := .user }
/-- With scalar registers set. -/
def withRegs (s : State) (l : List (Nat × Word)) : State := l.foldl (fun s p => s.setReg (BitVec.ofNat 5 p.1) p.2) s
/-- What the newest operation of the issuing core will write. -/
def lastResult (s : State) : Fin := match s.mine.ops.getLast? with
  | some o => o.fin
  | none => .none

/-- 11 R235: addi l0, x0, −1 from memory gives all ones and moves on by 4. -/
theorem test_step_addi : let t := after (step (at255 0x05007FFF))
    t.reg 16 = BitVec.allOnes 64 ∧ t.me.pc = 0x80000000000044 := by decide +kernel

/-- 11 R234: 0 − 1 wraps; sra fills with the sign; x0 discards. -/
theorem test_sub_wraps : (after (exec (.sub false 16 0 17) (withRegs (at255 0) [(17, 1)]))).reg 16 = 0xFFFFFFFFFFFFFFFF := by decide +kernel
theorem test_sra_sign : (after (exec (.sra false 16 16 17) (withRegs (at255 0) [(16, 0x8000000000000000), (17, 127)]))).reg 16 = 0xFFFFFFFFFFFFFFFF := by
  decide +kernel
theorem test_x0_discards : (after (exec (.addi false 0 0 5) (at255 0))).reg 0 = 0 := by decide +kernel
/-- 11 R236: lui sign-extends from bit 31; lua shifts by 20. -/
theorem test_lui_negative : (after (exec (.lui false 16 0x80000) (at255 0))).reg 16 = 0xFFFFFFFF80000000 := by decide +kernel
theorem test_lua : (after (exec (.lua false 16 0xABCDE) (withRegs (at255 0) [(16, 0x123)]))).reg 16 = 0x123ABCDE := by decide +kernel
/-- 11 R238: the high halves of products. -/
theorem test_mulhs : (after (exec (.mulhs false 16 16 17) (withRegs (at255 0) [(16, 0xFFFFFFFFFFFFFFFF), (17, 2)]))).reg 16 = 0xFFFFFFFFFFFFFFFF := by
  decide +kernel
theorem test_mulhsz : (after (exec (.mulhsz false 16 16 17) (withRegs (at255 0) [(16, 2), (17, 0xFFFFFFFFFFFFFFFF)]))).reg 16 = 1 := by decide +kernel

/-- The rows of the table of 11 R238: a, b, divq, divr, divqz, divrz. -/
def divisionRows : List (Word × Word × List Word) :=
  [(7, -2, [-3, 1, 0, 7]), (-7, 2, [-3, -1, 0x7FFFFFFFFFFFFFFC, 1]),
    (5, 0, [0x7FFFFFFFFFFFFFFF, 5, 0xFFFFFFFFFFFFFFFF, 5]), (-5, 0, [0x8000000000000000, -5, 0xFFFFFFFFFFFFFFFF, 0xFFFFFFFFFFFFFFFB]),
    (0x8000000000000000, -1, [0x7FFFFFFFFFFFFFFF, 0, 0, 0x8000000000000000])]
/-- 11 R238: the divisions of the spec's table. -/
theorem test_division : divisionRows.all (fun r => (([Instr.divq false 18 16 17, .divr false 18 16 17, .divqz false 18 16 17, .divrz false 18 16 17].map
    fun i => lastResult (after (exec i (withRegs (at255 0) [(16, r.1), (17, r.2.1)])))) ==
      (r.2.2.map fun w => Fin.ready [.scalar (.ram 10) w]))) = true := by decide +kernel

/-- 11 R241: the spec's table of pidx: three results, MISALIGN and ILLEGAL. -/
theorem test_pidx : ([(0x4000000000100000#64, -3#64), (0x7D00000000100000, 256), (0x8500000000100000, 64)].map fun p =>
      (after (exec (.pidx false 18 16 17) (withRegs (at255 0) [(16, p.1), (17, p.2)]))).reg 18) =
      [0x40000000000FFFF4, 0x7D00000000100088, 0x8500000000100038] ∧
    ([(0x7D00000000100000#64, 100#64), (0x7800000000100000, 128)].map fun p =>
      (after (exec (.pidx false 18 16 17) (withRegs (at255 0) [(16, p.1), (17, p.2)]))).me.ecause % 256) = [0x22, 0x20] := by decide +kernel

/-- 11 R242: bne to itself less two words, and not taken. -/
theorem test_bne : (after (exec (.bne false 17 0 (-2)) (withRegs (at255 0) [(17, 1)]))).me.pc = 0x80000000000038 ∧
    (after (exec (.bne false 17 0 (-2)) (at255 0))).me.pc = 0x80000000000044 := by decide +kernel
/-- 11 R243: jlr l3, l3 jumps to the old l3. -/
theorem test_jlr_same : let t := after (exec (.jlr false 19 19) (withRegs (at255 0) [(19, 0x1000)]))
    t.me.pc = 0x1000 ∧ t.reg 19 = 0x80000000000044 := by decide +kernel
/-- 10 R218: a call moves BASE by 16 and leaves the return address in l7. -/
theorem test_call : let t := after (exec (.call false 5) (at255 0))
    t.me.base = 16 ∧ t.reg 23 = 0x80000000000044 ∧ t.me.pc = 0x80000000000054 := by decide +kernel
/-- 10 R218, R219: ret of the oldest frame takes WIN_FILL, undeliverable with TVEC zero: ILLEGAL with INFO 0x80000002. -/
theorem test_ret_oldest : let t := after (exec (.ret false) (at255 0))
    t.me.st = .halted ∧ t.me.ecause = 0x8000000200000020 := by decide +kernel
/-- 10 R227: rep of two instructions taken in pass 1 with stride 1 turns l0 into l1. -/
theorem test_rotation : ({ Ctx.reset 0 with rep := some { base := 0, len := 2, count := 4, stride := 1, pos := 0, pass := 1, buf := [] } }).rotated 16 = 17 := by
  decide
/-- 03 R78: a zero word faults ILLEGAL with the word in INFO. -/
theorem test_step_illegal : (after (step (at255 0))).me.ecause = 0x20 ∧ (after (step (at255 0))).me.st = .halted := by decide +kernel

/-- 08 R178: a store, and a load of its bytes with the sign. -/
theorem test_store : let t := after (exec (.stH false 17 16 2) (withRegs (at255 0) [(16, 0x80000000000100), (17, 0x1FFEE)]))
    t.mine.tcm.read 0x102 2 = 0xFFEE ∧ t.mine.tcm.read 0x104 1 = 0 ∧ t.mine.tcm.read 0x101 1 = 0 := by decide +kernel
theorem test_load : (let s := withRegs (at255 0x1280) [(16, 0x80000000000040)]
    let t := after (exec (.ldB false 18 16 0) s)
    (after (exec (.resultWriteback 255 0 0 none) t)).reg 18) = 0xFFFFFFFFFFFFFF80 := by decide +kernel
/-- 08 R173: a misaligned store faults MISALIGN (0x22) with its address in EINFO. -/
theorem test_misaligned : let t := after (exec (.stW false 17 16 2) (withRegs (at255 0) [(16, 0x80000000000100)]))
    t.me.ecause = 0x22 ∧ t.me.einfo = 0x80000000000102 := by decide +kernel
/-- 08 R185: amomin on a word is signed; cas leaves a word that differs. -/
theorem test_amomin : (after (exec (.amomin false 18 16 17 0 0) (withRegs (at255 5) [(16, 0x80000000000040), (17, 0xFFFFFFFF)]))).mine.tcm.read 0x40 4 = 0xFFFFFFFF := by
  decide +kernel
theorem test_cas_differs : (after (exec (.cas false 18 16 17 0 0) (withRegs (at255 5) [(16, 0x80000000000040), (17, 9), (18, 6)]))).mine.tcm.read 0x40 4 = 5 := by
  decide +kernel
/-- 06 R157: itadv is modulo 2^16. -/
theorem test_itadv : (after (exec (.itadv false 2) ((at255 0).modMe fun y => { y with iter := 0xFFFF }))).me.iter = 1 := by decide +kernel

/-- 12 R249: vadd.b wraps in each lane and masked-off lanes stay. -/
theorem test_vadd : let s := (((at255 0).setVreg 1 0x01FF).setVreg 2 0x0101).setKreg 1 1
    (after (exec (.vadd false 3 1 2 0 1) s)).vreg 3 = 0x0000 ∧ (after (exec (.vadd false 3 1 2 0 0) s)).vreg 3 = 0x0200 := by decide +kernel
/-- 12 R251: 1.0 + 2.0 is 3.0 in FP32; 12 R254: −0 equals +0. -/
theorem test_vfadd : lane 4 ((after (exec (.vfadd false 3 1 2 0 0) (((at255 0).setVreg 1 0x3F800000).setVreg 2 0x40000000))).vreg 3) 0 = 0x40400000 := by decide +kernel
theorem test_vcmp_zero : ((after (exec (.vcmpEq false 1 1 2 0 0) ((at255 0).setVreg 1 0x80000000))).kreg 1) = 0xFFFF := by decide +kernel
/-- 12 R260: vslide by 1 moves each lane down and brings a zero in. -/
theorem test_vslide : let t := after (exec (.vslide false 3 1 16 3 0) (withRegs ((at255 0).setVreg 1 (BitVec.ofNat 512 (5 * 2 ^ 64 + 7 * 2 ^ 448))) [(16, 1)]))
    lane 8 (t.vreg 3) 0 = 5 ∧ lane 8 (t.vreg 3) 6 = 7 ∧ lane 8 (t.vreg 3) 7 = 0 := by decide +kernel

/-- 14 R293: hexit of context 0 faults ILLEGAL; R304: ctxid of context 0 of core 255. -/
theorem test_hexit_zero : (after (exec (.hexit false 16) (at255 0))).me.st = .halted := by decide +kernel
theorem test_ctxid : (after (exec (.ctxid false 16) (at255 0))).reg 16 = 0xFF0 := by decide +kernel
/-- 14 R292: hstart puts b in the helper's first register. -/
theorem test_hstart : let t := after (exec (.hstart false 16 17 3) (withRegs (at255 0) [(16, 0x80000000000080), (17, 42)]))
    (t.ctx 255 3).st = .ready ∧ (t.ctx 255 3).pc = 0x80000000000080 ∧ t.regOf 255 3 8 = 42 := by decide +kernel
/-- 15 R316: the last arrival of two flips; one too many sets ABORT. -/
theorem test_arrivals : let o := (Obj.init 0 2 0, ()).1
    let p := (Obj.arrive o).1
    (Obj.arrive o).2 = false ∧ Obj.arr p = 1 ∧ (Obj.arrive p).2 = true ∧ Obj.gen (Obj.arrive p).1 = 1 ∧ Obj.abort (Obj.arrive (Obj.init 0 0 0)).1 = true := by
  decide +kernel
/-- 17 R358: halt of a dormant context gives 0 and leaves it; resume of one gives 1. -/
theorem test_halt_dormant : (after (exec (.halt false 16 17) (withRegs (at255 0) [(17, 0x2000)]))).reg 16 = 0 := by decide +kernel
theorem test_resume_dormant : (after (exec (.resume false 16 17) (withRegs (at255 0) [(17, 0x2000)]))).reg 16 = 1 := by decide +kernel
/-- 03 R77: csrw in user mode of a supervisor register, and halt, fault PRIV (0x21). -/
theorem test_priv : (after (exec (.csrw false 16 3) user255)).me.ecause = 0x21 ∧ (after (exec (.halt false 16 17) user255)).me.ecause = 0x21 := by decide +kernel
/-- 02 R55: LFSR takes 1 for 0. -/
theorem test_lfsr : (after (exec (.csrw false 0 0x011) (at255 0))).me.lfsr = 1 := by decide +kernel

/-- 24 R424: the spec's example: a marker three cycles after the last entry, with 0xA1. -/
theorem test_tmark : let s : State := { (withRegs (at255 0) [(16, 0xA1)]) with clock := 1003, dev := { Dev.reset with dbgen := 7 } }
    let s := (s.modDbg 0 fun d => { d with tren := true }).modCore 255 fun k => { k with traceLast := 1000, traceState := 0 }
    tget (after (exec (.tmark false 16) s)).mine.trace 0 0 = 0x40000003000000A1 := by decide +kernel
/-- 24 R412: the rate falls above PLIM, not below 4. -/
theorem test_power : let s : State := { State.reset with dev := { Dev.reset with ready := true, plim := 1000, rate := 4 } }
    (after (exec (.powerMeasure 1001) s)).dev.rate = 4 ∧ (after (exec (.powerMeasure 900) s)).dev.rate = 5 := by decide +kernel
/-- 24 R414: a failed calibration stops the module. -/
theorem test_stopped : ((after (exec (.powerOn true) State.reset)).bootStep false).mayRun = false := by decide +kernel
/-- 16 R333: a doorbell of a disabled queue only sets TAIL. -/
theorem test_doorbell : ((after (exec (.doorbell 3 9) State.reset)).queue 3).tail = 9 := by decide +kernel
/-- 01 R31: HOSTCFG keeps its 11 bits. -/
theorem test_hostcfg : (after (exec (.registerWrite 0x8008 0xFFFFFFFFFFFFFFFF) State.reset)).dev.hostcfg = 0x7FF := by decide +kernel

/-! ### Witnesses: states and operands that meet the hypotheses of the statements

Each theorem is named after the statement (or the part of one) whose hypotheses it shows to be met, in the order of its clauses. NoTrapDue, which
most of them ask, is witness_noTrap. Statements of several parts have the witnesses of their parts: JumpsAndCalls those of Jumps, CallsAndReturns and WindowTraps; Repetition of RepStarts, RepetitionCounts and
Names; MarkersAndLocalTraps of MarkerParks and LocalTraps; FaultDelivery of RemoteFaultHalts and IllegalEncodingFaults; TcmWrites and TcmReads of TcmAccess and Misaligned; IterationAndFences of Iteration and
Fences; HintsAndMaintenance of Prefetch and CacheMaintenance; TaskInstructions of Deques and TaskCancellation; and so on. DecodedWords, EncodeDecode, ResetState, MemOkReset and NothingElseStops ask nothing of a
state. -/

/-- An equation with a result is read off a test of that result. -/
theorem ok_of_test {ε α : Type} {r : Except ε α} {p : α → Bool} (h : (match r with | .ok a => p a | .error _ => false) = true) :
    ∃ a, r = .ok a ∧ p a = true := by
  cases r with
  | ok a => exact ⟨a, rfl, h⟩
  | error e => cases h

/-- A test that a result is none rules every result out. -/
theorem not_ok_of_test {ε α : Type} {r : Except ε α} (h : (match r with | .ok _ => true | .error _ => false) = false) (a : α) : r ≠ .ok a := by
  rintro rfl; cases h

/-- An equation with a done step at a home is read off a test of it. -/
theorem done_of_test {α : Type} {r : AtHome α} {p : State → α → Bool} (h : (match r with | .done v a => p v a | .busy _ => false) = true) :
    ∃ v a, r = .done v a ∧ p v a = true := by
  cases r with
  | done v a => exact ⟨v, a, rfl, h⟩
  | busy s => cases h

/-- No marker takes a trap in the state that the tests use. This is all that ScalarResults, Constants, PointerResults, VectorFixedResults, VectorFloatResults, DelayedVectorResults
and ContextIdentity ask, beside names that equations define. -/
theorem witness_noTrap : (at255 0).NoTrapDue true := fun _ => by decide +kernel
/-- The states that the tests use, with registers set. -/
def regs (l : List (Nat × Word)) : State := withRegs (at255 0) l
/-- An address in the TCM of core 255. -/
def tcmAt (o : Nat) : Word := BitVec.ofNat 64 (2 ^ 55 + o)

/-- Division: an idle and a busy divider; a division whose time has come. -/
theorem witness_Division : (at255 0).mine.divider = none ∧ ((at255 0).modCore 255 fun k => { k with divider := some 7 }).mine.divider.isSome ∧
    (let s : State := { after (exec (.divq false 18 16 17) (regs [(16, 7), (17, 2)])) with clock := 20 }; (s.core 255).divider = some 0 ∧ ∃ o ∈ (s.core 255).ops, (s.core 255).op? 0 = some o ∧ o.fin = .ready [.scalar (.ram 10) 3] ∧ o.due = some 20 ∧
        (s.ctx 255 o.ctx).wait = .none ∧ (s.core 255).depAt ≠ some s.clock) := by decide +kernel

/-- PointerIndex: a pointer that agrees with its BLOG, of both kinds; one that does not; a count that is no multiple of the block. -/
theorem witness_PointerIndex : (fmtCheckFails 8 0 = false ∧ fmtCheckFails 15 5 = false ∧ (11 ≤ 15 → (256 : Int) % blockElems 15 = 0)) ∧
    fmtCheckFails 15 0 = true ∧ (100 : Int) % blockElems 15 ≠ 0 := by decide +kernel

/-- Branches: outside a body with the comparison true and false, and inside a body. -/
theorem witness_Branches : (at255 0).me.rep = none ∧ decide ((at255 0).reg 16 = (at255 0).reg 17) = true ∧ decide ((at255 0).reg 16 ≠ (at255 0).reg 17) = false ∧
    ((at255 0).modMe fun y => { y with rep := some { base := 0, len := 2, count := 4, stride := 1, pos := 0, pass := 1, buf := [] } }).me.rep ≠ none := by
  decide +kernel

/-- Jumps: an aligned and a misaligned target. -/
theorem witness_Jumps : (at255 0).me.rep = none ∧ ((regs [(16, 8)]).reg 16).toNat % 4 = 0 ∧ ((regs [(16, 10)]).reg 16).toNat % 4 ≠ 0 := by decide +kernel

/-- A context in a frame above its oldest one. -/
def called : State := after (exec (.call false 5) (at255 0))
/-- CallsAndReturns: room for one frame, with exactly 40 entries of the ring in use after it; an aligned return address above the oldest frame. -/
theorem witness_CallsAndReturns : ringOk (at255 0).me ∧ (at255 0).me.rshi.toNat ≤ 4096 ∧
    (let y := { (at255 0).me with base := 328 }; ringOk y ∧ ((y.base.toNat : Int) - y.low.toNat) % y.ringN + 40 ≤ y.ringN) ∧
    ringOk called.me ∧ called.me.rep = none ∧ (called.regOf called.curCore called.curCtx 23).toNat % 4 = 0 ∧ called.me.base ≠ called.me.low := by
  unfold ringOk; decide +kernel

/-- WindowTraps: a ring with less than 40 entries free; the oldest frame; a ring of fewer than 40 entries; aligned targets of each form. -/
theorem witness_WindowTraps : (let s := (at255 0).modMe fun y => { y with base := 336 };
      ringOk s.me ∧ s.me.ringN < ((s.me.base.toNat : Int) - s.me.low.toNat) % s.me.ringN + 40 ∧ s.me.pc.toNat % 4 = 0 ∧ (s.reg 16).toNat % 4 = 0) ∧
    (ringOk (at255 0).me ∧ ((at255 0).regOf 255 0 23).toNat % 4 = 0 ∧ (at255 0).me.base = (at255 0).me.low) ∧
    (let s := (at255 0).modMe fun y => { y with rshi := 32 };
      ¬ ringOk s.me ∧ s.me.pc.toNat % 4 = 0 ∧ (s.reg 16).toNat % 4 = 0 ∧ (s.regOf s.curCore s.curCtx 23).toNat % 4 = 0) := by
  unfold ringOk; decide +kernel

/-- RepStarts: a body of 16 instructions that ends the TCM. -/
theorem witness_RepStarts : let s := (at255 0).modMe fun y => { y with pc := 0x8000000000FFBC }
    s.me.rep = none ∧ s.me.fetched = [] ∧ s.me.pc.toNat = 2 ^ 55 + 0xFFBC ∧ 0xFFBC + 4 * (15 + 2) ≤ 0x10000 := by decide +kernel

/-- RepetitionCounts: a repetition of two instructions, three times, about to begin. -/
theorem witness_RepetitionCounts : let r : RepRun := { base := 8, len := 2, count := 3, stride := 1, pos := 0, pass := 0, buf := [] }
    let y : Ctx := { Ctx.reset 0 with rep := some r, pc := 8 }
    y.rep = some r ∧ r.pos = 0 ∧ r.pass = 0 ∧ 0 < r.len ∧ 0 < r.count ∧ y.pc = r.base := by decide +kernel

/-- RotatedNames and WindowNamesDiffer: a context in a body, and a ring of 24 entries, with the first and the last name. -/
theorem witness_Names : (∃ r, ({ Ctx.reset 0 with rep := some { base := 8, len := 2, count := 3, stride := 1, pos := 0, pass := 0, buf := [] } } : Ctx).rep = some r) ∧
    (let y : Ctx := { Ctx.reset 0 with rshi := 24 }; 24 ≤ y.ringN ∧ y.rshi.toNat ≤ 4096 ∧ 8 ≤ 31 ∧ 31 ≤ 31 ∧ 8 ≤ 8) := ⟨⟨_, rfl⟩, by decide +kernel⟩

/-- A context with a load outstanding. -/
def loading : State := after (exec (.ldB false 18 16 0) (withRegs (at255 0x1280) [(16, tcmAt 0x40)]))
/-- A context with a handler. -/
def handled : State := (at255 0).modMe fun y => { y with tvec := 0x1000 }
/-- A context with a handler and a pending trap. -/
def trapDue : State := handled.modMe fun y => { y with ptrap := some ({ code := 3, epc := 0, einfo := 7, wpend := 0 }, 0) }
/-- MarkerParks. -/
theorem witness_MarkerParks : loading.mine.resultsOut loading.curCtx = true ∧ trapDue.mine.resultsOut trapDue.curCtx = false ∧ trapDue.me.ptrap.isSome ∧
    (trapDue.me.tvec >>> 2).setWidth 54 ≠ 0#54 ∧ trapDue.me.inh = false ∧ (at255 0).mine.resultsOut (at255 0).curCtx = false ∧ (at255 0).me.ptrap = none := by
  decide +kernel
/-- LocalTrapEntry and UndeliverableTrap: a handler; no handler; a handler that a trap interrupts. -/
theorem witness_LocalTraps : handled.mine.resultsOut handled.curCtx = false ∧ (handled.me.tvec >>> 2).setWidth 54 ≠ 0#54 ∧ handled.me.inh = false ∧
    ((at255 0).me.tvec >>> 2).setWidth 54 = 0#54 ∧ (handled.modMe fun y => { y with inh := true }).me.inh = true ∧
    (handled.modMe fun y => { y with inh := true }).mine.resultsOut handled.curCtx = false := by decide +kernel

/-- RemoteFaultHalts: a context with nothing outstanding. -/
theorem witness_RemoteFaultHalts : (at255 0).mine.opsOf (at255 0).curCtx = [] ∧ (∀ q, (at255 0).me.wait ≠ .drain q) ∧ (at255 0).curCore < 8192 := by
  have h : (at255 0).me.wait = .none := by decide +kernel
  exact ⟨by decide +kernel, fun q => (by rw [h]; exact Wait.noConfusion), by decide +kernel⟩
/-- IllegalEncodingFaults: a word that decodes to nothing. -/
theorem witness_IllegalEncodingFaults : ∀ i, decode 0 ≠ .ok i :=
  not_ok_of_test (show (match decode 0 with | .ok _ => true | .error _ => false) = false by decide +kernel)
/-- TrapAndReturn: returns after a spill, a fill and neither, with and without a repetition. -/
theorem witness_TrapAndReturn : (at255 0).me.rep = none ∧ (at255 0).me.ptrap = none ∧ (at255 0).me.wpend = 0 ∧ 0 < (at255 0).me.ringN ∧
    ({ (at255 0).me with wpend := 1 } : Ctx).wpend = 1 ∧ ({ (at255 0).me with wpend := 2 } : Ctx).wpend = 2 ∧
    (at255 0).me.repst.getLsbD 63 = false ∧ ({ (at255 0).me with repst := 0x8000000000000000 } : Ctx).repst.getLsbD 63 = true := by decide +kernel

/-- No acquire is left and no watchpoint matches in a state without operations and without breakpoints enabled. -/
theorem accessFree_of (s : State) (va : Addr) (n : Nat) (rd wr : Bool) (h : s.watchHit va n rd wr = none) (ho : s.mine.opsOf s.curCtx = []) :
    s.AccessFree va n rd wr := ⟨h, by rw [ho]; intro o h; cases h⟩

/-- A test state with an address in register 16. -/
def ptr (o : Nat) : State := regs [(16, tcmAt o)]

/-- TcmLoads, TcmStores, TcmStampedLoads: the last doubleword of the TCM, read and written, by a release as well. -/
theorem witness_TcmAccess : (let s := ptr 0xFFF8
    TcmAddr (baseOff (s.reg 16) 0) (tcmOff (baseOff (s.reg 16) 0)) 8 ∧ TcmAddr (ptrVa (s.reg 16)) (tcmOff (ptrVa (s.reg 16))) 8 ∧
    s.AccessFree (baseOff (s.reg 16) 0) 8 true false ∧ s.AccessFree (baseOff (s.reg 16) 0) 8 false true ∧ s.Released ∧ s.AfterReleases) :=
  ⟨⟨by decide +kernel, by decide +kernel, by decide +kernel⟩, ⟨by decide +kernel, by decide +kernel, by decide +kernel⟩,
    accessFree_of _ _ _ _ _ (by decide +kernel) (by decide +kernel), accessFree_of _ _ _ _ _ (by decide +kernel) (by decide +kernel),
    by unfold State.Released; decide +kernel, by unfold State.AfterReleases; decide +kernel⟩
/-- MisalignedAccessFaults. -/
theorem witness_Misaligned : (baseOff ((ptr 0x101).reg 16) 0).toNat % 2 ≠ 0 ∧ (baseOff ((ptr 0x104).reg 16) 0).toNat % 8 ≠ 0 := by decide +kernel
/-- PrefetchMovesOn: a local address, and one that no entry translates. -/
theorem witness_Prefetch : (baseOff ((ptr 0x100).reg 16) 0).getLsbD 55 = true ∧
    ((at255 0).tlb (at255 0).curCore (at255 0).mine.domain (decide ((at255 0).me.mode = .supervisor)) (baseOff ((at255 0).reg 16) 0).toNat).1 = none := by
  decide +kernel

/-- A pointer to FP32 elements in the TCM. -/
def fp32Ptr : State := regs [(16, 0x4080000000000100)]
/-- ElementAccesses: an FP32 element; a pointer whose BLOG disagrees; a block of EC8. -/
theorem witness_ElementAccesses : (ptrFmt (fp32Ptr.reg 16) < 11 ∧ ptrBlog (fp32Ptr.reg 16) = 0 ∧ 4 = elemBytes (ptrFmt (fp32Ptr.reg 16)) ∧
      TcmAddr (ptrVa (fp32Ptr.reg 16) + BitVec.ofInt 56 (4 * (1 : BitVec 12).toInt)) (tcmOff (ptrVa (fp32Ptr.reg 16) + BitVec.ofInt 56 (4 * (1 : BitVec 12).toInt))) 4 ∧
      fp32Ptr.AccessFree (ptrVa (fp32Ptr.reg 16) + BitVec.ofInt 56 (4 * (1 : BitVec 12).toInt)) 4 true false ∧
      fp32Ptr.AccessFree (ptrVa (fp32Ptr.reg 16) + BitVec.ofInt 56 (4 * (1 : BitVec 12).toInt)) 4 false true ∧
      (ptrVa (fp32Ptr.reg 16)).toNat % 4 = 0 ∧ ¬ (fp32Ptr.me.rmode = 4 ∧ 6 ≤ ptrFmt (fp32Ptr.reg 16))) ∧
    fmtCheckFails (ptrFmt ((regs [(16, 0x7880000000000100)]).reg 16)) (ptrBlog ((regs [(16, 0x7880000000000100)]).reg 16)) = true ∧
    ptrFmt ((regs [(16, 0x8580000000000100)]).reg 16) = 16 :=
  ⟨⟨by decide +kernel, by decide +kernel, by decide +kernel, ⟨by decide +kernel, by decide +kernel, by decide +kernel⟩,
    accessFree_of _ _ _ _ _ (by decide +kernel) (by decide +kernel), accessFree_of _ _ _ _ _ (by decide +kernel) (by decide +kernel),
    by decide +kernel, by decide +kernel⟩, by decide +kernel, by decide +kernel⟩

/-- TcmAtomics and CompareSwapPair: words, doublewords and quads in the TCM, with a release; selectors 3 and 1. -/
theorem witness_Atomics : (let s := ptr 0xFFE0
    TcmAddr (ptrVa (s.reg 16)) (tcmOff (ptrVa (s.reg 16))) 4 ∧ TcmAddr (ptrVa (s.reg 16)) (tcmOff (ptrVa (s.reg 16))) 8 ∧
    TcmAddr (ptrVa (s.reg 16)) (tcmOff (ptrVa (s.reg 16))) 32 ∧ s.AccessFree (ptrVa (s.reg 16)) 32 true true ∧ s.AccessFree (ptrVa (s.reg 16)) 8 true true ∧
    s.AccessFree (ptrVa (s.reg 16)) 4 true true ∧ s.Released ∧ s.AfterReleases) ∧
    (let s := (ptr 0xFFE0).setVreg 2 (BitVec.ofNat 512 (3 * 2 ^ 448)); 3 ≤ bitsOf (s.vreg 2).toNat 448 64) ∧
    (let s := (ptr 0xFFE0).setVreg 2 (BitVec.ofNat 512 (2 ^ 448)); (ptrVa (s.reg 16)).getLsbD 55 = true ∧ (ptrVa (s.reg 16)).toNat % 8 = 0 ∧ bitsOf (s.vreg 2).toNat 448 64 = 1) :=
  ⟨⟨⟨by decide +kernel, by decide +kernel, by decide +kernel⟩, ⟨by decide +kernel, by decide +kernel, by decide +kernel⟩,
    ⟨by decide +kernel, by decide +kernel, by decide +kernel⟩, accessFree_of _ _ _ _ _ (by decide +kernel) (by decide +kernel),
    accessFree_of _ _ _ _ _ (by decide +kernel) (by decide +kernel), accessFree_of _ _ _ _ _ (by decide +kernel) (by decide +kernel),
    by unfold State.Released; decide +kernel, by unfold State.AfterReleases; decide +kernel⟩, by decide +kernel, by decide +kernel⟩

/-- An operation of context 0 of core 255. -/
def op0 : Op := (at255 0).newOp
/-- The state with operations outstanding on core 255. -/
def withOps (l : List Op) : State := (at255 0).modCore 255 fun k => { k with ops := l }
/-- A performed lane. -/
def lane0 : Lane := (at255 0).tcmLane 0 0x80000000000100 4 0x100
/-- What WritebackResults and VectorWriteback ask of an operation. -/
def Returns (s : State) (o : Op) : Bool :=
  decide ((s.core 255).op? 0 = some o) && decide (o.id = 0) && decide (o.ctx = 0) && decide ((s.core 255).divider ≠ some 0) && !o.windowLeft &&
    decide (o.fault = none) && !o.lagTrap && decide ((s.ctx 255 0).wait = .none) && decide ((s.core 255).depAt ≠ some s.clock)
/-- WritebackResults: a load, an atomic and a stamped load that have performed, and a cas2 of each form. -/
theorem witness_WritebackResults : [Fin.load (.ram 10) 4 true, .amo (.ram 10) 4, .ldl (.ram 10) (.ram 11) 4 false].all (fun f =>
      let o := { op0 with fin := f, lanes := [lane0] }; Returns (withOps [o]) o && decide (lane0.age = none) && lane0.done) = true ∧
    [true, false].all (fun quad => let l : Lane := { lane0 with op := .cas2 quad 5, n := if quad then 32 else 16 };
      let o := { op0 with fin := .cas2 3 quad, lanes := [l] }; Returns (withOps [o]) o && decide (l.age = none) && l.done) = true := by decide +kernel
/-- VectorWriteback: a delayed result, and a load of two active lanes. -/
theorem witness_VectorWriteback : (let o := { op0 with fin := .ready [.vec 3 7 0xFF] }; Returns (withOps [o]) o = true ∧ o.lanes = []) ∧
    (let g : Nat → Lane := fun L => { lane0 with ix := L }; let o := { op0 with fin := .vec 3, lanes := (activeLanes 3 (64 / 4)).map g }; Returns (withOps [o]) o = true ∧ ∀ L, (g L).ix = L ∧ (g L).n = 4 ∧ (g L).done = true ∧ (g L).age = none) :=
  ⟨by decide +kernel, by decide +kernel, fun _ => ⟨rfl, rfl, rfl, rfl⟩⟩

/-- A STAMPED write on its way. -/
def stampedOut : State := withOps [{ op0 with isStore := true, lanes := [{ lane0 with place := .unit 1 .stamped 0 0x10000, op := .write 1 255, done := false }] }]
/-- IterationInstructions: no STAMPED write out, and one out. -/
theorem witness_Iteration : (∀ o ∈ (at255 0).mine.opsOf 0, o.stampedWriteOut = false) ∧ ∃ o ∈ stampedOut.mine.opsOf 0, o.stampedWriteOut = true := by
  decide +kernel
/-- Fences: nothing out at kind all, a write out, and kind eng. -/
theorem witness_Fences : (at255 0).fenceDone 4 2 = true ∧ (at255 0).me.fenceErr = none ∧ stampedOut.fenceDone 5 2 = false ∧ stampedOut.me.fenceErr = none ∧
    (2 : BitVec 3).toNat ≠ 3 ∧ (3 : BitVec 3).toNat = 3 := by decide +kernel

/-- A page of VA 0x100000 at PA 0x10000, in cache 1. -/
def page (c : Cls) : TlbEnt := { vpn := 0x100, size := 0, pfn := 0x10, xwr := 7, sup := false, cls := c, vcid := 1, domain := 0, key := 0, srcs := [] }
/-- An ACTIVE cache of one share on core 0 that permits every class. -/
def cache1 : Cdr := { Cdr.reset with w0 := BitVec.ofNat 64 (2 ^ 63 + 2 * 2 ^ 60 + 3 * 2 ^ 45 + 7 * 2 ^ 37) }
/-- Core 255 translates that page, with registers set. -/
def mapped (c : Cls) (l : List (Nat × Word)) : State := withRegs { (at255 0).modCore 255 fun k => { k with l1tlb := [page c] } with cdrs := [(1, cache1)] } l
/-- An UNTRACKED copy of its first unit, with one dirty word. -/
def copy0 : Copy := { unit := 0x200, vcid := 1, cls := .untracked, key := 0, st := .i, data := 0, stamp := 0, dirty := 1, writers := [0], poison := false }
/-- A copy of the first unit of the page in the L1. -/
def holding : State := (mapped .untracked [(16, 0x100000)]).modCore 255 fun k => { k with l1 := [copy0] }
/-- CacheMaintenance: a local address, and a dirty UNTRACKED copy. -/
theorem witness_CacheMaintenance : (ptrVa ((ptr 0x100).reg 16)).getLsbD 55 = true ∧
    ∃ u, (ptrVa (holding.reg 16)).getLsbD 55 = false ∧ holding.tlb holding.curCore holding.mine.domain true (ptrVa (holding.reg 16)).toNat = (some (page .untracked), u) ∧
      (∃ t, u.checkEnt u.mine.domain true .read (page .untracked) (ptrVa (holding.reg 16)) = .ok t ∧ decide (t = .unit (page .untracked) 0x10000) = true) ∧
      holding.mine.opsOf holding.curCtx = [] ∧ u.mine.opsOf u.curCtx = [] ∧ u.mine.copy? (0x10000 / 128) .untracked = some copy0 ∧ copy0.dirty ≠ 0 ∧ u.me = holding.me ∧ u.curCore = holding.curCore ∧
      u.curCtx = holding.curCtx :=
  ⟨by decide +kernel, (holding.tlb holding.curCore holding.mine.domain true (ptrVa (holding.reg 16)).toNat).2, by decide +kernel, by decide +kernel,
    ok_of_test (by decide +kernel), by and_intros <;> decide +kernel⟩

/-- The state after the TLB has served a read of that page's first unit. -/
def served (s : State) : State := (s.tlb s.curCore s.mine.domain true (baseOff (s.reg 16) 0).toNat).2
/-- A page of a class that may not be read. -/
def unreadable : State := (mapped .tracked [(16, 0x100000)]).modCore 255 fun k => { k with l1tlb := [{ page .tracked with xwr := 0 }] }
/-- That page on device 3. -/
def farPage (c : Cls) : TlbEnt := { page c with pfn := 3 * 2 ^ 30 + 0x10 }
/-- Core 255 translates that page to device 3. -/
def remotePage (c : Cls) : State := (mapped c [(16, 0x100000)]).modCore 255 fun k => { k with l1tlb := [farPage c] }
/-- PrefetchFetches: an entry of each class and one that may not be read; a unit in the L1, one asked for, and one of each class that is neither; a STAMPED page of
another device. -/
theorem witness_PrefetchFetches : (∀ c ∈ [Cls.tracked, .stamped, .untracked], let s := mapped c [(16, 0x100000)]; let u := served s
      (baseOff (s.reg 16) 0).getLsbD 55 = false ∧ s.tlb s.curCore s.mine.domain true (baseOff (s.reg 16) 0).toNat = (some (page c), u) ∧
      u.foreignCopy u.curCore (.unit 1 c 0 0x10000) = none ∧ u.writingBack u.curCore 0x200 = false ∧ u.mine.copy? 0x200 c = none ∧
      u.requested u.curCore 1 0x200 = false ∧ u.canPerform u.curCore (prefetchLane (page c) 0x100000 0x10000) = false ∧
      u.mine.earlierOn u.curCtx (prefetchLane (page c) 0x100000 0x10000) = false ∧ (∀ q ∈ u.mine.ops, q.spent = false)) ∧
    (∀ c ∈ [Cls.tracked, .stamped, .untracked], ∃ t, (served (mapped c [(16, 0x100000)])).checkEnt 0 true .read (page c) 0x100000 = .ok t ∧
      decide (t = .unit (page c) 0x10000) = true) ∧
    (unreadable.tlb 255 0 true 0x100000).1 = some { page .tracked with xwr := 0 } ∧ (∀ t, unreadable.checkEnt 0 true .read { page .tracked with xwr := 0 } 0x100000 ≠ .ok t) ∧
    (let u : State := { served (mapped .tracked [(16, 0x100000)]) with net := [Flight.mk 9 .flying (.ownReq 0x200 1 0 255 .s)] }; u.requested 255 1 0x200 = true) ∧
    (let u := (served (mapped .untracked [(16, 0x100000)])).modCore 255 fun k => { k with l1 := [copy0] }; (u.mine.copy? 0x200 .untracked).isSome) ∧
    (∃ t, (served (remotePage .stamped)).checkEnt 0 true .read (farPage .stamped) 0x100000 = .ok t ∧ decide (t = .remote (farPage .stamped) (3 * 2 ^ 42 + 0x10000)) = true) ∧
    (let u := served (remotePage .stamped);
      ((remotePage .stamped).tlb 255 0 true 0x100000).1 = some (farPage .stamped) ∧ u.mine.copy? (remoteUnit (3 * 2 ^ 42 + 0x10000)) .stamped = none ∧
      u.mine.opsOf u.curCtx = [] ∧ (u.freeTags u.curCore 1).length = 1 ∧ ∀ q ∈ u.mine.ops, q.spent = false) := by
  refine ⟨by decide +kernel, fun c h => ?_, by decide +kernel, not_ok_of_test (by decide +kernel), by decide +kernel, by decide +kernel,
    ok_of_test (by decide +kernel), by decide +kernel⟩
  rcases c with _ | _ | _ <;> exact ok_of_test (by decide +kernel)

/-- ConversionResults: one pair of each kind, and FP32 in an even register. -/
theorem witness_Conversions : (Instr.vcvt false 1 2 6 0 0 8).wf = true ∧ (Instr.vquant false 1 2 11 0 0 6).wf = true ∧ (11 : BitVec 5).toNat ≠ 16 ∧
    (Instr.vdequant false 1 2 6 0 0 11).wf = true ∧ (6 : BitVec 5).toNat ≠ 8 ∧ (Instr.vdequant false 2 3 8 0 0 17).wf = true := by decide
/-- TcmVectorAccesses: two active words at the top of the TCM. -/
theorem witness_TcmVectorAccesses : let s := (ptr 0xFFF8).setKreg 1 3
    ∀ L ∈ activeLanes (s.kreg 1) (64 / 4), TcmAddr (ptrVa (s.reg 16) + BitVec.ofNat 56 (4 * L)) (tcmOff (ptrVa (s.reg 16) + BitVec.ofNat 56 (4 * L))) 4 ∧
      s.AccessFree (ptrVa (s.reg 16) + BitVec.ofNat 56 (4 * L)) 4 true false ∧ s.AccessFree (ptrVa (s.reg 16) + BitVec.ofNat 56 (4 * L)) 4 false true := by
  intro s L hL
  have h : activeLanes (s.kreg 1) (64 / 4) = [0, 1] := by decide +kernel
  rw [h] at hL
  have hw : ∀ n rd wr, s.watchHit n 4 rd wr = none := by
    intro n rd wr
    have : (s.dbgOf (clusterOf s.curCore)).bken = false := by decide +kernel
    simp [State.watchHit, this]
  have ho : s.mine.opsOf s.curCtx = [] := by decide +kernel
  rcases List.mem_cons.mp hL with rfl | hL
  · exact ⟨⟨by decide +kernel, by decide +kernel, by decide +kernel⟩, accessFree_of _ _ _ _ _ (hw _ _ _) ho, accessFree_of _ _ _ _ _ (hw _ _ _) ho⟩
  · rcases List.mem_singleton.mp hL with rfl
    exact ⟨⟨by decide +kernel, by decide +kernel, by decide +kernel⟩, accessFree_of _ _ _ _ _ (hw _ _ _) ho, accessFree_of _ _ _ _ _ (hw _ _ _) ho⟩

/-- The same for a claim, as an instruction makes it and as context 0 makes it. -/
theorem claimed_of_test {x : State × Claimed} {p : State → Nat → Bool} (h : (match x with | (u, .ok r) => p u r | _ => false) = true) :
    ∃ u r, x = (u, .ok r) ∧ p u r = true := by
  obtain ⟨u, r⟩ := x
  cases r with
  | ok r => exact ⟨u, r, rfl, h⟩
  | cancelled => cases h
  | wait => cases h
  | fault f => cases h
theorem claimM_of_test {ε : Type} {x : Except ε (Claimed × State)} {p : State → Nat → Bool}
    (h : (match x with | .ok (.ok r, u) => p u r | _ => false) = true) : ∃ u r, x = .ok (.ok r, u) ∧ p u r = true := by
  rcases x with e | ⟨c, u⟩
  · cases h
  · cases c with
    | ok r => exact ⟨u, r, rfl, h⟩
    | cancelled => cases h
    | wait => cases h
    | fault f => cases h
theorem cancelled_of_test {ε : Type} {x : Except ε (Claimed × State)} {p : State → Bool}
    (h : (match x with | .ok (.cancelled, u) => p u | _ => false) = true) : ∃ u, x = .ok (.cancelled, u) ∧ p u = true := by
  rcases x with e | ⟨c, u⟩
  · cases h
  · cases c with
    | cancelled => exact ⟨u, rfl, h⟩
    | ok r => cases h
    | wait => cases h
    | fault f => cases h

theorem fault_of_test {ε : Type} {x : Except ε (Claimed × State)} {p : State → Bool}
    (h : (match x with | .ok (.fault _, u) => p u | _ => false) = true) : ∃ f u, x = .ok (.fault f, u) ∧ p u = true := by
  rcases x with e | ⟨c, u⟩
  · cases h
  · cases c with
    | fault f => exact ⟨f, u, rfl, h⟩
    | ok r => cases h
    | wait => cases h
    | cancelled => cases h

/-- HelperContexts: a dormant helper and a live one; context 0 and another, quiet and not. -/
theorem witness_HelperContexts : (3 ≠ (at255 0).curCtx ∧ ((at255 0).ctx 255 3).st = .dormant ∧ ((ptr 0x40).reg 16).toNat % 4 = 0) ∧
    ((at255 0).modCtx 255 3 fun y => { y with st := .ready }).ctx 255 3 ≠ (at255 0).ctx 255 3 ∧
    (((at255 0).modCtx 255 3 fun y => { y with st := .ready }).ctx 255 3).st ≠ .dormant ∧ (at255 0).curCtx = 0 ∧
    (let s : State := { at255 0 with curCtx := 3 }; s.curCtx ≠ 0 ∧ s.quiet s.curCore s.curCtx = true ∧ s.NoTrapDue true) ∧
    (let s : State := { withOps [{ op0 with ctx := 3, fin := .load (.ram 10) 4 true, lanes := [lane0] }] with curCtx := 3 }; s.quiet s.curCore s.curCtx = false) := by
  unfold State.NoTrapDue; decide +kernel

/-- A page of records, the first of them with a flags word. -/
def records (c : Cls) (flags : Nat) (l : List (Nat × Word)) : State :=
  { mapped c l with hbm := Memory.write [] (0x10000 + 56) flags 8, umeta := [(0x200, { tag := some 0, key := none, stamp := 0, poison := false })] }
/-- Core 7, which is no service core, as core 255 stands. -/
def on7 (s : State) : State := { s with curCore := 7, cores := tset s.cores 7 (s.core 255) }
/-- TaskExit: no successor; a misaligned one; a record that is claimed; a cancelled one. -/
theorem witness_TaskExit : ((at255 0).me.rep = none ∧ (at255 0).curCtx = 0 ∧ ptrVa ((regs [(16, 0x100000000000000)]).reg 16) = 0 ∧
      (regs [(16, 0x100000000000000)]).reg 16 ≠ 0 ∧ (at255 0).mine.task = none ∧ (at255 0).mine.resultsOut 0 = false ∧ (at255 0).writesDone 255 0 = true ∧
      (∀ x, x < 11 → ((at255 0).ctx 255 x).creator = none) ∧ (ptrVa ((regs [(16, 32)]).reg 16)).toNat % 64 ≠ 0) ∧
    (∃ k, ReadsAtIssue (regs [(16, 32)]) [32] [32] k) ∧ (let s := (at255 0).modMe fun y => { y with kept := some (y.seq, y.pc, [64]) }; ReadsAtIssue s [0] [64] s) ∧
    SuccessorOf (regs [(16, 32)]) 32 32 ∧ SuccessorOf (at255 0) 0 0 ∧
    SuccessorOf ((at255 0).modCore 255 fun k => { k with exitSucc := some ((at255 0).me.seq, (at255 0).me.pc, 64) }) 0 64 ∧
    ((at255 0).isService 255 = true ∧ (on7 (at255 0)).isService 7 = false) ∧
    (∃ f u, claimM 0x100000 (on7 unreadable) = .ok (.fault f, u) ∧ decide (u.curCore = 7) = true) ∧
    (∃ u r, claimM 0x100000 (on7 (records .tracked 0 [])) = .ok (.ok r, u) ∧
      decide (u.curCore = 7 ∧ (taskWord r 0).toNat % 4 = 0 ∧ 6 ≤ (u.ctx 7 0).ringN ∧ (u.ctx 7 0).rshi.toNat ≤ 4096) = true) ∧
    (∃ u, claimM 0x100000 (on7 (records .tracked 8 [])) = .ok (.cancelled, u) ∧ decide (u.curCore = 7) = true) :=
  ⟨by decide +kernel, ⟨_, .inr ⟨by decide +kernel, rfl, rfl⟩⟩, .inl ⟨by decide +kernel, rfl⟩, .inl (by decide +kernel), .inr (.inr (by decide +kernel)),
    .inr (.inl (by decide +kernel)), by decide +kernel, fault_of_test (by decide +kernel), claimM_of_test (by decide +kernel), cancelled_of_test (by decide +kernel)⟩

/-- A result of an operation on a ring is read off a test of it. -/
theorem ring_of_test {α : Type} {x : RingAns α} {p : State → α → Bool} (h : (match x with | .ok u a => p u a | _ => false) = true) :
    ∃ u a, x = .ok u a ∧ p u a = true := by
  cases x with
  | ok u a => exact ⟨u, a, rfl, h⟩
  | wait s => cases h
  | bad s f => cases h

/-- A launch of one task, with its spill region at 0x100000. -/
def launch1 : Launch := { Launch.ofWords 1 (List.replicate 9 0 ++ [0x100000]) with st := .running, n := 1, count := 1 }
/-- Queue 1 with a running launch and a mask of die 0, cluster 0, all columns and rows. -/
def queue1 : Queue := { Queue.reset with w1 := BitVec.ofNat 64 (2 ^ 62), mask0 := BitVec.ofNat 64 (2 ^ 56 + 2 ^ 52 + 15 * 2 ^ 40 + 15 * 2 ^ 36 + 1), launch := some launch1 }
/-- Core 255 runs it, with a deque. -/
def launched (s : State) (d : List Nat) : State := { s.modCore 255 fun k => { k with queue := some 1, deque := d } with queues := [(1, queue1)] }
/-- With full hardware entries, some of the ring in use, and the ring at the page's first unit. -/
def spilling (hi : Nat) : State := (launched (records .tracked 0 [(16, 0x100000)]) (List.replicate 64 0)).modCore 255 fun k => { k with origin := some 0, ringHi := hi }
/-- DequeInstructions: a misaligned record; room in the hardware entries and in the ring; a full deque; an entry whose claim succeeds; no entry without and with
a victim; after a steal in the same cycle. -/
theorem witness_Deques : (ptrVa ((regs [(16, 32)]).reg 16)).toNat % 64 ≠ 0 ∧
    (let s := regs [(16, 0x100000)]; (ptrVa (s.reg 16)).toNat % 64 = 0 ∧ (ptrVa (s.reg 16)).getLsbD 55 = false ∧ s.writesDone s.curCore s.curCtx = true ∧
      s.mine.entries < 1088 ∧ s.mine.inOrder s.clock rankPush = true ∧ s.mine.deque.length < 64) ∧
    (let s := spilling 8; s.mine.entries < 1088 ∧ s.mine.inOrder s.clock rankPush = true ∧ 64 ≤ s.mine.deque.length ∧ s.writesDone s.curCore s.curCtx = true ∧
      ∃ u a, s.ringStore s.myAgent s.curCore s.mine.ringHi (s.mine.deque.drop (64 - spilled s.mine)).reverse = .ok u a ∧
        decide (u.me = s.me ∧ u.curCore = s.curCore ∧ u.curCtx = s.curCtx ∧
          (u.mine.deque, u.mine.ringLo, u.mine.ringHi) = (s.mine.deque, s.mine.ringLo, s.mine.ringHi) ∧ u.me.ptrap = none) = true) ∧
    1088 ≤ (spilling 1024).mine.entries ∧
    (let s := (at255 0).modCore 255 fun k => { k with takenAt := some ((at255 0).clock, rankSteal 3) }; s.mine.inOrder s.clock rankPush = false ∧ s.mine.inOrder s.clock rankPop = false) ∧
    (let s := launched (records .tracked 0 []) [0x100000]; s.mine.deque = [0x100000] ∧ s.mine.inOrder s.clock rankPop = true ∧ s.draining s.curCore = false ∧
        s.mine.steal = none ∧ s.me.wait = .none ∧ s.accessesDone s.curCore s.curCtx = true ∧ s.releasable s.curCore s.curCtx = true ∧
        ∃ u r, claimM (BitVec.ofNat 56 0x100000) s = .ok (.ok r, u) ∧ decide (u.me = s.me ∧ u.curCore = s.curCore ∧ u.curCtx = s.curCtx) = true) ∧
    ((at255 0).mine.entries = 0 ∧ (at255 0).mine.inOrder (at255 0).clock rankPop = true ∧ (at255 0).nextVictim (at255 0).curCore (victimOrder (at255 0).curCore) = none) ∧
    (let s := (launched (at255 0) []).modCore 7 fun k => { k with queue := some 1, deque := [64] }; s.mine.entries = 0 ∧ s.mine.inOrder s.clock rankPop = true ∧ (s.nextVictim s.curCore (victimOrder s.curCore)).isSome) :=
  ⟨by decide +kernel, by decide +kernel, ⟨by decide +kernel, by decide +kernel, by decide +kernel, by decide +kernel, ring_of_test (by decide +kernel)⟩,
    by decide +kernel, by decide +kernel, ⟨by decide +kernel, by decide +kernel, by decide +kernel, by decide +kernel, by decide +kernel, by decide +kernel,
      by decide +kernel, claimM_of_test (by decide +kernel)⟩, by decide +kernel, by decide +kernel⟩

/-- Core 255 with a launch and nothing on context 0. -/
def idle255 (d : List Nat) : State := (launched (records .tracked 0 []) d).modCtx 255 0 fun y => { y with st := .dormant }
/-- A message in flight. -/
def sending (s : State) (h : Hold) (p : Pkt) : State := { s with net := [Flight.mk 9 h p], nextId := 10 }
/-- Core 255 with an empty hardware deque and one entry in the ring. -/
def ringed : State := (launched (records .tracked 0 []) []).modCore 255 fun k => { k with origin := some 0, ringHi := 1 }
/-- DispatchAndStealing: an entry to start; the last one of a draining launch; a core that idles, before and after 1,024 cycles; steals from the hardware
entries, from the ring, in the cycle of a push, and with nothing to take; replies without a round and to a popt. -/
theorem witness_DispatchAndStealing : (let s := idle255 [0x100000]; s.dispatches 255 = true ∧ (s.core 255).task = none ∧ (s.core 255).steal = none ∧
      (s.core 255).deque = [0x100000] ∧ (s.core 255).inOrder s.clock rankPop = true ∧ s.draining 255 = false ∧
      ∃ u r, s.claimByC0 255 (BitVec.ofNat 56 0x100000) = (u, .ok r) ∧
        decide ((u.core 255).mxq = [] ∧ (taskWord r 0).toNat % 4 = 0 ∧ 6 ≤ (u.ctx 255 0).ringN ∧ (u.ctx 255 0).rshi.toNat ≤ 4096) = true) ∧
    (let s : State := { idle255 [0x100000] with queues := [(1, { queue1 with launch := some { launch1 with drained := true } })] }; s.dispatches 255 = true ∧
      (s.core 255).deque = [0x100000] ∧ (s.core 255).ringLen = 0 ∧ (s.core 255).inOrder s.clock rankPop = true ∧ s.draining 255 = true ∧
      (s.core 255).idleSince = none ∧ s.nextVictim 255 (victimOrder 255) = none ∧ (s.core 255).queue = some 1 ∧ (s.queue 1).launch.isSome) ∧
    (let s := idle255 []; s.dispatches 255 = true ∧ (s.core 255).task = none ∧ (s.core 255).steal = none ∧ (s.core 255).entries = 0 ∧
      s.nextVictim 255 (victimOrder 255) = none ∧ (s.core 255).idleSince = none ∧ s.clock < 0 + 1024) ∧
    (let s : State := { (idle255 []).modCore 255 fun k => { k with idleSince := some 0 } with clock := 1024 }; (s.core 255).idleSince = some 0 ∧ 0 + 1024 ≤ s.clock) ∧
    (let s := sending (launched (at255 0) [64, 128]) .flying (.steal 255 255); s.flight? 9 = some (Flight.mk 9 .flying (.steal 255 255)) ∧ s.forwarded 255 = 255 ∧
      (s.core 255).moving = false ∧ (s.core 255).inOrder s.clock (rankSteal 255) = true ∧ (s.core 255).ringLen = 0 ∧ (s.core 255).deque = [64] ++ [128] ∧ (s.core 255).queue = some 1) ∧
    (let s := sending ringed .flying (.steal 255 255); (s.core 255).ringLen ≠ 0 ∧ ∃ u e, s.ringRead (.msg 9) 255 (s.core 255).ringLo = .ok u e ∧ true = true) ∧
    (let s := (sending (launched (at255 0) [64]) .flying (.steal 255 3)).modCore 255 fun k => { k with takenAt := some ((at255 0).clock, rankSteal 7) };
      (s.core 255).queue.isSome ∧ (s.core 255).queue = (s.core (s.forwarded 255)).queue ∧ (s.core 255).inOrder s.clock (rankSteal 3) = false) ∧
    (let s := sending (launched (at255 0) []) .flying (.steal 255 255); (s.core 255).queue.isSome ∧ (s.core 255).entries = 0 ∧
      (s.core 255).inOrder s.clock (rankSteal 255) = true) ∧
    (let s := sending (launched (at255 0) []) .flying (.steal 255 7); (s.core 255).queue ≠ (s.core (s.forwarded 7)).queue ∧ (s.core 255).moving = false) ∧
    (let s := sending (at255 0) .flying (.stealReply 255 (some 64)); s.flight? 9 = some (Flight.mk 9 .flying (.stealReply 255 (some 64))) ∧ (s.core 255).steal = none ∧
      (s.core 255).entries < 1088 ∧ (s.core 255).inOrder s.clock rankPush = true ∧ (s.core 255).deque.length < 64) ∧
    (let s := (sending (at255 0) .flying (.stealReply 255 (some 64))).modCore 255 fun k => { k with steal := some { victims := [], forCtx := some 0, waiting := true, got := none } }
      let s := s.modCtx 255 0 fun y => { y with wait := .steal, st := .parked }
      (s.core 255).steal = some { victims := [], forCtx := some 0, waiting := true, got := none } ∧ (s.ctx 255 0).wait = .steal ∧ (s.ctx 255 0).st = .parked) :=
  ⟨⟨by decide +kernel, by decide +kernel, by decide +kernel, by decide +kernel, by decide +kernel, by decide +kernel, claimed_of_test (by decide +kernel)⟩, by decide +kernel,
    by decide +kernel, by decide +kernel, by decide +kernel, ⟨by decide +kernel, ring_of_test (by decide +kernel)⟩, by and_intros <;> decide +kernel⟩

/-- A running task. -/
def running : State := (records .tracked 0 []).modCore 255 fun k => { k with task := some 0x100000 }
/-- TaskCancellation: a record in the TCM; no task; a task whose flags word can be read. -/
theorem witness_TaskCancellation : (let s := ptr 0x100; TcmAddr (ptrVa (s.reg 16) + 56) (tcmOff (ptrVa (s.reg 16) + 56)) 8 ∧ s.AccessFree (ptrVa (s.reg 16) + 56) 8 true true) ∧
    (((at255 0).modCtx 255 0 fun y => { y with st := .dormant }).ctx 255 0).st = .dormant ∧ (running.ctx 255 0).st ≠ .dormant ∧
    running.AfterReleases ∧ ∃ a, recordWordM 56 running = .ok a ∧ decide (a.1 = some 0 ∧ a.2.me = running.me ∧ a.2.curCore = running.curCore ∧ a.2.curCtx = running.curCtx) = true :=
  ⟨⟨⟨by decide +kernel, by decide +kernel, by decide +kernel⟩, accessFree_of _ _ _ _ _ (by decide +kernel) (by decide +kernel)⟩, by decide +kernel, by decide +kernel,
    by unfold State.AfterReleases; decide +kernel, ok_of_test (by decide +kernel)⟩

/-- BarrierRules: an arrival that flips, one that does not, one too many, beats that flip and that do not. -/
theorem witness_BarrierRules : (let o := Obj.init 0 1 0; o < 2 ^ 256 ∧ Obj.arr o < Obj.exp o ∧ Obj.arr o + 1 = Obj.exp o ∧ Obj.beats o = 0) ∧
    (let o := Obj.init 0 2 0; Obj.arr o < Obj.exp o ∧ ¬ (Obj.arr o + 1 = Obj.exp o ∧ Obj.beats o = 0)) ∧ (let o := Obj.init 0 0 0; Obj.exp o ≤ Obj.arr o) ∧
    (let o := Obj.init 0 0 (2 ^ 32 - 1); Obj.arr o = Obj.exp o ∧ (Obj.beats o + 1) % 2 ^ 32 = 0) ∧
    (let o := Obj.init 0 1 5; ¬ (Obj.arr o = Obj.exp o ∧ (Obj.beats o + 1) % 2 ^ 32 = 0)) := by decide +kernel

/-- A page of objects, the first of them expecting one arrival, or poisoned. -/
def objects (psn : Bool) (l : List (Nat × Word)) : State :=
  { mapped .tracked l with hbm := Memory.write [] 0x10000 (Obj.init 0 1 0) 32, umeta := [(0x200, { tag := some 0, key := none, stamp := 0, poison := psn })] }
/-- Where nothing of a context has changed. -/
def Here (s u : State) : Bool := decide (u.me = s.me ∧ u.curCore = s.curCore ∧ u.curCtx = s.curCtx)
/-- Context 0 of core 255 as a home knows it. -/
def myself : Writer := (at255 0).myAgent
/-- What the checks of an object give. -/
def objectAt (rel : Bool) (s : State) : State := match objectM 16 rel (!rel) s with
  | .ok a => a.2
  | .error _ => s
/-- A home that takes a write where it stands is known by a test. -/
def takes (s : State) (vcid u : Nat) : Bool :=
  decide ((s.spot vcid u none).geo.policy ≠ 3) && decide ((s.vline? vcid (s.spot vcid u none)).isSome ∨ (s.cdr vcid).state ≤ 1 ∨ (s.spot vcid u none).geo.policy = 2) &&
    s.stWaiters.all fun w => decide (w.unit ≠ homeKey vcid u)
theorem homeReady_of_test {s : State} {vcid u : Nat} (h : takes s vcid u = true) : s.HomeReady vcid u := by
  simp only [takes, Bool.and_eq_true, decide_eq_true_eq, List.all_eq_true] at h
  exact ⟨h.1.1, h.1.2, h.2⟩
/-- The first unit of the page of objects at its home. -/
theorem seized : ∃ v, (objects false []).seize myself 1 0x200 true = .done v () ∧ v.HomeReady 1 0x200 ∧ (v.readVc 1 0x200 none).1.HomeReady 1 0x200 := by
  obtain ⟨v, _, e, h⟩ := done_of_test (r := (objects false []).seize myself 1 0x200 true)
    (p := fun v _ => takes v 1 0x200 && takes (v.readVc 1 0x200 none).1 1 0x200) (by decide +kernel)
  rw [Bool.and_eq_true] at h
  exact ⟨v, e, homeReady_of_test h.1, homeReady_of_test h.2⟩

/-- BarrierInstructions: an object that its checks accept, whole and poisoned; a generation that differs and one that does not; a context that waits. -/
theorem witness_BarrierInstructions : (∀ rel ∈ [true, false], ∃ a, objectM 16 rel (!rel) (objects false [(16, 0x100000)]) = .ok a ∧
        (decide (a.1 = (1, 0, 0x10000)) && Here (objects false [(16, 0x100000)]) a.2) = true) ∧
    (∃ v a, (objectAt true (objects false [(16, 0x100000)])).onObject myself 1 0 0x10000 Obj.arrive = .done v a ∧
      (decide (a.2 = false ∧ Obj.gen a.1 = 0) && Here (objects false [(16, 0x100000)]) v) = true) ∧
    (∃ v a, (objectAt true (objects true [(16, 0x100000)])).onObject myself 1 0 0x10000 Obj.arrive = .done v a ∧ decide (a.2 = true) = true) ∧
    (∃ v a, (objectAt false (objects false [(16, 0x100000)])).onObject myself 1 0 0x10000 (fun o => (o, false)) = .done v a ∧
      (decide (a.2 = false ∧ Obj.gen a.1 = fld ((objects false [(16, 0x100000)]).reg 17) 0 32 ∧ Obj.abort a.1 = false ∧ v.barrierWaiters (v.homeCore 1 0x200) < 64 ∧
        Obj.gen a.1 ≠ fld (1 : Word) 0 32) && Here (objects false [(16, 0x100000)]) v) = true) ∧
    ((∃ v, (objects false []).seize myself 1 0x200 true = .done v () ∧ (v.readVc 1 0x200 none).1.HomeReady 1 0x200) ∧ 0x10000 % 128 + 32 ≤ 128) ∧
    (let s := (sending (at255 0) .flying (.bwaitAns 255 0)).modCtx 255 0 fun y => { y with wait := .bwait 0x10000 true, st := .parked }; s.flight? 9 = some (Flight.mk 9 .flying (.bwaitAns 255 0)) ∧ s.forwarded 255 = 255 ∧ (s.ctx 255 0).wait = .bwait 0x10000 true ∧ (s.ctx 255 0).st = .parked ∧
      (s.ctx 255 0).ptrap = none) :=
  ⟨fun rel h => by
      rcases List.mem_cons.mp h with rfl | h
      · exact ok_of_test (by decide +kernel)
      · rcases List.mem_singleton.mp h with rfl; exact ok_of_test (by decide +kernel),
    done_of_test (by decide +kernel), done_of_test (by decide +kernel), done_of_test (by decide +kernel),
    ⟨seized.imp fun _ h => ⟨h.1, h.2.2⟩, by decide⟩, by decide +kernel⟩

/-- A store that has not performed. -/
def writing : State := withOps [{ op0 with isStore := true, lanes := [{ lane0 with place := .unit 1 .untracked 0 0x10000, op := .write 1 255, done := false }] }]
/-- MessageInstructions: descriptors of contexts 11, 10 and 15 and of global 0; user mode towards another domain; a present, a seen and no message; a write that has not performed. -/
theorem witness_MessageInstructions : (11 ≤ fld (BitVec.ofNat 64 (11 * 2 ^ 13)) 13 4 ∧ fld (BitVec.ofNat 64 (14 * 2 ^ 13)) 13 4 ≤ 14 ∧ fld (BitVec.ofNat 64 (10 * 2 ^ 13 + 2 ^ 17)) 13 4 < 11 ∧
      fld (BitVec.ofNat 64 (10 * 2 ^ 13 + 2 ^ 17)) 17 3 ≠ 0 ∧ fld (0 : Word) 17 3 = 0 ∧ fld (BitVec.ofNat 64 (15 * 2 ^ 13)) 13 4 = 15 ∧ ((at255 0).reg 17).toNat % 4 = 0) ∧
    (let s := user255.modCore 7 fun k => { k with domain := 5 }; s.me.mode = .user ∧ (s.core (s.forwarded 7)).domain ≠ s.mine.domain) ∧
    (∃ k, ReadsAtIssue (at255 0) [0, 0, 0] [0, 0, 0] k) ∧ (∃ k, ReadsAtIssue (at255 0) [0, 0] [0, 0] k) ∧
    ((at255 0).me.mode = .supervisor ∧ (at255 0).writesDone 255 0 = true ∧ writing.writesDone 255 0 = false) ∧
    (let y := { (at255 0).me with mpend := true, mseen := false }; y.mpend = true ∧ y.mseen = false) ∧ (at255 0).me.mpend = false ∧
    (let y := { (at255 0).me with mpend := true, mseen := true }; y.mpend = true ∧ y.mseen = true) :=
  ⟨by decide +kernel, by decide +kernel, ⟨_, .inr ⟨by decide +kernel, rfl, rfl⟩⟩, ⟨_, .inr ⟨by decide +kernel, rfl, rfl⟩⟩, by decide +kernel⟩

/-- MessageDelivery: a handler message with a slot and a helper, with neither, a directed message with a slot and without, a deposit, its two answers, and an
arrival at a vacated position. -/
theorem witness_MessageDelivery : (let s := launched (at255 0) []; let s := sending (s.modCore 255 fun k => { k with hmsg := 0x7FE }) .flying (.msg 255 none 0x80000000000080 7 0 0 true); s.deliverable 9 255 0 0 true = true ∧ s.forwarded 255 = 255 ∧ (s.core 255).freeSlot?.isSome ∧ (s.core 255).freeHelper?.isSome ∧ 2 ≤ (s.ctx 255 1).ringN ∧ (s.ctx 255 1).rshi.toNat ≤ 4096) ∧
    (let s := sending (launched (at255 0) []) .flying (.msg 255 none 0x80000000000080 7 0 0 true); s.deliverable 9 255 0 0 true = true ∧ (s.core 255).freeHelper? = none) ∧
    (let s := sending (launched (at255 0) []) .flying (.msg 255 (some 2) 0 7 0 0 true); s.deliverable 9 255 0 0 true = true ∧ (s.core 255).freeSlot?.isSome ∧ (s.ctx 255 2).mpend = false ∧ (s.core 255).moving = false) ∧
    (let s := (sending (launched (at255 0) []) .flying (.msg 255 (some 2) 0 7 0 0 true)).modCtx 255 2 fun y => { y with mpend := true }; s.deliverable 9 255 0 0 true = true ∧ (s.ctx 255 2).mpend = true) ∧
    (let s := (sending (launched (at255 0) []) .flying (.depAnswer 255 0 true)).modCtx 255 0 fun y => { y with wait := .deposit true, st := .held }; s.deliverable 9 255 0 0 true = true ∧ (s.ctx 255 0).wait = .deposit true ∧ (s.ctx 255 0).st = .held ∧ (s.ctx 255 0).ptrap = none ∧ (s.core 255).opsOf 0 = []) ∧
    (let s := sending (launched (at255 0) []) .flying (.deposit 255 2 1 7 255 0); s.deliverable 9 255 0 0 true = true ∧ (s.core 255).moving = false ∧
      s.flight? 9 = some (Flight.mk 9 .flying (.deposit 255 2 1 7 255 0)) ∧ (s.core 255).depAt ≠ some s.clock ∧
      ((s.modCore 255 fun k => { k with depAt := some s.clock }).core 255).depAt = some s.clock) ∧
    (let s := sending (launched (at255 0) []) .flying (.depAnswer 255 0 false); s.flight? 9 = some (Flight.mk 9 .flying (.depAnswer 255 0 false))) ∧
    (let s : State := { sending (at255 0) .flying (.bwaitAns 255 0) with fwds := [{ old := 255, new := 7, queue := 1 }] }; (Pkt.bwaitAns 255 0).target = some 255 ∧ s.fwds.find? (fun f => f.old == 255) = some { old := 255, new := 7, queue := 1 }) := by decide +kernel

/-- A launch whose group 5 has one rectangle, of cores 7 and 8. -/
def launch5 : Launch := { Launch.ofWords 1 [] with st := .running, n := 1, count := 1, groups := [[], [], [], [], [], [BitVec.ofNat 64 (2 ^ 56 + 2 ^ 52 + 7 * 2 ^ 48 + 2 ^ 40 + 1)]] }
/-- Queue 1 with group 5, of cores 7 and 8; core 255 is at the position of core 7 and belongs to it. -/
def grouped (s : State) : State :=
  { s.modCore 255 fun k => { k with queue := some 1, origin := some 7, grp := [(0, BitVec.ofNat 9 (256 + 5))] } with queues := [(1, { queue1 with launch := some launch5 })], tables := [(1, [[], [], [], [], [], [7, 8]])] }
/-- A contribution to an instance of it. -/
def contrib (inst kind : Nat) : Contrib :=
  { launch := 1, gid := 5, inst := inst, kind := kind, op := 0, ty := 2, val := 1, count := 1, timedOut := false, nan := false, ovf := false, member := 7,
    area := 0x10000, areaVcid := 1, areaKey := 0 }
/-- A router. -/
def routed (s : State) (pos : Nat) (r : Router) : State := s.modRouter pos fun _ => r
/-- A slot of an instance with what has come by two inputs. -/
def slot (inst : Nat) (got : List (Input × Contrib)) (due : Option Nat) : RSlot := RSlot.mk 1 5 inst got due
/-- A state in which the area translates, and what its checks give. -/
def inGroup (r : Router) : State := routed (grouped (mapped .tracked [(16, 5), (17, 0x100000)])) 7 r
def areaAt (s : State) : State := match trackedM .atomic 96 (ptrVa (s.reg 17)) (pastFences s) with
  | .ok a => a.2
  | .error _ => s
/-- An equation with a contribution that is taken is read off a test of it. -/
theorem taken_of_test {r : Taken} {p : State → Bool} (h : (match r with | .ok v => p v | _ => false) = true) : ∃ v, r = .ok v ∧ p v = true := by
  cases r with
  | ok v => exact ⟨v, rfl, h⟩
  | late s => cases h
  | wait s => cases h
  | refused => cases h
theorem waits_of_test {r : Taken} {p : State → Bool} (h : (match r with | .wait v => p v | _ => false) = true) : ∃ v, r = .wait v ∧ p v = true := by
  cases r with
  | wait v => exact ⟨v, rfl, h⟩
  | ok s => cases h
  | late s => cases h
  | refused => cases h
theorem refused_of_test {r : Taken} (h : (match r with | .refused => true | _ => false) = true) : r = .refused := by
  cases r with
  | refused => rfl
  | late s => cases h
  | wait s => cases h
  | ok s => cases h

/-- A state with what the checks of a contribution give kept. -/
def contributing (s : State) : State := (areaAt s).modMe fun y => { y with kept := some (y.seq, y.pc, [5, 0, 1, 0, 0x10000, ((areaAt s).vreg 1).toNat]) }
/-- A contribution of the issuing context to the group of `inGroup`. -/
def owned (s : State) (kind op inst : Nat) : Contrib := contribution (contributing s) kind 2 op 5 inst 7 1 0 0x10000 (s.vreg 1)
/-- What a router does with it. -/
def offered (s : State) (kind op inst : Nat) : Taken := (contributing s).routerTake (contributing s).myAgent 7 .own (owned s kind op inst)
/-- A router whose open slot is one instance behind, and one whose slot is of the same instance and whose member has contributed. -/
def lagging : Router := { Router.reset with slots := [slot 0 [(.own, contrib 0 0)] none], counters := [(0, 2)] }
/-- CollectiveInstructions: no group; a misaligned area; what the checks of a contribution give and what a held one has kept; contributions that enter, that
are taken, held and too far ahead; a release that has come first. -/
theorem witness_CollectiveInstructions : EngineFree (at255 0) ∧ (at255 0).me.keptNow = none ∧ (∀ j, j < 4 → (tget (at255 0).mine.grp j 0).toNat ≠ 256 + fld ((at255 0).reg 16) 0 8) ∧
    (let s := grouped (regs [(16, 5), (17, 64)]); s.mine.groupSlot (fld (s.reg 16) 0 8) = some 0 ∧ (ptrVa (s.reg 17)).toNat % 128 ≠ 0) ∧
    (let s := inGroup Router.reset; Contributes s (contributing s) 1 16 17 5 0 1 0 0x10000 (s.vreg 1) ∧
      Contributes (contributing s) (contributing s) 1 16 17 5 0 1 0 0x10000 (s.vreg 1) ∧
      (contributing s).mine.origin.getD (contributing s).curCore = 7 ∧ tget ((contributing s).router 7).counters 0 0 = 0 ∧
      (∃ slots, Enters (contributing s) 7 .own (owned s 0 0 0) slots) ∧ (∃ slots, Enters (contributing s) 7 .own (owned s 1 1 0) slots) ∧
      (∃ v, offered s 0 0 0 = .ok v ∧ Here (contributing s) v = true) ∧ (∃ v, offered s 1 1 0 = .ok v ∧ Here (contributing s) v = true) ∧
      ((contributing s).router 7).kept = []) ∧
    offered (inGroup lagging) 0 0 2 = .refused ∧
    (let s := inGroup { Router.reset with slots := List.replicate 56 (RSlot.mk 1 6 0 [] none) }; ∃ v, offered s 0 0 0 = .wait v ∧ Here (contributing s) v = true) ∧
    (let s := routed (inGroup Router.reset) 7 { Router.reset with kept := [(1, 5, 0, 9)] }; ((contributing s).router 7).kept = [((owned s 1 1 0).launch, 5, 0, 9)] ∧
      ∃ v a, (contributing s).writeMax (contributing s).myAgent (owned s 1 1 0) 9 = .done v a ∧ Here (contributing s) v = true) := by
  refine ⟨by unfold EngineFree; decide +kernel, by decide +kernel, by decide +kernel, by decide +kernel, ⟨?_, .inl (by decide +kernel), by decide +kernel,
    by decide +kernel, ⟨_, by decide +kernel, .inr ⟨by decide +kernel, by decide +kernel, by decide +kernel, rfl⟩⟩,
    ⟨_, by decide +kernel, .inr ⟨by decide +kernel, by decide +kernel, by decide +kernel, rfl⟩⟩, taken_of_test (by decide +kernel),
    taken_of_test (by decide +kernel), by decide +kernel⟩, refused_of_test (by decide +kernel), waits_of_test (by decide +kernel), by decide +kernel, done_of_test (by decide +kernel)⟩
  refine .inr ⟨by decide +kernel, by unfold EngineFree; decide +kernel, by decide +kernel, by decide +kernel, by decide +kernel, rfl, ?_⟩
  obtain ⟨⟨t, u⟩, h, e⟩ := ok_of_test (r := trackedM .atomic 96 (ptrVa ((inGroup Router.reset).reg 17)) (pastFences (inGroup Router.reset)))
    (p := fun a => decide (a.1 = (1, 0, 0x10000)) && Here (inGroup Router.reset) a.2 && a.2.writesDone 255 0) (by decide +kernel)
  have hu : u = areaAt (inGroup Router.reset) := by simp only [areaAt, h]
  simp only [Bool.and_eq_true, decide_eq_true_eq, Here] at e
  exact ⟨u, by rw [h, e.1.1], e.1.2, e.2, by rw [hu]; rfl⟩

/-- A contribution on its way to the router of core 7 or 8. -/
def arriving (pos : Nat) (i : Input) (inst : Nat) (r : Router) : State := sending (routed (grouped (at255 0)) pos r) .flying (.contrib pos i (contrib inst 0))
/-- CombiningRouters: a link that is not free; a flushed instance, one that waits, one that joins, a first one; two inputs; a slot that expires at core 8;
stragglers after and before the completion; a release. -/
theorem witness_CombiningRouters : (arriving 7 .own 0 Router.reset).groupMembers 1 5 = [7, 8] ∧
    (let s : State := { arriving 7 .own 0 Router.reset with net := [flying 8 (.contrib 7 .own (contrib 0 0)), flying 9 (.contrib 7 .own (contrib 1 0))] }; s.linkFree 9 7 .own = false) ∧
    (let s := arriving 7 .own 0 { Router.reset with flushed := [(1, 5, 0)] }; s.flight? 9 = some (Flight.mk 9 .flying (.contrib 7 .own (contrib 0 0))) ∧ s.linkFree 9 7 .own = true ∧ (s.router 7).flushed.contains (1, 5, 0) = true) ∧
    (let s := arriving 7 .own 0 { Router.reset with slots := [slot 1 [] none] }; (s.router 7).flushed.contains (1, 5, 0) = false ∧ (s.router 7).slots.find? (fun x => x.launch == 1 && x.gid == 5) = some (slot 1 [] none) ∧ 0 < (slot 1 [] none).inst) ∧
    (let s := arriving 7 .own 1 { Router.reset with slots := [slot 1 [] none] }; (slot 1 [] none).inst = 1 ∧ ∃ j ∈ slotInputs s 7 (slot 1 [] none), j ≠ .own ∧ ∀ g ∈ (slot 1 [] none).got, g.1 ≠ j) ∧
    (let s := arriving 7 .own 1 Router.reset; (s.router 7).slots = [] ∧ (s.router 7).early = [] ∧ ∃ j ∈ tableInputs (s.groupMembers 1 5) ((s.groupMembers 1 5).headD 7) 7, j ≠ .own) ∧
    (Input.own.rank < Input.east.rank ∧ (slot 1 [(.east, contrib 1 0), (.own, contrib 1 0)] none).got = [(.east, contrib 1 0), (.own, contrib 1 0)]) ∧
    ((contrib 0 0).kind = 0 ∧ (contrib 0 0).ty = 2) ∧
    (let x := slot 1 [(.west, contrib 1 0)] (some 0); let s := routed (grouped (at255 0)) 8 { Router.reset with slots := [x] }; (s.router 8).slots = [x] ∧ x.gid = 5 ∧ x.due = some 0 ∧ 0 ≤ s.clock ∧ (∃ j ∈ slotInputs s 8 x, ∀ g ∈ x.got, g.1 ≠ j) ∧ x.value = some (contrib 1 0) ∧
        (s.router 8).early = [] ∧ s.groupMembers 1 5 ≠ [] ∧ 8 ≠ (s.groupMembers 1 5).headD 8 ∧ nextHop 8 ((s.groupMembers 1 5).headD 8) = some (7, .east)) ∧
    (let s := sending (routed (objects false []) 7 { Router.reset with done := [contrib 0 0] }) .flying (.late 7 1 5 0); s.flight? 9 = some (Flight.mk 9 .flying (.late 7 1 5 0)) ∧ (s.router 7).done = [contrib 0 0] ∧ (contrib 0 0).same 1 5 0 = true ∧
      ∃ v a, s.onObject (.msg 9) 1 0 (0x10000 + 64) (fun o => (setBits o 176 16 (min 65535 (bitsOf o 176 16 + 1)), false)) = .done v a ∧ decide (a.2 = false) = true) ∧
    (let s := sending (at255 0) .flying (.late 7 1 5 0); s.flight? 9 = some (Flight.mk 9 .flying (.late 7 1 5 0)) ∧ (s.router 7).done = []) ∧
    (let s := sending ((routed (objects false []) 255 { Router.reset with areas := [contrib 0 1] }).modCtx 255 0 fun y => { y with st := .parked, wait := .release 5 0 true }) .flying (.cmaxRelease 255 1 5 0 7); s.flight? 9 = some (Flight.mk 9 .flying (.cmaxRelease 255 1 5 0 7)) ∧ (s.router 255).areas = [contrib 0 1] ∧ (contrib 0 1).same 1 5 0 = true ∧
      (s.core (s.forwarded 255)).moving = false ∧ ∃ v a, s.writeMax (.msg 9) (contrib 0 1) 7 = .done v a ∧ decide (a = () ∧ (v.router 255).areas = [contrib 0 1] ∧ v.forwarded 255 = 255 ∧
        (v.core 255).parkedFor 5 0 = some (0, true) ∧ (v.ctx 255 0).st = .parked ∧ (v.ctx 255 0).ptrap = none) = true) ∧
    (let s := (sending (at255 0) .flying (.cmaxRelease 255 1 5 0 7)).modCore 255 fun k => { k with moving := true }; (s.core (s.forwarded 255)).moving = true) ∧
    (∃ v, (objects false []).seize myself 1 0x200 true = .done v () ∧ v.HomeReady 1 0x200) ∧
    (∃ v a, (objects false []).writeMax myself (contrib 0 1) 7 = .done v a ∧ decide ((contrib 0 1).area % 128 = 0) = true) := by
  and_intros <;> first | exact done_of_test (by decide +kernel) | exact seized.imp (fun _ h => ⟨h.1, h.2.1⟩) | decide +kernel

/-- CsrAccess: every kind of register is in the table, and a is x0 or not. -/
theorem witness_CsrAccess : ((0x105 : BitVec 12).toNat, 0xFFFFFFFF) ∈ plainCsrs ∧ ((0x204 : BitVec 12).toNat, 0xFFFFFFFFFFFFFFE1) ∈ plainCsrs ∧
    (0x106, 0xFFFFFFFF) ∈ plainCsrs ∧ 0x106 ≠ (0x105 : BitVec 12).toNat ∧ (1 : BitVec 5) ≠ 0 := by decide
/-- CsrRules: denied registers in both modes; RMODE of 4 and 5. -/
theorem witness_CsrRules : user255.csrDenied (0x003 : BitVec 12).toNat = true ∧ user255.me.mode = .user ∧ (at255 0).csrDenied (0x013 : BitVec 12).toNat = true ∧
    (at255 0).me.mode = .supervisor ∧ (0x004 : Word).toNat % 8 ≤ 4 ∧ ¬ (0x005 : Word).toNat % 8 ≤ 4 := by decide +kernel

/-- A descriptor of context x of core 7. -/
def desc (x : Nat) : State := regs [(17, BitVec.ofNat 64 (7 + x * 2 ^ 13))]
/-- Supervision: user mode, contexts 11 and 14, contexts of core 7 in each state, positions that migr turns away. -/
theorem witness_Supervision : user255.me.mode = .user ∧ (desc 0).me.mode = .supervisor ∧ 11 ≤ fld ((desc 11).reg 17) 13 4 ∧ fld ((desc 14).reg 17) 13 4 ≤ 14 ∧
    Names (desc 10) ((desc 10).reg 17) 7 10 ∧ 7 ≠ (desc 10).curCore ∧ ((desc 10).ctx 7 10).st = .dormant ∧
    (let s := (desc 10).modCtx 7 10 fun y => { y with st := .ready }; (s.ctx 7 10).st ≠ .dormant ∧ (s.ctx 7 10).st ≠ .halted ∧ (s.core 7).treeHalted = false) ∧
    (let s := (desc 10).modCtx 7 10 fun y => { y with st := .halted }; (s.ctx 7 10).st = .halted ∧ (s.ctx 7 10).ranged = false ∧ (s.ctx 7 10).wait = .none ∧
      (s.ctx 7 10).ptrap = none ∧ (s.ctx 7 10).rep = none ∧ (s.ctx 7 10).repst.getLsbD 63 = false ∧ (s.core 7).moving = false) ∧
    (7 = (desc 0).forwarded (fld ((desc 0).reg 17) 0 13) ∧ (desc 0).isCompute 255 = false ∧ (desc 0).isCompute 7 = true ∧
      (desc 0).isCompute (fld ((desc 0).reg 17) 48 13) = true ∧ ((desc 0).core 7).queue = none ∧ ((desc 0).core 7).moving = false ∧ (desc 0).me.keptNow = none) := by unfold Names; decide +kernel
/-- Core 7 runs a launch and is to go to core 9. -/
def migrating : State :=
  { (regs [(17, BitVec.ofNat 64 (7 + 9 * 2 ^ 48))]).modCore 7 fun k => { k with queue := some 1 } with queues := [(1, { queue1 with mask0 := BitVec.ofNat 64 (2 ^ 56 + 2 ^ 52 + 2 ^ 40 * 8 + 1) })] }
/-- Its migration has begun. -/
def moving7 : State := migrating.modCore 7 fun k => { k with moving := true, mover := some (255, 0, 9) }
/-- The issuer has kept what its migr began. -/
def begun7 (s : State) (n : Nat) : State := s.modMe fun y => { y with kept := some (y.seq, y.pc, [7, 9, n]) }
/-- Migration: a core to move, before, while and after it moves, and given up; one that moves with an operation left and with nothing left. -/
theorem witness_Migration : (migrating.me.mode = .supervisor ∧ 7 = migrating.forwarded (fld (migrating.reg 17) 0 13) ∧ 9 = fld (migrating.reg 17) 48 13 ∧
      7 ≠ migrating.curCore ∧ migrating.me.keptNow = none ∧ migrating.migrStatus 7 9 = 0 ∧ (migrating.core 7).moving = false) ∧
    (moving7.me.keptNow = none ∧ (moving7.core 7).moving = true ∧ 7 = moving7.forwarded (fld (moving7.reg 17) 0 13)) ∧
    ((begun7 moving7 0).me.keptNow = some [7, 9, 0] ∧ ((begun7 moving7 0).core 7).moving = true) ∧
    ((begun7 migrating 0).me.keptNow = some [7, 9, 0] ∧ ((begun7 migrating 0).core 7).moving = false) ∧ (begun7 migrating 1).me.keptNow = some [7, 9, 1] ∧
    (let s := moving7.modCore 7 fun k => { k with ops := [{ op0 with lanes := [{ lane0 with done := false }] }] }; (s.core 7).mover = some (255, 0, 9) ∧ s.drained 7 = false) ∧
    ((moving7.core 7).mover = some (255, 0, 9) ∧ moving7.fwds = [] ∧ (moving7.core 7).queue = some 1 ∧ moving7.drained 7 = true ∧
      (moving7.core 7).ops = [] ∧ (moving7.core 9).ops = [] ∧ (moving7.core 7).l1 = [] ∧ moving7.returning 7 = false ∧ (moving7.core 7).mxq = [] ∧
      moving7.scrubs? 9 = false ∧ (moving7.core 7).bsplit = 0 ∧ (moving7.core 9).bsplit = 0 ∧ (moving7.core 9).domain = (moving7.core 7).domain ∧
      (moving7.dbgOf (clusterOf 9)).frozen = false ∧ ∃ n p, ((begun7 moving7 0).ctx 255 0).kept = some (n, p, [7, 9, 0])) :=
  ⟨by decide +kernel, by decide +kernel, by decide +kernel, by decide +kernel, by decide +kernel, by decide +kernel,
    by and_intros <;> first | decide +kernel | exact ⟨_, _, rfl⟩⟩

/-- A tile of two rows of two INT32 elements. -/
def tile0 : Tile := Tile.mk 2 8 4 0 false []
/-- An operation on tile 0 with operands of INT8 in the mapped page. -/
def mx0 : MxOp := { id := 0, tile := 0, neg := false, a := 0x800000000100000, b := 0x800000000100001, k := 1, sa := 0, sb := 0, grp := 0, acc := false, bar := 0, mode := .supervisor, launch := none, issuer := some 0, origin := 255, step := 0, begun := true, opErr := false, uncorr := false, ecc := false, nan := false, ovf := false, first := 0, abandoned := false }
/-- Tile 0 of core 255, and operations in its queue. -/
def tiled (s : State) (v : Tile) (q : List MxOp) : State := s.modCore 255 fun k => { k with tiles := [(0, v)], mxq := q }

/-- TileRegisters: a tile that is BUSY, has no shape, is poisoned, is ready; a valid and an invalid shape; the last row and element and those after them. -/
theorem witness_TileRegisters : (tiled (at255 0) tile0 [mx0]).mine.tileBusy (0 : BitVec 3).toNat = true ∧
    ((at255 0).mine.tileBusy (0 : BitVec 3).toNat = false ∧ ((at255 0).mine.tile (0 : BitVec 3).toNat).rows = 0) ∧
    (TileReady (tiled (at255 0) { tile0 with psn := true } []) (0 : BitVec 3).toNat ∧ ((tiled (at255 0) { tile0 with psn := true } []).mine.tile (0 : BitVec 3).toNat).psn = true) ∧
    (TileReady (tiled (at255 0) tile0 []) (0 : BitVec 3).toNat ∧ ((tiled (at255 0) tile0 []).mine.tile (0 : BitVec 3).toNat).psn = false ∧
      ((tiled (at255 0) tile0 []).mine.tile (0 : BitVec 3).toNat).rows = 2 ∧ (1 : BitVec 6).toNat < 2 ∧ 2 ≤ (2 : BitVec 6).toNat ∧
      ((tiled (at255 0) tile0 []).mine.tile (0 : BitVec 3).toNat).rowb / fmtBytes ((tiled (at255 0) tile0 []).mine.tile (0 : BitVec 3).toNat).fmt = 2) ∧
    (let s := regs [(16, 0x44010)]; fld (s.reg 16) 0 5 ≠ 0 ∧ shapeOk (fld (s.reg 16) 0 5) (fld (s.reg 16) 8 7) (fld (s.reg 16) 16 5) = true) ∧
    (let s := regs [(16, 0x44011)]; fld (s.reg 16) 0 5 ≠ 0 ∧ shapeOk (fld (s.reg 16) 0 5) (fld (s.reg 16) 8 7) (fld (s.reg 16) 16 5) = false) :=
  by and_intros <;> first | decide +kernel | (constructor <;> decide +kernel)

/-- No breakpoint is enabled in a state of the tests. -/
theorem accessFree_all (s : State) (h : (s.dbgOf (clusterOf s.curCore)).bken = false) (ho : s.mine.opsOf s.curCtx = []) (va : Addr) (n : Nat) (rd wr : Bool) :
    s.AccessFree va n rd wr := accessFree_of s va n rd wr (by simp [State.watchHit, h]) ho
/-- TileMemory: a row outside and one inside at the end of the TCM, a SAVED tile, an image that ends the TCM. -/
theorem witness_TileMemory : (let s := tiled (ptr 0xFFF8) tile0 []; TileReady s (0 : BitVec 3).toNat ∧ tile0 = s.mine.tile (0 : BitVec 3).toNat ∧ tile0.rows ≤ (2 : BitVec 6).toNat ∧
      tile0.psn = false ∧ (1 : BitVec 6).toNat < tile0.rows ∧ (ptrVa (s.reg 16)).toNat = 2 ^ 55 + 0xFFF8 ∧ 0xFFF8 % 4 = 0 ∧ 0xFFF8 % 128 + tile0.rowb ≤ 128 ∧ 0xFFF8 + tile0.rowb ≤ 0x10000 ∧
      s.AccessFree (ptrVa (s.reg 16)) tile0.rowb true false ∧ s.AccessFree (ptrVa (s.reg 16)) tile0.rowb false true) ∧
    ({ tile0 with st := 1 } : Tile).st = 1 ∧
    (let s := (tiled (at255 0) tile0 []).modCore 255 fun k => { k with tsavep := BitVec.ofNat 64 (2 ^ 55 + 0xFC00) }; tile0.st ≠ 1 ∧
      s.mine.tsavep.toNat % 2 ^ 56 + 1024 * (0 : BitVec 3).toNat = 2 ^ 55 + 0xFC00 ∧ 0xFC00 % 64 = 0 ∧ 0xFC00 + 1024 ≤ 0x10000 ∧
      ∀ j, j < 16 → s.AccessFree (BitVec.ofNat 56 (2 ^ 55 + 0xFC00 + 64 * j)) 64 false true) :=
  by and_intros <;> first | decide +kernel | exact fun _ _ => accessFree_all _ (by decide +kernel) (by decide +kernel) _ _ _ _ |
    exact accessFree_all _ (by decide +kernel) (by decide +kernel) _ _ _ _ | (constructor <;> decide +kernel)

/-- Operands in registers 16 and 17. -/
def operands (v : Tile) (q : List MxOp) : State := tiled (regs [(16, 0x800000000100000), (17, 0x800000000100001)]) v q
/-- MatrixInstructions: user mode; a tile of the group that is BUSY or has no shape; an unsupported pair; an operation to queue, and a full queue; a command to send. -/
theorem witness_MatrixInstructions : user255.me.mode = .user ∧ (0x200 + (5 : BitVec 8).toNat < 0x206) ∧ (0x200 + (4 : BitVec 8).toNat, 0xFFFFFFFFFFFFFFE1) ∈ plainCsrs ∧
    EngineFree (operands tile0 []) ∧ groupTiles (fld (operands tile0 []).mine.mxcfg 1 3) (0 : BitVec 3).toNat = [0] ∧ (operands tile0 [mx0]).mine.tileBusy 0 = true ∧
    ((at255 0).mine.tileBusy 0 = false ∧ ((at255 0).mine.tile 0).rows = 0) ∧
    (let s := operands tile0 []; s.mine.tileBusy 0 = false ∧ (s.mine.tile 0).rows ≠ 0 ∧ (s.mine.tile 0).st ≠ 3 ∧ (s.mine.tile 0).psn = false ∧
      pairOk (s.reg 16) (s.reg 17) s.mine.mxk.toNat = some 4 ∧ pairOk (s.reg 16) 0 s.mine.mxk.toNat = none ∧ groupOk (fld s.mine.mxcfg 1 3) (0 : BitVec 3).toNat = true ∧
      s.mine.groupShapes (fld s.mine.mxcfg 1 3) (0 : BitVec 3).toNat 4 = true ∧ s.mine.mxq.length < 4 ∧ OperandsOk s (s.reg 16) (s.reg 17)) ∧
    (let s := operands tile0 (List.replicate 4 { mx0 with tile := 1 }); s.mine.tileBusy 0 = false ∧ 4 ≤ s.mine.mxq.length) ∧
    groupOk 0 7 = true ∧ groupOk 6 0 = false :=
  ⟨by decide +kernel, by decide, by decide, ⟨by decide +kernel, by decide +kernel⟩, by decide +kernel, by decide +kernel, by decide +kernel,
    by unfold OperandsOk; decide +kernel, by decide +kernel, by decide, by decide⟩

/-- What the sequencer of core 255 reads for an operation. -/
def fetched (s : State) : State × Reads :=
  ((tiled s tile0 [mx0]).modCore 255 fun k => k.setMx mx0).fetchUnits 255 true (mx0.units ((tiled s tile0 [mx0]).core 255) 0)
/-- The page without a right to it. -/
def closed : State := { (at255 0).modCore 255 fun k => { k with l1tlb := [{ page .tracked with xwr := 0 }] } with cdrs := [(1, cache1)] }
/-- A command for core 7, which captures tag 9 of group 3. -/
def commanded (k : Core → Core) : State :=
  sending { (at255 0).modCore 7 fun y => k { y with queue := some 1, capt := [(0, BitVec.ofNat 25 (2 ^ 24 + 3 * 2 ^ 16 + 9))], tiles := [(0, tile0)] } with queues := [(1, queue1)] } .flying (.mmar 7 { mx0 with launch := some 1 } 9 [3])
/-- MatrixSequencer: operands of INT8; a stopped unit; an operation that is done; steps whose operands are read, are poisoned, are refused, have to be waited for; a command that
the target takes, and one that no register captures. -/
theorem witness_MatrixSequencer : (∀ k ∈ [0, 1], (fun _ => 0 : Nat → Int) k = (BitVec.ofNat 8 (operandBytes [] ((0 : Addr) + BitVec.ofInt 56 k).toNat 1)).toInt) ∧
    (let s := tiled (objects false []) tile0 [mx0]; (s.core 255).mxq = [mx0] ∧ mx0.abandoned = false ∧ tile0 = (s.core 255).tile mx0.tile ∧
      shapeOk tile0.rows tile0.rowb tile0.fmt = true ∧ (∀ j ∈ mx0.tiles, ((s.core 255).tile j).rows = tile0.rows ∧ ((s.core 255).tile j).rowb = tile0.rowb) ∧
      (s.core 255).mxstop = 0 ∧ (s.core 255).mxbuf = [] ∧ (s.core 255).mxpend = false ∧ mx0.begun = true ∧ mx0.opErr = false ∧ mx0.step < (mx0.k + 31) / 32 ∧ mx0.bar.toNat % 2 ^ 56 / 32 = 0) ∧
    ((at255 0).modCore 255 fun k => { k with mxstop := 1 }).mine.mxstop ≠ 0 ∧ ({ mx0 with step := 1 } : MxOp).k = 1 ∧
    [(objects false [], Reads.all), (objects true [], .poison), (closed, .refused), (at255 0, .wait)].all (fun p =>
      decide ((fetched p.1).2 = p.2) && decide (((fetched p.1).1.core 255).mxq = [mx0] ∧ ((fetched p.1).1.core 255).tiles = [(0, tile0)])) = true ∧
    ((fetched (objects false [])).1.core 255).mxbuf ≠ [] ∧
    (let s := commanded id; s.flight? 9 = some (Flight.mk 9 .flying (.mmar 7 { mx0 with launch := some 1 } 9 [3])) ∧ 7 = s.forwarded 7 ∧ (s.core 7).moving = false ∧ s.isCompute 7 = true ∧
      s.launchOf 7 = some launch1 ∧ launch1.serial = 1 ∧ (s.core 7).captures 9 [3] = true ∧ (∀ i ∈ groupTiles mx0.grp mx0.tile, (s.core 7).tileBusy i = false ∧ ((s.core 7).tile i).st ≠ 3) ∧
      (s.core 7).admits mx0 = true ∧ (s.core 7).mxq.length < 4) ∧
    ((commanded fun k => { k with capt := [] }).core 7).captures 9 [3] = false := by decide +kernel

/-- A block in the TCM at 0x100, and channel 0 of cluster 0. -/
def block (l : List (Nat × Nat)) : State := (ptr 0x100).modCore 255 fun k => { k with tcm := l.foldl (fun t p => t.write (0x100 + 8 * p.1) p.2 8) k.tcm }
/-- A busy channel. -/
def busy0 : Channel := { Channel.reset with busy := true, blk := List.replicate 8 0 }
/-- The block at register 16. -/
def blockOf (s : State) : List Word := blockWords (s.mine.tcm.read (tcmOff (ptrVa (s.reg 16))) 64)
/-- CopyInstructions: a misaligned block; one in the TCM, one with MIG, one with a misaligned object; an idle and a busy channel, of the issuer's domain and of
another one; a block that a waiting command has kept. -/
theorem witness_CopyInstructions : ((ptrVa ((ptr 0x108).reg 16)).toNat % 64 ≠ 0 ∧ EngineFree (ptr 0x108)) ∧
    (let s := block []; EngineFree s ∧ TcmAddr (ptrVa (s.reg 16)) (tcmOff (ptrVa (s.reg 16))) 64 ∧ s.AccessFree (ptrVa (s.reg 16)) 64 true false ∧
      (∀ o ∈ s.mine.opsOf s.curCtx, o.fin ≠ .block) ∧ s.me.mode = .supervisor ∧ (blkWord (blockOf s) 5).toNat % 2 ^ 56 = 0 ∧ s.me.keptNow = none ∧
      (s.channel 0).busy = false) ∧
    (let s := { block [] with channels := [(0, busy0)] }; (s.channel 0).busy = true) ∧
    (let s := (block [(6, 16)]).modMe fun y => { y with mode := .user }; blkMig (blockOf s) = true ∧ s.me.mode = .user ∧
      ({ Channel.reset with domain := 4 } : Channel).domain ≠ s.mine.domain) ∧
    ((blkWord (blockOf (block [(5, 8)])) 5).toNat % 2 ^ 56 % 32 ≠ 0 ∧
      ((block []).modMe fun y => { y with kept := some (y.seq, y.pc, [0, 0]) }).me.keptNow = some [0, 0] ∧ (ptr 0x108).me.keptNow = none) := by
  and_intros <;> first | decide +kernel | exact accessFree_all _ (by decide +kernel) (by decide +kernel) _ _ _ _ | (constructor <;> decide +kernel)

/-- A channel that copies one FP32 element from the mapped page to offset 0x200 of the TCM. -/
def chan0 : Channel := { busy0 with core := 255, mode := .supervisor, blk := [0x4000000000100000, 0x4080000000000200, 1, 0, 0, 0, 0, 0] }
/-- A state with that channel. -/
def copying (s : State) (c : Channel) : State := { s with channels := [(0, c)] }
/-- The window of the command. -/
def window0 : List Nat := windowFrom chan0.blk [] (blkParts chan0.blk) 0 []
/-- COPY_WINDOW step by step, to its last read. -/
def windowOk (s : State) : Bool := match (s.copyAcks 0).copyTargets 0 .write (windowDsts chan0.blk window0) with
  | (.ok dt, u) => match u.copyTargets 0 .read (windowNeed chan0.blk window0) with
    | (.ok rt, v) => match v.copyReads 0 (windowNeed chan0.blk window0) rt with
      | .done x (.ok _) => decide (v.chanOps 0 = []) && decide (v.channel 0 = s.channel 0) && (rt.all fun p => match p.2 with | .at (.remote _ _) => false | _ => true) &&
          decide (x.channel 0 = s.channel 0) && decide (x.chanOps 0 = []) && dt.all fun p => match p.2 with | .loc => true | _ => false
      | _ => false
    | _ => false
  | _ => false
/-- A source and destination in the page, which core 255 has no right to. -/
def refused0 : State := copying closed { chan0 with blk := [0x4000000000100000, 0x4000000000100000, 1, 0, 0, 0, 0, 0] }
/-- CopyChannels: the empty window; a block of equal formats; a command that runs and reads, one whose destination is refused, ones that are malformed, failed and
cancelled, one that is done; a frozen cluster. -/
theorem witness_CopyChannels : ([] : List Nat).length ≤ 64 ∧ (ptrFmt (blkSrc chan0.blk) = ptrFmt (blkDst chan0.blk) ∧ ptrFmt (blkDst chan0.blk) < 11) ∧
    (let s := copying (mapped .untracked []) chan0; 0 = 32 * 0 + 0 % 32 ∧ (s.channel 0).busy = true ∧ (s.dbgOf 0).frozen = false ∧ s.chanOps 0 = [] ∧
      (s.channel 0).stopping = false ∧ (s.channel 0).beats = [] ∧ (s.channel 0).own = [] ∧ window0 = windowFrom chan0.blk (s.channel 0).written (blkParts chan0.blk) 0 [] ∧
      window0 ≠ [] ∧ blkMig chan0.blk = false ∧ windowOk s = true) ∧
    (match (refused0.copyAcks 0).copyTargets 0 .write (windowDsts (refused0.channel 0).blk (windowFrom (refused0.channel 0).blk [] 1 0 [])) with
      | (.error (some _), u) => decide (u.channel 0 = refused0.channel 0) | _ => false) = true ∧
    ({ chan0 with malf := true } : Channel).stopping = true ∧ ({ chan0 with fail := some 0x21 } : Channel).stopping = true ∧ ({ chan0 with cancel := true } : Channel).stopping = true ∧
    (windowFrom chan0.blk window0 (blkParts chan0.blk) 0 [] = [] ∧ (blkWord chan0.blk 5).toNat % 2 ^ 56 = 0) ∧
    (((at255 0).modDbg 0 fun d => { d with frozen := true }).dbgOf 0).frozen = true := by decide +kernel

/-- An image of one share on core 0. -/
def image0 : Vec := BitVec.ofNat 512 (7 * 2 ^ 37)
/-- The same from share 1. -/
def image1 : Vec := BitVec.ofNat 512 (7 * 2 ^ 37 + 2 ^ 28)
/-- Cache 1 in a state, with registers 16 and 17 and an image in vector register 0. -/
def cached (st : Nat) (v : Vec) (a b : Word) : State :=
  { (regs [(16, a), (17, b)]).setVreg 0 v with cdrs := if st = 0 then [] else [(1, { cache1 with w0 := setFld cache1.w0 60 3 st })] }
/-- What a cache instruction asks of its issuer. -/
def mayCache (s : State) : Prop := s.me.mode = .supervisor ∧ s.Settled ∧ s.me.engWait = [] ∧ s.me.engWords = false
/-- CacheInstructions: user mode; a record that is FREE, DEFINED, ACTIVE; a bad image, one that conflicts, one that does not; a resize; commands that a check refuses and that it lets through. -/
theorem witness_CacheInstructions : user255.me.mode = .user ∧ mayCache (cached 0 image0 1 1) ∧
    (let s := cached 0 image0 1 1; fld (s.reg 17) 10 54 = 0 ∧ fld (s.reg 17) 8 2 = 0 ∧ fld (s.reg 17) 0 8 = 1 ∧ (s.cdr 1).w0.getLsbD 63 = false ∧
      imageOk (imageWordOf image0 0) (imageWordOf image0 1) (imageWordOf image0 2) (imageWordOf image0 3) = true ∧ s.sharesConflict (imageWordOf image0 0, imageWordOf image0 1) 1 = false) ∧
    ((cached 2 image0 1 1).cdr 1).w0.getLsbD 63 = true ∧ imageOk (imageWordOf 0 0) (imageWordOf 0 1) (imageWordOf 0 2) (imageWordOf 0 3) = false ∧
    (let s := cached 2 image0 1 2; fld (s.reg 17) 0 8 = 2 ∧ (s.cdr 2).w0.getLsbD 63 = false ∧ s.sharesConflict (imageWordOf image0 0, imageWordOf image0 1) 2 = true) ∧
    (let s := cached 1 image0 1 0x101; fld (s.reg 17) 10 54 = 0 ∧ fld (s.reg 17) 8 2 = 1 ∧ (s.cdr 1).state = 1 ∧ s.sharesConflict (s.cdr 1).geo 1 = false ∧
      s.foreignShares (s.cdr 1).geo (s.cdr 1).domain = false) ∧ ((cached 2 image0 1 0x101).cdr 1).state ≠ 1 ∧
    (let s := cached 2 image0 1 0x201; fld (s.reg 17) 8 2 = 2 ∧ (s.cdr 1).state = 2 ∧ imageWordOf image0 4 = 0) ∧
    (let s := cached 2 image1 1 1; fld (s.reg 17) 8 56 = 0 ∧ (s.cdr 1).state = 2 ∧ imageOk (imageWordOf image1 0) (imageWordOf image1 1) (imageWordOf image1 2) (imageWordOf image1 3) = true ∧
      fld (imageWordOf image1 0) 50 10 = (s.cdr 1).domain ∧ fld (s.cdr 1).w0 37 3 &&& (7 - fld (imageWordOf image1 0) 37 3) = 0 ∧
      s.sharesConflict (imageWordOf image1 0, imageWordOf image1 1) 1 = false ∧ Geo.meets (imageWordOf image1 0, imageWordOf image1 1) (s.cdr 1).geo = false) ∧
    (fld ((cached 2 0 1 0).reg 16) 0 8 = 1 ∧ (cached 2 0 1 0).vcCommandCheck 1 = none ∧ (((cached 2 0 1 0).cdr 1).ops.filter fun o => o.kind != 5).length < 4 ∧
      (cached 0 0 1 0).vcCommandCheck 1 = some 1 ∧ (cached 1 0 1 0).vcCommandCheck 1 = some 3 ∧ (cached 4 0 1 0).vcCommandCheck 1 = some 4) ∧
    (let s := (cached 2 0 0 1).modMe fun y => { y with mode := .user }; let s := s.modCore 255 fun k => { k with domain := 4 }; s.me.mode = .user ∧ (s.cdr 1).state ≠ 0 ∧ (s.cdr 1).domain ≠ s.mine.domain) ∧
    (∀ o ∈ ((cached 2 0 0 1).cdr 1).ops, o.kind < 8) := by
  unfold mayCache State.Settled; decide +kernel

/-- Cache 1 in a state, as a background operation finds it. -/
def background (f : Cdr → Cdr) : State := { at255 0 with cdrs := [(1, f cache1)] }
/-- An operation of a kind. -/
def vcOp0 (kind : Nat) : VcOp := (at255 0).vcOp kind 0
/-- CacheBackground: a set that moves, and one with a line whose unit is being served; none left; a flush, an invalidation and a reclaim without lines; a cache that
retires, and one that does not. -/
theorem witness_CacheBackground : (let s := background fun c => { c with w0 := setFld c.w0 60 3 3, shadow := some (imageWordOf image1 0, 0) }; (s.cdr 1).shadow = some (imageWordOf image1 0, 0) ∧ (s.cdr 1).progress < Geo.sets (s.cdr 1).geo ∧
      s.oldSet 1 = [] ∧ ((s.holdSet 1 (s.cdr 1).geo 0).moveLines (s.cdr 1).geo (imageWordOf image1 0, 0) (s.oldSet 1)).2 = none) ∧
    (let s : State := { background fun c => { c with w0 := setFld c.w0 60 3 3, shadow := some (imageWordOf image1 0, 0) } with
        vlines := [{ vcid := 1, lay := 0, core := 0, set := 0, li := 0, dirty := false, units := [] }, { vcid := 1, lay := 1, core := 0, set := 0, li := 512, dirty := false, units := [] }]
        homes := [(homeKey 1 512, { HomeUnit.reset with busy := some (.own 7 0 .m) })] }
      let t := s.holdSet 1 (s.cdr 1).geo 0
      (s.oldSet 1).all (fun l => (l.unitNums (s.cdr 1).geo).all fun u => t.calm 1 u) = true ∧ (t.moveLines (s.cdr 1).geo (imageWordOf image1 0, 0) (s.oldSet 1)).2.isSome) ∧
    (let s : State := { background fun c => { c with w0 := setFld c.w0 60 3 3, shadow := some (imageWordOf image1 0, 0) } with
        vlines := [{ vcid := 1, lay := 0, core := 0, set := 0, li := 0, dirty := false, units := [] }], homes := [(homeKey 1 0, { HomeUnit.reset with busy := some (.own 7 0 .m) })] }
      ∃ l ∈ s.oldSet 1, ∃ u ∈ l.unitNums (s.cdr 1).geo, (s.holdSet 1 (s.cdr 1).geo (s.cdr 1).progress).calm 1 u = false ∧ (s.holdSet 1 (s.cdr 1).geo (s.cdr 1).progress).pinned 1 u = false) ∧
    (let s := background fun c => { c with w0 := setFld c.w0 60 3 3, shadow := some (imageWordOf image1 0, 0), progress := Geo.sets c.geo }; Geo.sets (s.cdr 1).geo ≤ (s.cdr 1).progress ∧ (s.cdr 1).bar = none) ∧
    (let s := background fun c => { c with ops := [vcOp0 2] }; (s.cdr 1).ops = [vcOp0 2] ∧ (s.cdr 1).state ≠ 3 ∧ (vcOp0 2).bar = 0 ∧ (vcOp0 2).kind = 2 ∧
      (∀ l ∈ s.vlines, l.vcid = 1 → l.dirty = false) ∧ s.heldUnits 1 = []) ∧
    (let s := background fun c => { c with ops := [vcOp0 3] }; (s.cdr 1).ops = [vcOp0 3] ∧ (vcOp0 3).kind ≠ 2 ∧ (∀ l ∈ s.vlines, l.vcid ≠ 1) ∧ s.heldUnits 1 = []) ∧
    (let s := background fun c => { c with w0 := setFld c.w0 60 3 4 }; (s.cdr 1).state = 4 ∧ (s.cdr 1).ops = [] ∧ (s.cdr 1).bar = none ∧ (∀ l ∈ s.vlines, l.vcid ≠ 1) ∧ s.heldUnits 1 = [] ∧ s.usesCache 1 = false) ∧
    (let s := background id; (s.cdr 1).state ≠ 4 ∧ (s.cdr 1).shadow = none) := by decide +kernel

/-- Context 0 of core 255 waits for a scrub. -/
def scrubbed : State := State.reset.modCtx 255 0 fun y => { y with st := .parked, wait := .scrub 9 true (.glob 3) 5 }
/-- ScrubWriters: no context waits, and one does. -/
theorem witness_ScrubWriters : (∀ k y m r w, (State.reset.ctx k y).wait ≠ .scrub 9 m r w) ∧ (scrubbed.ctx 255 0).wait = .scrub 9 true (.glob 3) 5 ∧
    ∀ k y m r w, (scrubbed.ctx k y).wait = .scrub 9 m r w → k = 255 ∧ y = 0 := by
  have h : ∀ k y m r w, (State.reset.ctx k y).wait ≠ .scrub 9 m r w := fun k y m r w => (by rw [show (State.reset.ctx k y).wait = .none from rfl]; exact Wait.noConfusion)
  refine ⟨h, by decide +kernel, fun k y m r w e => ?_⟩
  rw [scrubbed, State.ctx_modCtx] at e
  split at e
  · next c => simpa using c
  · exact absurd e (h k y m r w)

/-- ScrubEffects: writes that name the same domain and another one; a scrub of each kind; bounds of 16 shares, the same, and 17; scratch of a foreign and of the core's new domain. -/
theorem witness_ScrubEffects : ((at255 0).core 255).moving = false ∧ (0 : Word).toNat % 1024 = ((at255 0).core 255).domain ∧ (5 : Word).toNat % 1024 ≠ ((at255 0).core 255).domain ∧
    (let s : State := { (at255 0).modCore 255 fun k => { k with bsplit := 2, owners := [(1, 5)] } with scrubs := [(9, .domain 255 5 none)] }; tget? s.scrubs 9 = some (.domain 255 5 none) ∧ 65535 / 65536 < (s.core 255).bsplit ∧ tget (s.core 255).owners (65535 / 65536) 0 ≠ 5 ∧ 65536 / 65536 < (s.core 255).bsplit ∧
        tget (s.core 255).owners (65536 / 65536) 0 = 5) ∧
    (let s : State := { background fun c => { c with w0 := c.w0, ops := [vcOp0 5] } with scrubs := [(9, .bsplit 0 0 4 none)] }; ∃ k ∈ s.cachesBelow 0 4, ∃ o ∈ (s.cdr k).ops, o.kind = 5) ∧
    (let s : State := { background id with scrubs := [(9, .bsplit 0 0 4 none)] }; tget? s.scrubs 9 = some (.bsplit 0 0 4 none) ∧ ∀ k ∈ s.cachesBelow 0 4, ∀ o ∈ (s.cdr k).ops, o.kind ≠ 5) ∧
    (0 : Word).toNat % 32 = ((at255 0).core 255).bsplit ∧ 16 < (17 : Word).toNat % 32 ∧ ((16 : Word).toNat % 32 ≤ 16 ∧ (16 : Word).toNat % 32 ≠ ((at255 0).core 255).bsplit) ∧
    (let s : State := { background fun c => { c with w0 := setFld c.w0 60 3 1, scrubId := some 9 } with scrubs := [(9, .activate 1 255 none)] }; tget? s.scrubs 9 = some (.activate 1 255 none) ∧ (s.cdr 1).state = 1 ∧ (s.cdr 1).scrubId = some 9) := by decide +kernel

/-- The image of an entry of VA 0x100000 for core 7, with V and some sources; a refusal with a cause. -/
def entry (srcs : Nat) : Vec := BitVec.ofNat 512 (2 ^ 63 + 0x100000 + 0x10000 * 2 ^ 64 + (7 * 2 ^ 38 + 8 + 7) * 2 ^ 128 + srcs * 2 ^ 192)
def refusal (cause : Nat) : Vec := BitVec.ofNat 512 (cause + (7 * 2 ^ 38) * 2 ^ 128)
/-- A service core that fills an entry, with tag 5 and the wake bit or without. -/
def filling (v : Vec) (wake : Bool) : State := (regs [(17, BitVec.ofNat 64 (5 + wake.toNat * 2 ^ 16))]).setVreg 0 v
/-- A request of context 0 of core 7 that waits under tag 5. -/
def xreq5 : XReq := { tag := 5, agent := 0, slot := 0, acc := .read, va := 0x100000, sup := true, refusal := none }
/-- That context waits. -/
def awaiting (s : State) : State := (s.modCore 7 fun k => { k with xreqs := [xreq5] }).modCtx 7 0 fun y => { y with wait := .xlate 5, st := .parked }
/-- A probe of VA 0x100000 at a core, with its entries. -/
def probing (n : Nat) (l : List TlbEnt) : State := (regs [(16, BitVec.ofNat 64 n), (17, 0x100000)]).modCore 7 fun k => { k with l1tlb := l }
/-- TranslationEntries: images that are malformed, with a source, without one, with the wake bit; refusals; probes of another cluster, without and with an entry. -/
theorem witness_TranslationEntries : user255.me.mode = .user ∧ (at255 0).me.mode = .supervisor ∧
    (entWord (entry 0) 0).getLsbD 63 = true ∧ entOk (entry 0) 255 = true ∧ entTarget (entry 0) = 7 ∧ entOk (entry 5) 255 = false ∧
    (entOk (entry 1) 255 = true ∧ 0 < entNsrc (entry 1) ∧ (filling (entry 1) false).mine.copy? ((entWord (entry 1) 4).toNat % 2 ^ 42 / 128) .tracked = none) ∧
    (entNsrc (entry 0) = 0 ∧ ((filling (entry 0) false).reg 17).getLsbD 16 = false) ∧
    (let s := awaiting (filling (entry 0) true); (s.reg 17).getLsbD 16 = true ∧ (s.reg 17).toNat % 65536 = 5 ∧ (s.core 7).xreq? 5 = some xreq5 ∧ xreq5.agent = 0 ∧ (s.ctx 7 0).wait = .xlate 5 ∧
      (s.ctx 7 0).st ≠ .halted ∧ 7 ≠ s.curCore) ∧
    ((entWord (refusal 0x22) 0).getLsbD 63 = false ∧ refusalCause ((entWord (refusal 0x22) 0).toNat % 256) = none ∧ entTarget (refusal 0x24) = 7) ∧
    (refusalCause ((entWord (refusal 0x24) 0).toNat % 256) = some .xlate ∧ clusterOf 7 = clusterOf (filling (refusal 0x24) true).curCore) ∧
    (let s := awaiting (filling (refusal 0x24) true); (s.core 7).xreq? 5 = some xreq5 ∧ (s.core 7).opsOf 0 = []) ∧
    (let s := probing 256 []; clusterOf ((s.reg 16).toNat % 8192) ≠ clusterOf s.curCore) ∧
    (let s := probing 7 []; (s.reg 16).toNat % 8192 = 7 ∧ ((s.core 7).l1tlb ++ (s.core 7).l2tlb).find? (fun e => e.covers 0x100000 && decide (e.domain = 0)) = none) ∧
    (let s := probing 7 [page .tracked]; ((s.core 7).l1tlb ++ (s.core 7).l2tlb).find? (fun e => e.covers 0x100000 && decide (e.domain = (s.reg 16).toNat / 65536 % 1024)) = some (page .tracked)) ∧
    fld (BitVec.ofNat 64 (2 ^ 32) : Word) 32 1 = 1 := by decide +kernel

/-- A home's record of the first unit of the page. -/
def homed (s : State) (h : HomeUnit) : State := { s with homes := [(homeKey 1 0x200, h)] }
/-- TranslationSharers: invalidations at a core without an entry of the unit, with one, and that has dropped them; answers at a home that serves nobody, that serves a writer whose last answer it is, and that waits for another one. -/
theorem witness_TranslationSharers : (let s := sending (at255 0) .flying (.tinv 0x200 1 255 false); s.flight? 9 = some (Flight.mk 9 .flying (.tinv 0x200 1 255 false)) ∧ (s.core 255).derives 0x200 = false) ∧
    (let s := sending ((at255 0).modCore 255 fun k => { k with l2tlb := [{ page .tracked with srcs := [0x200] }] }) .flying (.tinv 0x200 1 255 false); (s.core 255).derives 0x200 = true) ∧
    (sending (at255 0) .flying (.tinv 0x200 1 255 true)).flight? 9 = some (Flight.mk 9 .flying (.tinv 0x200 1 255 true)) ∧
    (let s := sending (homed (at255 0) { HomeUnit.reset with tshare := [255] }) .flying (.tinvAck 0x200 1 255); s.flight? 9 = some (Flight.mk 9 .flying (.tinvAck 0x200 1 255)) ∧ (s.home 1 0x200).busy = none) ∧
    (let s := sending (homed (at255 0) { HomeUnit.reset with tshare := [255], tacks := [255], busy := some (.own 7 0 .m) }) .flying (.tinvAck 0x200 1 255); (s.home 1 0x200).busy = some (.own 7 0 .m) ∧ (s.home 1 0x200).tacks = [255] ∧ (s.home 1 0x200).acks = [] ∧ (s.home 1 0x200).snoop = false ∧ s.grantInFlight 1 0x200 = false) ∧
    (let s := sending (homed (at255 0) { HomeUnit.reset with tshare := [255, 9], tacks := [255, 9], busy := some (.own 7 0 .m) }) .flying (.tinvAck 0x200 1 255); (s.home 1 0x200).busy = some (.own 7 0 .m) ∧ 9 ∈ (s.home 1 0x200).tacks ∧ 9 ≠ 255) := by decide +kernel

/-- Page operands: a page of 4 KiB, and another one. -/
def pages (a b : Nat) (l : List PageBlk) : State := { regs [(16, BitVec.ofNat 64 a), (17, BitVec.ofNat 64 b)] with pages := l }
/-- A BLOCKED page with a queue. -/
def blk (base : Nat) (q : List Nat) : PageBlk := PageBlk.mk base 0 .blocked q [] []
/-- BlockingPages: user mode; outstanding accesses; a size, an alignment and a device that no page has; an open page, a blocked one, one to open at itself and at another page. -/
theorem witness_BlockingPages : user255.me.mode = .user ∧ (at255 0).me.mode = .supervisor ∧
    (let s := withOps [{ op0 with isStore := true, lanes := [{ lane0 with place := .unit 1 .tracked 0 0x10000, op := .write 1 255, done := false }] }]; s.accessesDone s.curCore s.curCtx = false) ∧
    (pages 0x10000 0 []).Settled ∧ (4 < (5 : Word).toNat % 8) ∧ (pageBase 0x10800 % 2 ^ pageBits 0 ≠ 0) ∧
    ((0x40000010000 : Word).toNat % 8 ≤ 4 ∧ pageBase 0x40000010000 % 2 ^ pageBits 0 = 0 ∧ pageBase 0x40000010000 / 2 ^ 42 ≠ (at255 0).devNum) ∧
    LocalPage (pages 0x10000 0 []) 0x10000 0 ∧ (pages 0x10000 0 []).page? 0x10000 0 = none ∧
    (let s := pages 0x10000 0x10000 [blk 0x10000 [9]]; s.page? 0x10000 0 = some (blk 0x10000 [9]) ∧ (blk 0x10000 [9]).st = .blocked ∧ LocalPage s (s.reg 17) 0 ∧ pageBase (s.reg 17) % 2 ^ 42 = 0x10000) ∧
    (let s := pages 0x10000 0x20000 [blk 0x10000 [9], blk 0x20000 [4]]; LocalPage s (s.reg 17) 0 ∧ s.page? 0x10000 0 = some (blk 0x10000 [9]) ∧ pageBase (s.reg 17) % 2 ^ 42 = 0x20000 ∧
      0x10000 ≠ 0x20000 ∧ s.page? 0x20000 0 = some (blk 0x20000 [4]) ∧ (blk 0x20000 [4]).st = .blocked) := by
  unfold State.Settled LocalPage; decide +kernel

/-- A store of core 255 that waits for the first unit of the page. -/
def storingAt (cls : Cls) : Op := { op0 with isStore := true, fin := .none, lanes := [{ lane0 with va := 0x100000, n := 4, place := .unit 1 cls 0 0x10000, op := .write 5 15, done := false }] }
/-- A request for that unit. -/
def ask : Pkt := .ownReq 0x200 1 0 255 .m
/-- A LOAD of four bytes at the start of the page. -/
def packet0 : Packet := { opc := 0, pa := 0x10000, dev := 1, core := 3, tag := 2, inc := 0, len := 4, stamp := 0, lag := 63, mode := 0, cls := 0, domain := 0, aop := 0, stale := false, status := 0, payload := 0, via := none }
/-- A device with a partition and a key. -/
def fabric (s : State) : State := { s with dev := { s.dev with fabcfg := BitVec.ofNat 64 (3 * 2 ^ 62) } }
/-- BlockedAccesses: an access at a page with room and with a full queue, refused ones, returned ones that nobody waits for and that translate to the page that
holds their slot, and ones that name no address of the module. -/
theorem witness_BlockedAccesses : (let s : State := { sending (at255 0) .flying ask with pages := [blk 0x10000 []] }; s.flight? 9 = some (flying 9 ask) ∧ ask.unit? = some 0x200 ∧ s.blockOf (128 * 0x200) = some (blk 0x10000 []) ∧ 9 ∉ (blk 0x10000 []).slots ∧ s.cameTo (.msg 9) 0x200 = false ∧
      (blk 0x10000 []).queue.length - (blk 0x10000 []).moved.length < 64) ∧
    64 ≤ (blk 0x10000 (List.replicate 64 1)).queue.length - (blk 0x10000 (List.replicate 64 1)).moved.length ∧
    (let s := sending (at255 0) .refused ask; s.flight? 9 = some (Flight.mk 9 .refused ask)) ∧
    (let s : State := fabric (sending (at255 0) .refused (.pktOut packet0 0 0)); s.flight? 9 = some (Flight.mk 9 .refused (.pktOut packet0 0 0)) ∧ s.fabricUp = true) ∧
    (let s := sending (at255 0) .replay ask; s.flight? 9 = some (Flight.mk 9 .replay ask) ∧ s.forwarded 255 = 255 ∧ (s.core 255).ops = [] ∧ s.pages = [] ∧ s.setHolds = []) ∧
    (let s : State := { (sending (mapped .tracked []) .replay ask).modCore 255 fun k => { k with ops := [storingAt .tracked] } with pages := [PageBlk.mk 0x10000 0 .replaying [] [9] []] }; (s.core 255).ops = [storingAt .tracked] ∧ (∀ l ∈ (storingAt .tracked).lanes, replayLane ask (storingAt .tracked) l = true ∧
        (match s.engineXlateAt (storingAt .tracked).pc 255 (s.core 255).domain 4 ((storingAt .tracked).ctx + 16 * 9) (storingAt .tracked).sup l.accOf l.va with
          | (.hit (.unit e pa), w) => decide (e.cls = .tracked ∧ pa = 0x10000 ∧ w.freeTags 255 1 ≠ [])
          | _ => false) = true) ∧
      s.blockOf 0x10000 = some (PageBlk.mk 0x10000 0 .replaying [] [9] []) ∧ 9 ∈ (PageBlk.mk 0x10000 0 .replaying [] [9] []).slots) ∧
    [Pkt.pktIn packet0, .writeBack 255 [] 0x200 1 0 1 0 false, .hostAcc 0x10000 4 none].all (fun k => let s := sending (at255 0) .replay k;
      decide (s.flight? 9 = some (Flight.mk 9 .replay k)) && s.pages.isEmpty && s.setHolds.isEmpty) = true := by decide +kernel

/-- A message about the first unit of the page, and its home's record. -/
def atHome (p : Pkt) (h : HomeUnit) : State := sending (homed (at255 0) h) .flying p
/-- A copy of that unit in core 7. -/
def held (st : Dir) : Copy := { copy0 with cls := .tracked, st := st }
/-- An L1 of core 255 with operations that wait for the unit. -/
def expecting (ops : List Op) (p : Pkt) : State := (sending (at255 0) .flying p).modCore 255 fun k => { k with ops := ops }
/-- The lane of a store. -/
def storeLane : Lane := { lane0 with va := 0x100000, n := 4, place := .unit 1 .tracked 0 0x10000, op := .write 5 15, done := false }
/-- TrackedRequests: a home that serves another request; a unit that nobody else holds, that others share, that another holds; recalls of no copy, of a copy, of an instruction cache; an answer that is not the last,
and the last with data; grants with and without a store; the host's answers. -/
theorem witness_TrackedRequests :
    (let s := atHome ask { HomeUnit.reset with busy := some (.own 7 0 .m) }; s.flight? 9 = some (flying 9 ask) ∧ s.pages = [] ∧ s.setHolds = [] ∧ s.blockOf (128 * 0x200) = none ∧ s.setHold 1 0x200 = none ∧ tget? (s.cdr 1).stay 0x200 = none ∧ (s.home 1 0x200).busy.isSome ∧ (s.home 1 0x200).queue = [] ∧ 255 < 2 ^ 20) ∧
    (let s := atHome ask { HomeUnit.reset with sharers := [255], dir := .s }; (s.home 1 0x200).busy = none ∧ s.turnAt (.msg 9) 1 0x200 true = true ∧ s.grantInFlight 1 0x200 = false ∧ (s.home 1 0x200).host = false ∧
      (s.home 1 0x200).snoop = false ∧ (s.home 1 0x200).tacks = [] ∧ s.copyOwner 1 0x200 = none ∧ s.pinned 1 0x200 = false ∧ (s.home 1 0x200).tshare = [] ∧
      (match s.fillFor 1 0x200 none false with | .done w _ => decide (w.home 1 0x200 = s.home 1 0x200 ∧ w.net = s.net ∧ w.nextId = s.nextId ∧ w.pages = s.pages ∧ w.setHolds = s.setHolds) | _ => false) = true ∧
      ∀ a ∈ (s.home 1 0x200).sharers, a = 255) ∧
    (let s := atHome (.ownReq 0x200 1 0 255 .s) { HomeUnit.reset with sharers := [7], dir := .s }; s.flight? 9 = some (flying 9 (.ownReq 0x200 1 0 255 .s)) ∧ (s.home 1 0x200).dir ≠ .e ∧ (s.home 1 0x200).dir ≠ .m ∧ s.turnAt (.msg 9) 1 0x200 false = true) ∧
    (let s := atHome ask { HomeUnit.reset with sharers := [7], dir := .m }; 7 ∈ agents (s.home 1 0x200).sharers ∧ 7 ≠ 255 ∧ (s.home 1 0x200).dir = .m) ∧
    (let s := atHome (.recall 0x200 1 7 true) HomeUnit.reset; s.flight? 9 = some (Flight.mk 9 .flying (.recall 0x200 1 7 true)) ∧ 7 < 8192 ∧ (s.core 7).copy? 0x200 .tracked = none) ∧
    ((((atHome (.recall 0x200 1 7 true) HomeUnit.reset).modCore 7 fun k => { k with l1 := [held .m] }).core 7).copy? 0x200 .tracked = some (held .m)) ∧
    (atHome (.recall 0x200 1 8192 true) HomeUnit.reset).flight? 9 = some (Flight.mk 9 .flying (.recall 0x200 1 8192 true)) ∧
    (let s := atHome (.invAck 0x200 1 7 none) { HomeUnit.reset with busy := some (.own 255 0 .m), acks := [7, 8], sharers := [7, 8] }; s.flight? 9 = some (Flight.mk 9 .flying (.invAck 0x200 1 7 none)) ∧ (s.core 7).copy? 0x200 .tracked = none ∧ s.grantInFlight 1 0x200 = false ∧ 8 ∈ (s.home 1 0x200).acks ∧ 8 ≠ 7 ∧
        (s.home 1 0x200).busy = some (.own 255 0 .m)) ∧
    (let s := atHome (.invAck 0x200 1 7 (some (0, 5, false))) { HomeUnit.reset with busy := some (.own 255 0 .m), acks := [7], sharers := [7] }; (s.core 7).copy? 0x200 .tracked = none ∧ s.grantInFlight 1 0x200 = false ∧ (s.home 1 0x200).busy = some (.own 255 0 .m) ∧ (∀ x ∈ (s.home 1 0x200).acks, x = 7) ∧ (s.home 1 0x200).tacks = [] ∧
        (s.home 1 0x200).snoop = false ∧ s.vlines = []) ∧
    (let s := expecting [] (.grant 0x200 1 0 255 .e 0 false); s.flight? 9 = some (Flight.mk 9 .flying (.grant 0x200 1 0 255 .e 0 false)) ∧ (s.home 1 0x200).queue = [] ∧ (s.home 1 0x200).tshare = [] ∧ (s.core 255).copyOf 0x200 = none ∧ (∀ f ∈ s.net, f.hold ≠ .served) ∧
      ((s.core 255).l1.filter fun y => y.unit % 64 == 0x200 % 64).length < 4 ∧ (s.core 255).ops = []) ∧
    (let o : Op := { op0 with isStore := true, fin := .none, lanes := [storeLane] }; let s := expecting [o] (.grant 0x200 1 0 255 .m 0 false); (s.core 255).ops = [o] ∧ o.lanes = [storeLane] ∧
      storeLane.done = false ∧ storeLane.place = .unit 1 .tracked 0 0x10000 ∧ 0x10000 / 128 = 0x200 ∧ o.fault = none ∧ o.ctx ≠ noCtx ∧ (s.home 1 0x200).tshare = [] ∧ (storeLane.op.apply storeLane.n (unitGet 0 (0x10000 % 128) storeLane.n)).isSome) ∧
    (let s := atHome (.bisnp 0x200 1 true) { HomeUnit.reset with host := true, snoop := true }; s.flight? 9 = some (Flight.mk 9 .flying (.bisnp 0x200 1 true)) ∧ (s.home 1 0x200).busy = none ∧
      (s.home 1 0x200).tshare = [] ∧ s.pinned 1 0x200 = false ∧ s.vlines = [] ∧ agents (s.home 1 0x200).sharers = []) :=
  by and_intros <;> decide +kernel

/-- Where a unit is untouched, a test says so. -/
theorem untouched_of_test {s : State} {v u : Nat} (h : s.home v u = HomeUnit.reset ∧ s.grantInFlight v u = false ∧ s.blockOf (128 * u) = none ∧
    (s.setHold v u = none ∧ tget? (s.cdr v).stay u = none) ∧ (s.copyOwner v u = none ∧ s.pinned v u = false) ∧ s.vlines = []) : Untouched s v u :=
  ⟨h.1, h.2.1, h.2.2.1, h.2.2.2.1, h.2.2.2.2.1, by rw [h.2.2.2.2.2]; intro l h; cases h⟩
/-- No message stands at a slot where no page has one. -/
theorem noSlot_of_test {s : State} (id : Nat) (h : s.pages = [] ∧ s.setHolds = []) : NoSlot s id :=
  by unfold NoSlot; rw [h.1, h.2]; simp
/-- A STAMPED store, and a STAMPED read of an iteration, a bound and a mode. -/
def stampedStore : Op := { op0 with isStore := true, fin := .none, lanes := [{ storeLane with place := .unit 1 .stamped 0 0x10000 }] }
def stampedRead (iter : BitVec 16) (lag mode : Nat) : Op := { op0 with isLoad := true, iter := iter, lag := lag, ldlMode := mode, fin := .ldl .none .none 4 false, due := some 5, lanes := [{ storeLane with place := .unit 1 .stamped 0 0x10000, op := .read }] }
/-- StampedTraffic: a store; a read whose bound the stamp 0 meets, and one of each mode whose bound it does not; 32 waiters; a bounded read in time and late. -/
theorem witness_StampedTraffic : (let s := expecting [stampedStore] (.stStore 255 0 0x200); s.forwarded 255 = 255 ∧ (s.core 255).op? 0 = some stampedStore ∧ s.flight? 9 = some (flying 9 (.stStore 255 0 0x200)) ∧ NoSlot s 9 ∧ Untouched s 1 0x200 ∧ s.stampedNext (flying 9 (.stStore 255 0 0x200)) = true ∧ s.matesLet (flying 9 (.stStore 255 0 0x200)) stampedStore = true ∧
        stampedStore.fault = none ∧ ∀ l ∈ stampedStore.lanes, l.done = false ∧ (l.op.apply l.n (unitGet ((s.hbmUnit 0x200).under 0).data (0x10000 % 128) l.n)).isSome) ∧
    (let s := expecting [stampedRead 3 3 0] (.stRead 255 0 0x200); (s.core 255).op? 0 = some (stampedRead 3 3 0) ∧ s.stampedNext (flying 9 (.stRead 255 0 0x200)) = true ∧ s.matesLet (flying 9 (.stRead 255 0 0x200)) (stampedRead 3 3 0) = true ∧ s.clock ≤ 5 ∧ (s.hbmUnit 0x200).poison = false ∧
      accepts 3 3 ((s.hbmUnit 0x200).under 0).stamp = true) ∧
    [0, 1, 2].all (fun m => let s := expecting [stampedRead 3 2 m] (.stRead 255 0 0x200)
      decide ((s.core 255).op? 0 = some (stampedRead 3 2 m)) && !accepts 2 3 ((s.hbmUnit 0x200).under 0).stamp && decide (s.bankWaiters (s.homeCore 1 0x200) < 32)) = true ∧
    (let s := expecting [stampedRead 3 2 0] (.stRead 255 0 0x200); let t : State := { s with stWaiters := List.replicate 32 { home := s.homeCore 1 0x200, unit := 0, core := 9, op := 0, remote := none, iter := 0, lag := 0 } }; 32 ≤ t.bankWaiters (t.homeCore 1 0x200)) ∧
    (let s := expecting [stampedRead 3 2 0] (.stRead 255 0 0x200); s.fabReqs = [] ∧ s.clock ≤ 5 ∧ (5 : Nat) < ({ s with clock := 6 } : State).clock) :=
  ⟨⟨by decide +kernel, by decide +kernel, by decide +kernel, noSlot_of_test _ (by decide +kernel), untouched_of_test (by decide +kernel), by decide +kernel, by decide +kernel, by decide +kernel⟩,
    by decide +kernel, by decide +kernel, by decide +kernel, by decide +kernel⟩

/-- HCTL's enable, and an entry of the export table for the page, with the right to write or without. -/
def exported (write : Bool) : State := { at255 0 with cdrs := [(1, cache1)], dev := { Dev.reset with hostcfg := 1024, exports := [(0, (0x10000, BitVec.ofNat 64 (2 ^ 63 + write.toNat * 2 ^ 62 + 2 ^ 61 + 2 ^ 42 + 1)))] } }
/-- Nothing comes before an access of the host where no message is on its way. -/
theorem hostTurn_of_quiet {s : State} {a : Nat} (n : s.net = []) (p : s.pages = []) (h : s.setHolds = []) : HostTurn s a :=
  ⟨by rw [n]; simp, noSlot_of_test _ ⟨p, h⟩, by rw [n]; simp⟩
/-- HostAndWriteBack: write-backs of every word and of one; a store to the host window; host accesses without the enable, without an entry, with one for reads, with one for both; one
whose home is busy. -/
theorem witness_HostAndWriteBack : (let s := sending (at255 0) .flying (.writeBack 255 [0] 0x200 1 0 1 0 false); s.flight? 9 = some (flying 9 (.writeBack 255 [0] 0x200 1 0 1 0 false)) ∧ NoSlot s 9 ∧ Untouched s 1 0x200 ∧ (1 : BitVec 16) ≠ BitVec.allOnes 16) ∧
    (let o : Op := { op0 with isStore := true, fin := .none, lanes := [{ storeLane with place := .hostw 0x40 }] }; let s := expecting [o] (.hostStore 255 0 8); s.flight? 9 = some (Flight.mk 9 .flying (.hostStore 255 0 8)) ∧ s.forwarded 255 = 255 ∧ (s.core 255).op? 0 = some o ∧ o.lanes = [{ storeLane with place := .hostw 0x40 }] ∧ 0x40 / 8 = 8 ∧ storeLane.done = false ∧ storeLane.op ≠ .later ∧
        (storeLane.op.apply storeLane.n (s.hostMem.read 0x40 storeLane.n)).isSome) ∧
    (at255 0).dev.hostcfg.getLsbD 10 = false ∧ (exported true).dev.hostcfg.getLsbD 10 = true ∧
    ((exported true).exportVc 0 0x20000 (fun w => w.getLsbD 61) = none ∧ (exported false).exportVc 0 0x10000 (fun w => w.getLsbD 61 && w.getLsbD 62) = none) ∧
    ((exported false).exportVc 0 0x10FFF (fun w => w.getLsbD 61) = some 1 ∧ Untouched (exported false) 1 (0x10FFF / 128)) ∧
    ((exported true).exportVc 0 0x10FFF (fun w => w.getLsbD 61 && w.getLsbD 62) = some 1 ∧ Untouched (exported true) 1 (0x10FFF / 128) ∧ 0x10FFF % 128 + 1 ≤ 128) ∧
    (∀ w a, HostTurn (exported w) a) ∧ HostTurn (at255 0) 0x10000 ∧
    (let s := homed (exported true) { HomeUnit.reset with busy := some (.own 7 0 .m) }; s.blockOf (128 * 0x200) = none ∧ (s.home 1 0x200).busy.isSome ∧
      s.exportVc 0 0x10000 (fun w => w.getLsbD 61 && w.getLsbD 62) = some 1 ∧ HostTurn s 0x10000) :=
  ⟨⟨by decide +kernel, noSlot_of_test _ (by decide +kernel), untouched_of_test (by decide +kernel), by decide⟩, by decide +kernel, by decide +kernel, by decide +kernel, by decide +kernel,
    ⟨by decide +kernel, untouched_of_test (by decide +kernel)⟩, ⟨by decide +kernel, untouched_of_test (by decide +kernel), by decide⟩,
    fun _ _ => hostTurn_of_quiet rfl rfl rfl, hostTurn_of_quiet rfl rfl rfl, by decide +kernel, by decide +kernel, by decide +kernel, hostTurn_of_quiet rfl rfl rfl⟩

/-- A device whose export table gives cache 1 for the page to the fabric, with the right to write, and a packet that has arrived. -/
def arrived (p : Packet) : State :=
  fabric { sending (exported true) .flying (.pktIn p) with dev := { Dev.reset with exports := [(0, (0x10000, BitVec.ofNat 64 (2 ^ 63 + 2 ^ 62 + 2 ^ 60 + 2 ^ 42 + 1)))] } }
/-- Where a packet is served, a test says so. -/
theorem served_of_test {p : Packet} {n : Nat} {w : Bool} (h : (arrived p).packetNext (flying 9 (.pktIn p)) p = true ∧ (arrived p).fabricUp = true ∧ (arrived p).inPartition p.dev = true ∧ (arrived p).turnOf (.msg 9) = none ∧ (0 < n ∧ p.loc % 128 + n ≤ 128) ∧
    (arrived p).permit p p.loc w = some 1) (h1 : (arrived p).flight? 9 = some (flying 9 (.pktIn p)))
    (hu : (arrived p).home 1 (p.loc / 128) = HomeUnit.reset ∧ (arrived p).grantInFlight 1 (p.loc / 128) = false ∧ (arrived p).blockOf (128 * (p.loc / 128)) = none ∧
      ((arrived p).setHold 1 (p.loc / 128) = none ∧ tget? ((arrived p).cdr 1).stay (p.loc / 128) = none) ∧ ((arrived p).copyOwner 1 (p.loc / 128) = none ∧ (arrived p).pinned 1 (p.loc / 128) = false) ∧ (arrived p).vlines = []) :
    Served (arrived p) 9 p p.opc n w 1 :=
  ⟨h1, rfl, noSlot_of_test _ ⟨rfl, rfl⟩, h.1, h.2.1, h.2.2.1, h.2.2.2.1, h.2.2.2.2.1, h.2.2.2.2.2, untouched_of_test hu⟩
/-- Packets of each code at the page. -/
def load0 (stamp : BitVec 16) (lag mode : Nat) : Packet := { packet0 with cls := 1, stamp := stamp, lag := lag, mode := mode }
def store0 : Packet := { packet0 with opc := 1, payload := BitVec.ofNat 2048 (5 + 2 ^ 1024 * 0xFF00FFFF) }
def atomic0 : Packet := { packet0 with opc := 2, aop := 0, payload := 5 }
def cas0 (quad : Bool) : Packet := { packet0 with opc := 3, len := 65, payload := BitVec.ofNat 2048 (quad.toNat * 2 ^ 512) }
def enq0 : Packet := { packet0 with opc := 4, len := 8, payload := BitVec.ofNat 2048 (0x10040 * 2 ^ 512 + 0x77 * 2 ^ 320) }
def chase0 (first key : Nat) (next hops : Nat) : Packet := { packet0 with opc := 5, len := 8, payload := BitVec.ofNat 2048 (12 * 2 ^ 576 + first * 2 ^ 512 + hops * 2 ^ 352 + 8 * 2 ^ 336 + next * 2 ^ 320 + key * 2 ^ 256) }

/-- FabricHomes: a packet that no entry permits; loads of each kind, within the bound and beyond it, with room and without; a store with a mask; an ATOMIC that writes; a CAS2; an ENQ; a WITHDRAW. -/
theorem witness_FabricHomes : (let p := { packet0 with pa := 0x20000 }; let s := arrived p; s.flight? 9 = some (flying 9 (.pktIn p)) ∧ s.pages = [] ∧ s.setHolds = [] ∧ s.packetNext (flying 9 (.pktIn p)) p = true ∧
      s.blockOf (128 * (p.loc / 128)) = none ∧ 0 < p.len ∧ s.permit p p.loc false = none) ∧
    (Served (arrived packet0) 9 packet0 0 packet0.len false 1 ∧ packet0.cls ≠ 1) ∧
    (Served (arrived (load0 3 3 0)) 9 (load0 3 3 0) 0 (load0 3 3 0).len false 1 ∧ accepts 3 3 (packetUnit (arrived (load0 3 3 0)) (load0 3 3 0)).stamp = true) ∧
    (∀ m ∈ [0, 1, 2], Served (arrived (load0 3 2 m)) 9 (load0 3 2 m) 0 (load0 3 2 m).len false 1 ∧ accepts 2 3 (packetUnit (arrived (load0 3 2 m)) (load0 3 2 m)).stamp = false ∧
      (arrived (load0 3 2 m)).bankWaiters ((arrived (load0 3 2 m)).homeCore 1 ((load0 3 2 m).loc / 128)) < 32) ∧
    (Served (arrived store0) 9 store0 1 store0.len true 1 ∧ store0.payload.toNat / 2 ^ 1024 < 2 ^ (8 * store0.len)) ∧
    (Served (arrived atomic0) 9 atomic0 2 atomic0.atomicOp.1 true 1 ∧ packetPoison (arrived atomic0) atomic0 = false ∧
      (atomic0.atomicOp.2.apply atomic0.atomicOp.1 (unitGet (packetUnit (arrived atomic0) atomic0).data (atomic0.loc % 128) atomic0.atomicOp.1)).isSome) ∧
    (∀ q, Served (arrived (cas0 q)) 9 (cas0 q) 3 (if (cas0 q).payload.getLsbD 512 then 32 else 16) true 1 ∧ packetPoison (arrived (cas0 q)) (cas0 q) = false) ∧
    (Served (arrived enq0) 9 enq0 4 8 true 1 ∧ enq0.payload.toNat / 2 ^ 512 % 2 ^ 42 = 0x10040 ∧ (arrived enq0).permit enq0 0x10040 true = some 1 ∧ 0x10040 / 128 = enq0.loc / 128 ∧ 0x10040 % 8 = 0 ∧
      enq0.loc % 8 = 0 ∧ 0x10040 ≠ enq0.loc ∧ packetPoison (arrived enq0) enq0 = false) ∧
    (arrived { packet0 with opc := 6 }).flight? 9 = some (Flight.mk 9 .flying (.pktIn { packet0 with opc := 6 })) :=
  ⟨by decide +kernel, ⟨served_of_test (by decide +kernel) (by decide +kernel) (by decide +kernel), by decide⟩,
    ⟨served_of_test (by decide +kernel) (by decide +kernel) (by decide +kernel), by decide +kernel⟩,
    fun m hm => by
      rcases List.mem_cons.mp hm with rfl | hm
      · exact ⟨served_of_test (by decide +kernel) (by decide +kernel) (by decide +kernel), by decide +kernel, by decide +kernel⟩
      rcases List.mem_cons.mp hm with rfl | hm
      · exact ⟨served_of_test (by decide +kernel) (by decide +kernel) (by decide +kernel), by decide +kernel, by decide +kernel⟩
      rcases List.mem_singleton.mp hm with rfl
      exact ⟨served_of_test (by decide +kernel) (by decide +kernel) (by decide +kernel), by decide +kernel, by decide +kernel⟩,
    ⟨served_of_test (by decide +kernel) (by decide +kernel) (by decide +kernel), by decide +kernel⟩,
    ⟨served_of_test (by decide +kernel) (by decide +kernel) (by decide +kernel), by decide +kernel, by decide +kernel⟩,
    fun q => (by cases q <;> exact ⟨served_of_test (by decide +kernel) (by decide +kernel) (by decide +kernel), by decide +kernel⟩),
    ⟨served_of_test (by decide +kernel) (by decide +kernel) (by decide +kernel), by decide +kernel⟩, by decide +kernel⟩

/-- FabricChase: a null pointer; a misaligned key; a key outside the page; a node whose key meets the predicate, one that does not, with one hop and with two, whose next pointer is null or lies outside the page. -/
theorem witness_FabricChase : (∀ p ∈ [chase0 0 0 0 1, chase0 0x300001 0 0 1, chase0 0x300FF8 0 0 1, chase0 0x300000 0 0 1, chase0 0x300000 7 0 1, chase0 0x300000 7 0 2, chase0 0x300000 7 0x1000 2],
      Served (arrived p) 9 p 5 8 false 1) ∧
    (chase0 0x300001 0 0 1).payload.toNat / 2 ^ 512 % 2 ^ 56 = 0x300001 ∧ (0x300001 + 8) % 8 ≠ 0 ∧ (0x300FF8 + 8) / 2 ^ 12 ≠ 0x300FF8 / 2 ^ 12 ∧
    (let p := chase0 0x300000 7 0 2; p.payload.toNat / 2 ^ 512 % 2 ^ 56 = 0x300000 ∧ p.payload.toNat / 2 ^ 576 % 64 = 12 ∧ p.payload.toNat / 2 ^ 336 % 65536 = 8 ∧ p.payload.toNat / 2 ^ 320 % 65536 = 0 ∧
      p.loc - 0x300000 % 2 ^ 12 + 0x300008 % 2 ^ 12 = 0x10008 ∧ p.loc - 0x300000 % 2 ^ 12 + 0x300000 % 2 ^ 12 = 0x10000 ∧ 0x10008 / 128 = p.loc / 128 ∧ (arrived p).permit p 0x10008 false = some 1 ∧
      (arrived p).permit p 0x10000 false = some 1 ∧ packetPoison (arrived p) p = false ∧ unitGet (packetUnit (arrived p) p).data (0x10008 % 128) 8 = 0 ∧
      unitGet (packetUnit (arrived p) p).data (0x10000 % 128) 8 = 0 ∧ chasePred p.operand 0 = false ∧ p.payload.toNat / 2 ^ 352 % 256 ≠ 1) ∧
    (let p := chase0 0x300000 7 0x1000 2; p.payload.toNat / 2 ^ 320 % 65536 = 0x1000 ∧ 0x301000 / 2 ^ 12 ≠ 0x300000 / 2 ^ 12 ∧ (arrived p).permit p 0x10008 false = some 1 ∧ packetPoison (arrived p) p = false ∧
      unitGet (packetUnit (arrived p) p).data (0x10008 % 128) 8 = 0 ∧ chasePred p.operand 0 = false ∧ p.payload.toNat / 2 ^ 352 % 256 ≠ 1) ∧
    chasePred (chase0 0x300000 0 0 1).operand 0 = true ∧ (chase0 0x300000 7 0 1).payload.toNat / 2 ^ 352 % 256 = 1 := by
  refine ⟨fun p hp => ?_, by decide +kernel⟩
  have h : p.opc = 5 := by revert p; decide +kernel
  rw [← h]
  refine served_of_test ?_ ?_ ?_ <;> (revert p; decide +kernel)

/-- A remote load and a remote store of core 255 under tag 2, their request, and a reply that has arrived. -/
def remoteLane : Lane := { lane0 with va := 0x100000, n := 4, place := .remote .untracked 0 0x40000010000, op := .read, done := false }
def remoteLoad (due : Option Nat) : Op := { op0 with isLoad := true, fin := .load (.ram 10) 4 false, due := due, lanes := [remoteLane] }
def remoteStore : Op := { op0 with isStore := true, fin := .none, lanes := [{ remoteLane with op := .write 5 15 }] }
def req (write : Bool) : FabReq := { core := 255, tag := 2, inc := 0, op := 0, group := 0x40000010000 / 128, ctx := 0, write := write, bar := none, sentAt := 0, dev := 1 }
def reply (opc status : Nat) : Packet := { packet0 with opc := opc, core := 255, dev := 0, status := status }
def replied (o : Op) (w : Bool) (p : Packet) : State := { (sending (at255 0) .flying (.pktIn p)).modCore 255 fun k => { k with ops := [o] } with fabReqs := [req w] }
/-- FabricReplies: a reply that is the next, and one that is not; one that nobody awaits; data, poison, a trap, a refusal, an acknowledgement and a NACK for a load and a store; a request in time and late; a packet that is young and old. -/
theorem witness_FabricReplies : (∀ p, NextReply (sending (at255 0) .flying (.pktIn p)) 9 p) ∧ (∀ o w p, NextReply (replied o w p) 9 p) ∧
    ¬ NextReply { at255 0 with net := [flying 8 (.pktIn (reply 8 0)), flying 9 (.pktIn (reply 9 0))] } 9 (reply 9 0) ∧ (sending (at255 0) .flying (.pktIn (reply 8 0))).requestOf (reply 8 0) = none ∧
    (∀ st ∈ [0, 1, 2, 3], (replied (remoteLoad none) false (reply 8 st)).flight? 9 = some (Flight.mk 9 .flying (.pktIn (reply 8 st))) ∧
      (replied (remoteLoad none) false (reply 8 st)).requestOf (reply 8 st) = some (req false) ∧ (reply 8 st).status = st) ∧
    (req false).bar = none ∧ (let s := replied (remoteLoad none) false (reply 8 0); 255 = s.forwarded 255 ∧ (s.core 255).op? 0 = some (remoteLoad none) ∧ remoteLane.done = false ∧
      (remoteLoad none).groupOf remoteLane = some (req false).group ∧ remoteLane.op = .read ∧ (remoteLoad none).hasResult = true ∧ (remoteLoad none).fault = none) ∧
    (let s := replied remoteStore true (reply 9 0); s.requestOf (reply 9 0) = some (req true) ∧ (s.core 255).op? 0 = some remoteStore ∧ remoteStore.fin = .none ∧ remoteStore.fault = none ∧ remoteStore.due = none) ∧
    (replied (remoteLoad none) false (reply 10 0)).requestOf (reply 10 0) = some (req false) ∧
    ((req true).write = true ∧ (req true).ctx < 100 ∧ remoteStore.isLoad = false ∧ remoteStore.ctx ≠ noCtx ∧ ((replied remoteStore true (reply 10 0)).ctx 255 0).fenceErr = none) ∧
    (let s := replied (remoteLoad none) false (reply 8 0); s.fabReqs.find? (fun r => r.core == 255 && r.tag == 2) = some (req false) ∧ s.clock ≤ (req false).sentAt + 2 ^ 22 ∧
      (req false).sentAt + 2 ^ 22 < ({ s with clock := 2 ^ 22 + 1 } : State).clock) ∧
    (let s := sending (at255 0) .flying (.pktOut packet0 0 0); s.flight? 9 = some (Flight.mk 9 .flying (.pktOut packet0 0 0)) ∧ s.clock < 0 + 2 ^ 24 ∧ 0 + 2 ^ 24 ≤ ({ s with clock := 2 ^ 24 } : State).clock) := by
  refine ⟨fun p f h => absurd h (by simp [sending]), fun o w p f h => absurd h (by simp [replied, sending]), fun h => absurd
    (h (flying 8 (.pktIn (reply 8 0))) (by decide +kernel) (reply 8 0) rfl (by decide)) (by decide +kernel), ?_⟩
  decide +kernel

/-- FabricPorts: a device without a partition, one with packets to send, packets for it, for another device and of reserved codes; a key register that has a key and one that has none, a block that opens or does not as the
free value says; a partition and none. -/
theorem witness_FabricPorts : (at255 0).fabricUp = false ∧ (fabric (at255 0)).fabricUp = true ∧ ((fabric (at255 0)).port 0).tx = [] ∧
    (({ fabric (at255 0) with ports := [(0, { Port.reset with tx := [packet0] })] } : State).port 0).tx ≠ [] ∧ ({ packet0 with opc := 7 } : Packet).opc = 7 ∧ 11 ≤ ({ packet0 with opc := 11 } : Packet).opc ∧
    (packet0.opc ≠ 7 ∧ packet0.opc < 11 ∧ packet0.pa.toNat / 2 ^ 42 = (fabric (at255 0)).devNum) ∧ ({ packet0 with opc := 8 } : Packet).dev ≠ (fabric (at255 0)).devNum ∧ ({ packet0 with opc := 8, pa := 0x40000000000 } : Packet).begunAt (fabric (at255 0)).devNum = false ∧
    (at255 0).dev.fabcfg.getLsbD 63 = false ∧ (fabric (at255 0)).dev.fabcfg.getLsbD 63 = true ∧ (at255 0).dev.fabcfg.getLsbD 62 = false ∧ (fabric (at255 0)).dev.fabcfg.getLsbD 62 = true := by decide +kernel
/-- FabricPorts: a port part way through a packet; a group to send again, which has failed twice and three times; one that is not kept; every key block opens or
does not, as the free value says. -/
theorem witness_Retransmission : (let p : Port := { Port.reset with tx := [{ packet0 with opc := 1, len := 100, payload := 5 }], part := 1 }; p.tx ≠ [] ∧ ∀ q, p.tx.head? = some q → p.part < q.flits) ∧
    (let p : Port := { Port.reset with replay := [(4, [packet0])], fails := [(4, 2), (5, 3)] }; p.replay.find? (fun g => g.1 == 4) = some (4, [packet0]) ∧ tget p.fails 4 0 < 3 ∧
      ∀ g ∈ p.replay, g.1 ≠ 5) ∧
    (let p : Port := { Port.reset with replay := [(4, [packet0])], fails := [(4, 3)] }; 3 ≤ tget p.fails 4 0 ∧ packet0.opc < 6 ∧ ({ packet0 with dev := 0 } : Packet).dev = (at255 0).devNum) ∧
    6 ≤ (reply 8 0).opc ∧ ∀ l, Config.jobKey l = none ∨ ∃ k, Config.jobKey l = some k :=
  ⟨by decide +kernel, by decide +kernel, by decide +kernel, by decide, fun l => by cases Config.jobKey l <;> simp⟩

/-- Tile 0 is LAZY, with its image in the page, which core 255 translates or not. -/
def lazy0 (known : Bool) : State := (tiled (if known then objects false [] else at255 0) { tile0 with st := 3 } []).modCore 255 fun k => { k with tsavep := 0x100000 }
/-- DeviceRegisters: a hole of a core's window; copies of the era that a write of ITER makes unreachable and of another; shapes of each kind; no LAZY tile, and one whose image is at hand or has to be waited for; MXSTEP with and without PEND. -/
theorem witness_DeviceRegisters : windowCsr 0 = none ∧ (0 : Nat) < 4096 ∧ (((at255 0).ctx 255 0).iter ≠ (0xC000 : Word).setWidth 16) ∧
    (0x4000 : BitVec 16).toNat / 16384 = ((0xC000 : Word).toNat % 65536 / 16384 + 2) % 4 ∧ (0x8000 : BitVec 16).toNat / 16384 ≠ ((0xC000 : Word).toNat % 65536 / 16384 + 2) % 4 ∧
    (0x400 : Word).toNat % 32 = 0 ∧ shapeOk ((0x44010 : Word).toNat % 32) ((0x44010 : Word).toNat / 256 % 128) ((0x44010 : Word).toNat / 65536 % 32) = true ∧
    shapeOk ((0x44011 : Word).toNat % 32) ((0x44011 : Word).toNat / 256 % 128) ((0x44011 : Word).toNat / 65536 % 32) = false ∧ (∀ j, j < 8 → ((at255 0).mine.tile j).st ≠ 3) ∧
    (let s := (tiled (at255 0) tile0 [mx0]).modCore 255 fun k => { k with mxpend := true }; (0 : Word).getLsbD 32 = false ∧ (s.core 255).mxpend = true ∧ (s.core 255).mxq = [mx0]) ∧
    ((0x100000000 : Word).getLsbD 32 = true ∧ ((at255 0).core 255).mxpend = false) ∧ ((at255 0).core 255).moving = false ∧ ((at255 0).mine.tile 0).st ≠ 3 ∧
    (((at255 0).modCore 255 fun k => { k with moving := true }).core ((at255 0).forwarded 255)).moving = true ∧ (at255 0).dev.stage ≠ 2 ∧
    [(lazy0 false, Reads.wait), (lazy0 true, .all)].all (fun p => decide ((p.1.mine.tile 0).st = 3 ∧ p.1.mine.moving = false ∧ (p.1.lazyByUnit 255 true 0).2 = p.2)) = true := by
  decide +kernel

/-- Cluster 0 logs core 255. -/
def logging (clock last : Nat) : State := { ((at255 0).modDbg 0 fun d => { d with tren := true }).modCore 255 fun k => { k with traceLast := last } with clock := clock, dev := { Dev.reset with dbgen := 7 } }
/-- Debugging: a log that runs and one that does not; gaps that need no entry and one; breakpoints enabled and not; a cross-trigger that is allowed, not allowed and already on; contexts of the cluster in each state. -/
theorem witness_Debugging : (at255 0).tracing (at255 0).curCore = false ∧ (let s := logging 10 4; s.tracing s.curCore = true ∧ s.clock - s.mine.traceLast < 2 ^ 28 ∧ s.mine.traceState ≠ 0 ∧ s.mine.traceAt < 512 ∧
      ((s.modCore 255 fun k => { k with traceState := 0 }).mine.traceState = 0)) ∧
    (let s := logging (2 ^ 28) 0; s.tracing 255 = true ∧ 2 ^ 28 ≤ s.clock - (s.core 255).traceLast ∧ s.clock - (s.core 255).traceLast < 2 * (2 ^ 28 - 1)) ∧
    ((at255 0).dbgOf (clusterOf (at255 0).curCore)).bken = false ∧ (let s := (at255 0).modDbg 0 fun d => { d with bken := true }; (s.dbgOf (clusterOf s.curCore)).bken = true) ∧
    (at255 0).dev.dbgen.getLsbD 2 = false ∧ ((logging 0 0).dev.dbgen.getLsbD 2 = true ∧ ((logging 0 0).dbgOf 0).frozen = false) ∧
    (let s := (logging 0 0).modCtx 7 10 fun y => { y with st := .ready }; clusterOf 7 = 0 ∧ s.isCompute 7 = true ∧ (s.core 7).moving = false ∧ (s.ctx 7 10).st ≠ .dormant ∧ (s.ctx 7 10).st ≠ .halted) ∧
    (let s := (logging 0 0).modCtx 7 10 fun y => { y with st := .halted, gonged := some 0 }; (s.ctx 7 10).gonged = some 0 ∧ (s.ctx 7 10).st = .halted ∧ (s.ctx 7 10).wait = .none ∧ (s.ctx 7 10).ptrap = none ∧
      (s.ctx 7 10).rep = none ∧ (s.ctx 7 10).repst.getLsbD 63 = false) := by decide +kernel

/-- The host's memory with an image of two bodies of 16 bytes and a signature of one, with PLIM in its record, and a module that is to read it. -/
def image (plim : Nat) : State :=
  { State.reset with hostMem := [(0, 1), (8, 16), (16, 16), (24, 1), (64, 4), (72, plim)].foldl (fun m p => m.write p.1 p.2 8) [], dev := { Dev.reset with stage := 2, bootLen := 161 } }
/-- BringUp: a stage at which BOOTGO is ignored; an image that is well formed, in range and not, and one that is not well formed; the signature is good or not, as the free value says; a module that is READY with power above PLIM,
below fifteen sixteenths of it and between; temperatures of 105, 100 and between. -/
theorem witness_BringUp : (∀ n ∈ [1, 3, 4], ({ image 1000 with dev := { (image 1000).dev with stage := n } } : State).dev.stage = n) ∧ State.reset.dev.stage ≠ 2 ∧ (image 1000).dev.stage = 2 ∧ imageLens (image 1000).bootImage = (16, 16, 1) ∧ imageFormatOk (image 1000).bootImage (image 1000).dev.bootLen.toNat = true ∧
    configOk (image 1000).bootImage = true ∧ configOk (image 999).bootImage = false ∧ imageFormatOk (image 1000).bootImage 160 = false ∧
    (∀ a b, Config.imageSignatureValid a b = true ∨ Config.imageSignatureValid a b = false) ∧ State.reset.dev.ready = false ∧ ({ Dev.reset with ready := true } : Dev).ready = true ∧
    (1000 < 1001 ∧ 16 * 900 < 15 * 1000 ∧ ¬ 1000 < 940 ∧ ¬ 16 * 940 < 15 * 1000) ∧ (105 ≤ 105 ∧ 100 ≤ 100 ∧ ¬ 105 ≤ 104 ∧ ¬ 104 ≤ 100) := by
  have h : ∀ a b, Config.imageSignatureValid a b = true ∨ Config.imageSignatureValid a b = false := fun a b => by cases Config.imageSignatureValid a b <;> simp
  and_intros <;> first | exact h | decide +kernel

/-- Queue 1 in a state, with a launch, a head and a tail. -/
def queued (st : Nat) (l : Option Launch) (h : Nat) (t : BitVec 32) : Queue := { queue1 with w1 := BitVec.ofNat 64 (st * 2 ^ 62), launch := l, head := h, tail := t }
/-- A state with that queue. -/
def withQueue (s : State) (d : Queue) : State := { s with queues := [(1, d)] }
/-- A launch in a state. -/
def launchIn (st : LaunchState) (ws : List Word) : Launch := { Launch.ofWords 1 ws with st := st }
/-- A state whose queue 1 has a launch. -/
def withLaunch (l : Launch) : State := withQueue (at255 0) (queued 1 (some l) 1 1)
/-- WorkQueues: doorbells that fit and that overrun; each state, without a launch and with one that has and has not started; a queue of another domain whose mask meets; a launch that is killed and one that is not. -/
theorem witness_WorkQueues : (let s := withQueue (at255 0) (queued 1 none 0 0); (s.queue 1).state ≠ 0 ∧ (s.queue 1).w1.toNat % 4096 + 1 < ((2 : Word).setWidth 32 - (s.queue 1).headReg).toNat ∧
      ¬ (s.queue 1).w1.toNat % 4096 + 1 < ((1 : Word).setWidth 32 - (s.queue 1).headReg).toNat ∧ (s.queue 1).state = 1 ∧ (s.queue 1).launch = none) ∧
    (let s : State := { at255 0 with queues := [(1, queued 0 none 0 0), (2, { queued 1 none 0 0 with w1 := BitVec.ofNat 64 (2 ^ 62 + 5 * 2 ^ 42) })] }; (s.queue 1).state = 0 ∧ (s.queue 1).launch = none ∧
      ∃ p ∈ s.queues, p.1 ≠ 1 ∧ p.2.state ≠ 0 ∧ p.2.domain ≠ (s.queue 1).domain ∧ s.masksMeet (s.queue 1) p.2 = true) ∧
    (let s := withQueue (at255 0) (queued 0 none 0 1); (s.queue 1).state = 0 ∧ (∀ p ∈ s.queues, p.1 ≠ 1 → p.2.state ≠ 0 → p.2.domain ≠ (s.queue 1).domain → s.masksMeet (s.queue 1) p.2 = false) ∧
      (s.queue 1).pending ≤ (s.queue 1).size ∧ (s.queue 1).state ≠ 1) ∧
    (∀ st ∈ [LaunchState.queued, .eligible, .preparing, .running], ((withLaunch (launchIn st [])).queue 1).launch = some (launchIn st []) ∧ (launchIn st []).st = st ∧ (launchIn st []).killed = false) ∧
    (let l := { launchIn .completing [] with killed := true }; ((withLaunch l).queue 1).launch = some l ∧ l.killed = true) ∧
    (let s := (withLaunch (launchIn .running [])).modCore 7 fun k => { k with queue := some 1 }; (s.core 7).queue = some 1 ∧ (s.core 8).queue ≠ some 1) := by decide +kernel

/-- A ring in the host memory window, with a dependence in its entry 0. -/
def ringAt (dep : Nat) : State := { withQueue (at255 0) { queued 1 none 0 1 with w0 := BitVec.ofNat 64 (2 ^ 41) } with hostMem := Memory.write [] (8 * 10) dep 8 }
/-- What DEPB of a record is. -/
def depRecord (dep : Nat) : Launch := Launch.ofWords 1 ((List.range 16).map fun i => BitVec.ofNat 64 ((ringAt dep).hostMem.read (8 * i) 8))
/-- The mask of cores 7 and 8. -/
def mask78 : Word := BitVec.ofNat 64 (2 ^ 56 + 2 ^ 52 + 7 * 2 ^ 48 + 2 ^ 40 + 1)
/-- A launch whose core 7 translates the page of a class. -/
def launchingOn (c : Cls) (psn : Bool) (l : Launch) : State := withQueue ((objects psn []).modCore 7 fun k => { k with l1tlb := [page c] }) { queued 1 (some l) 1 1 with mask0 := mask78 }
/-- A launch whose core 7 translates a TRACKED page. -/
def launching (l : Launch) (psn : Bool) : State := launchingOn .tracked psn l
/-- A translation is a hit. -/
def hits (s : State) (acc : Acc) (va : Addr) (p : Target → State → Bool) : Bool := match s.launchXlate 1 acc va with
  | (.hit g, u) => p g u
  | _ => false
/-- A translation has to be waited for, or is refused. -/
def refusals (s : State) (acc : Acc) (va : Addr) : Bool × Bool := match s.launchXlate 1 acc va with
  | (.wait, _) => (true, false)
  | (.bad _, _) => (false, true)
  | _ => (false, false)
/-- What a read of a launch comes to. -/
def reads (s : State) (va : Addr) (p : Rd → Bool) : Bool := p (s.launchRead 1 va).1
/-- The object that a queued launch looks at, if it can. -/
def objectOf (s : State) (va : Addr) (p : VUnit → Nat → Bool) : Bool := hits s .read va fun g u => match g.tracked? with
  | some (vcid, key, pa) => match u.readAtHome (.agent 2 1) vcid key (pa / 128) with
    | .done _ v => p v (unitGet v.data (pa % 128) 32)
    | .busy _ => false
  | none => false
/-- A record with its first task, with what is at DEPB. -/
def rec0 : List Word := [0x1000, 1, 0, 0, 0, 0, 0x100000, 0, 0, 0, 0x100000, 0, 0, 0, 0, 0]
/-- RingEntries: a queue with nothing to read, and one that reads an entry without a dependence, with a misaligned one, and with one on a TRACKED page and on another, whose translation is refused or not known; a launch that is not queued; one without a dependence,
one that waits already, one whose object has flipped, is poisoned, has not; answered ones without an indirect count, with a misaligned one, with one that is read, that is refused and that waits. -/
theorem witness_RingEntries : ((withQueue (at255 0) (queued 1 none 1 1)).queue 1).headReg = ((withQueue (at255 0) (queued 1 none 1 1)).queue 1).tail ∧
    (let s := ringAt 0; (s.queue 1).state = 1 ∧ (s.queue 1).stop = false ∧ (s.queue 1).headReg ≠ (s.queue 1).tail ∧ (s.queue 1).launch = none ∧
      ((s.queue 1).w0.toNat + 128 * ((s.queue 1).head % (s.queue 1).size)) % 2 ^ 42 = 2 ^ 41 ∧ (depRecord 0).depb = 0 ∧ (depRecord 0).ind = false ∧ (depRecord 8).depb.toNat % 32 ≠ 0) ∧
    [Cls.tracked, .untracked].all (fun c => hits ((withQueue (({ ringAt 0x100000 with cdrs := [(1, cache1)] } : State).modCore 7 fun k => { k with l1tlb := [page c] }) { queued 1 none 0 1 with w0 := BitVec.ofNat 64 (2 ^ 41), mask0 := mask78 }))
      .read (depRecord 0x100000).depb fun g _ => g.tracked?.isSome == decide (c = .tracked)) = true ∧
    refusals (withQueue (ringAt 0x100000) { queued 1 none 0 1 with w0 := BitVec.ofNat 64 (2 ^ 41), mask0 := mask78 }) .read (depRecord 0x100000).depb = (true, false) ∧
    refusals (withQueue (({ ringAt 0x100000 with cdrs := [(1, cache1)] } : State).modCore 7 fun k => { k with l1tlb := [{ page .tracked with xwr := 0 }] })
      { queued 1 none 0 1 with w0 := BitVec.ofNat 64 (2 ^ 41), mask0 := mask78 }) .read (depRecord 0x100000).depb = (false, true) ∧
    ((launchIn .queued []).st = .queued ∧ (launchIn .queued []).answered = none ∧ (launchIn .queued []).depb = 0 ∧ (launchIn .queued rec0).depb ≠ 0 ∧ (launchIn .queued rec0).depb.toNat % 32 = 0 ∧
      (launchIn .running []).st ≠ .queued) ∧
    (({ launching (launchIn .queued rec0) false with bWaiters := [{ home := 0, addr := 0x10000, core := 8193, ctx := 0 }] } : State).seqWaits 1 = true ∧ (launching (launchIn .queued rec0) false).seqWaits 1 = false) ∧
    hits (launchingOn .untracked false (launchIn .queued rec0)) .read (launchIn .queued rec0).depb (fun g _ => g.tracked?.isNone) = true ∧
    objectOf (launching (launchIn .queued rec0) true) (launchIn .queued rec0).depb (fun v _ => v.poison) = true ∧
    objectOf (launching (launchIn .queued rec0) false) (launchIn .queued rec0).depb (fun v o => !v.poison && !o.testBit 96 && o % 2 ^ 32 == (launchIn .queued rec0).depgen) = true ∧
    objectOf (launching (launchIn .queued (rec0.set 11 1)) false) (launchIn .queued (rec0.set 11 1)).depb (fun v o => !v.poison && !o.testBit 96 && o % 2 ^ 32 != (launchIn .queued (rec0.set 11 1)).depgen) = true ∧
    (let l := { launchIn .queued ((rec0.set 15 1).set 2 0x100000) with answered := some false }; l.st = .queued ∧ l.answered = some false ∧ l.ind = true ∧ l.cntp.toNat % 4 = 0 ∧
      reads (launching l false) l.cntp (fun r => match r with | .ok _ => true | _ => false) = true ∧ reads (launching l true) l.cntp (fun r => match r with | .bad _ => true | _ => false) = true ∧
      reads (withLaunch l) l.cntp (fun r => match r with | .wait | .bad _ => true | _ => false) = true) ∧
    (launchIn .queued rec0).ind = false ∧ ((launchIn .queued ((rec0.set 15 1).set 2 2)).ind = true ∧ (launchIn .queued ((rec0.set 15 1).set 2 2)).cntp.toNat % 4 ≠ 0) := by
  and_intros <;> decide +kernel

/-- A launch at a step of its preparation. -/
def stepping (n : Nat) (ws : List Word) : Launch := { launchIn .preparing ws with step := n }
/-- What a list of doublewords read for a launch is. -/
def wordsAre (l : Launch) (va : Addr) (n : Nat) (p : List Word → Bool) : Bool := match (withLaunch l).launchWords 1 va n with
  | (.ok ws, u) => p ws && decide ((u.queue 1).launch = some l)
  | _ => false
/-- A cache in a state of queue 1's domain. -/
def cachedIn (l : Launch) (st : Nat) : State := { withLaunch l with cdrs := [(0, cache1.setState st)] }
/-- LaunchPreparation: a launch that may start and one that may not; at each step, what fails it and what it goes on with: a failure, bits, alignments, a mask without cores, no task; a record area on a TRACKED page and on another; the
group table; residency; a VCID that the record leaves, an ACTIVE and a DEFINED cache and one that is FREE; cores of the domain and of another; the cores' registers. -/
theorem witness_LaunchPreparation :
    (let l := launchIn .eligible []; ((withLaunch l).queue 1).launch = some l ∧ (withLaunch l).mayStart 1 l = true ∧ ((withLaunch l).modCore 7 fun k => { k with queue := some 2 }).mayStart 1 l = false) ∧
    ({ stepping 0 [] with fail := true }.fail = true ∧ (stepping 0 (rec0.set 15 2)).zeroOk = false ∧ (stepping 0 (rec0.set 6 32)).aligned = false ∧ (stepping 0 []).zeroOk = true ∧ (stepping 0 []).aligned = true ∧
      (stepping 0 []).fail = false ∧ (stepping 0 []).n = 0 ∧ (withQueue (at255 0) { queued 1 none 1 1 with mask0 := 0 }).maskCores ({ queued 1 none 1 1 with mask0 := 0 }) = []) ∧
    (wordsAre (stepping 0 []) 0 0 (fun ws => decide (ws = [])) = true ∧ (pairs [0x100000, BitVec.ofNat 64 (2 ^ 48 + 4096)]).mapM (fun p => rangeOf p.1 p.2) = some [(0x100000, 0x101000, true, false)]) ∧
    ((stepping 1 []).n = 0 ∧ { stepping 1 rec0 with n := 1 }.written = 0 ∧
      hits (launching { stepping 1 rec0 with n := 1 } false) .write 0x100000 (fun g u => g.tracked?.isSome && decide ((u.queue 1).launch = some { stepping 1 rec0 with n := 1 })) = true ∧
      hits (launchingOn .untracked false { stepping 1 rec0 with n := 1 }) .write 0x100000 (fun g u => g.tracked?.isNone && decide ((u.queue 1).launch = some { stepping 1 rec0 with n := 1 })) = true ∧
      refusals ((launching { stepping 1 rec0 with n := 1 } false).modCore 7 fun k => { k with l1tlb := [{ page .tracked with xwr := 0 }] }) .write 0x100000 = (false, true) ∧
      0x100000 / 4096 * 4096 = (stepping 1 rec0).recb.toNat) ∧
    (wordsAre (stepping 2 []) 0 0 (fun ws => ws.all rectOk) = true ∧ groupsOf (quads []) 7 = [] ∧ rectOk 2 = false ∧ (groupsOf (List.replicate 5 [mask78]) 7).length = 5) ∧
    ((stepping 4 []).written < 4 ∧ (stepping 4 []).vact 0 = false ∧ (stepping 4 []).vcid 0 = 0 ∧ (stepping 4 (rec0.set 13 (2 ^ 32))).vact 0 = true ∧
      (let s := cachedIn (stepping 4 (rec0.set 13 (2 ^ 32))) 2; (s.cdr 0).state = 2 ∧ (s.cdr 0).domain = (s.queue 1).domain) ∧ ((withLaunch (stepping 4 [])).cdr 0).state = 0 ∧
      (let s := cachedIn (stepping 4 (rec0.set 13 (2 ^ 32))) 1; (s.cdr 0).state = 1 ∧ (s.cdr 0).domain = (s.queue 1).domain ∧ (s.cdr 0).scrubId = none ∧ s.sharesConflict (s.cdr 0).geo 0 = false ∧
        s.foreignShares (s.cdr 0).geo (s.cdr 0).domain = false) ∧
      (let s : State := { cachedIn (stepping 4 (rec0.set 13 (2 ^ 32))) 1 with cdrs := [(0, cache1.setState 1), (1, cache1)] }; s.sharesConflict (s.cdr 0).geo 0 = true)) ∧
    (let s := launching (stepping 5 []) false; s.maskCores (s.queue 1) = [7, 8] ∧ (∀ c ∈ s.maskCores (s.queue 1), s.forwarded c = c ∧ s.scrubs? c = false ∧ (s.core c).moving = false ∧ (s.core c).domain = (s.queue 1).domain) ∧
      (let t := s.modCore 7 fun k => { k with domain := 3 }; t.scrubs? 7 = false ∧ (t.core 7).domain ≠ (t.queue 1).domain) ∧
      ((s.modCore 7 fun k => { k with moving := true }).core 7).moving = true) ∧
    (stepping 6 []).bspw = false := by
  refine ⟨?_, ?_, ?_, ?_, ?_, ?_, ?_, ?_⟩ <;> decide +kernel

/-- Whether a record's first word translates to the page in a state where nobody holds its unit. -/
def recordAt (s : State) (l : Launch) : Bool := hits s .write (l.recb + BitVec.ofNat 56 (64 * 0)) fun g w => match g with
  | .unit e pa => decide (e.cls = .tracked ∧ pa % 64 = 0 ∧ w.home e.vcid (pa / 128) = HomeUnit.reset ∧ w.grantInFlight e.vcid (pa / 128) = false ∧ w.blockOf (128 * (pa / 128)) = none ∧
      (w.setHold e.vcid (pa / 128) = none ∧ tget? (w.cdr e.vcid).stay (pa / 128) = none) ∧ (w.copyOwner e.vcid (pa / 128) = none ∧ w.pinned e.vcid (pa / 128) = false) ∧ w.vlines = [] ∧
      (w.queue 1).launch = some l)
  | _ => false
/-- InitialRecords: a record that can be written; a deque with room, a full one, a core that is being migrated and one that has begun a steal in this cycle; no task. -/
theorem witness_InitialRecords : (let l := { stepping 7 rec0 with n := 1 }; recordAt (launching l false) l = true ∧ l.written = 0 ∧ l.n = 0 + 1) ∧
    (let l := { stepping 8 rec0 with n := 1, count := 1 }; let s := launching l false; (s.queue 1).launch = some l ∧ l.st = .preparing ∧ l.pushed < l.n ∧ s.maskCores (s.queue 1) = [7, 8] ∧ s.forwarded 7 = 7 ∧
      (s.core 7).moving = false ∧ (s.core 7).entries < 1088 ∧ (s.core 7).inOrder s.clock rankPush = true ∧ (s.core 7).deque.length < 64 ∧ l.n = l.pushed + 1 ∧
      ((s.modCore 7 fun k => { k with moving := true }).core 7).moving = true ∧ 1088 ≤ ((s.modCore 7 fun k => { k with deque := List.replicate 64 0, ringLo := 0, ringHi := 1024 }).core 7).entries) ∧
    (stepping 8 []).n = 0 ∧ (stepping 8 []).pushed = 0 := by
  refine ⟨?_, ?_, ?_, ?_⟩ <;> decide +kernel

/-- A launch that completes at an object, on a page that it may use or not. -/
def ending (s : State) (l : Launch) : State := withQueue (s.modCore 7 fun k => { k with queue := some 1 }) { queued 1 (some l) 1 1 with mask0 := mask78 }
def compRecord : List Word := rec0.set 12 0x100000
/-- A completing launch whose caches are retired. -/
def lastStage (ws : List Word) : Launch := { launchIn .completing ws with stage := 1 }
/-- What the completion finds at the object. -/
def completion (s : State) (l : Launch) : AtHome (Option Unit) :=
  let w := (ending s l).unpinRanges 1 l
  w.completeVa (.agent 2 1) (w.seqCore 1) ((ending s l).queue 1).domain 3 1 false l.compb (some l.status) false (if l.killed then .abort else .arrive)
/-- A completion that has to wait is read off a test of it. -/
theorem busy_of_test {x : AtHome (Option Unit)} (h : (match x with | .busy _ => true | _ => false) = true) : ∃ u, x = .busy u := by
  cases x with
  | busy u => exact ⟨u, rfl⟩
  | done _ _ => cases h
/-- CompletionAtObject: an object at its home, completed by each of the three ways. -/
theorem witness_CompletionAtObject : (∃ r, (objects false []).seize myself 1 0x200 true = .done r () ∧ (r.readVc 1 0x200 none).1.HomeReady 1 0x200) ∧ 0x10000 % 128 + 32 ≤ 128 ∧
    ∀ d ∈ [Done.arrive, .beat, .abort], ∃ u a, (objects false []).completeAt myself 1 0 0x10000 (some 1) false d = .done u a ∧ decide (a = ()) = true :=
  ⟨seized.imp fun _ h => ⟨h.1, h.2.2⟩, by decide, fun d hd => done_of_test (by revert d; decide +kernel)⟩
/-- LaunchEnd: no launch; one that has commands left; one that has not started, that has no task left, that completes without an object, with one, with one that has to wait and with one that fails a check; a cache that retires, one that is
resized, and none. -/
theorem witness_LaunchEnd : (((at255 0).queue 1).launch = none) ∧
    (let l := launchIn .completing []; let s : State := { ending (at255 0) l with channels := [(0, { busy0 with queue := some 1 })] }; (s.queue 1).launch = some l ∧ (s.flushWords 1).launchBusy 1 l.serial = true) ∧
    ((launchIn .preparing []).st ≠ .completing ∧ (launchIn .preparing []).st ≠ .running ∧ (launchIn .running []).st = .running ∧ (launchIn .running []).count = 0) ∧
    (let l := launchIn .completing (rec0.set 13 (2 ^ 36)); let s : State := { ending (at255 0) l with cdrs := [(0, cache1)] }; (s.queue 1).launch = some l ∧ s.flushWords 1 = s ∧ s.launchBusy 1 l.serial = false ∧ l.stage = 0 ∧
      s.retires (s.queue 1) l = [0] ∧ (s.cdr 0).state = 2 ∧ (({ s with cdrs := [(0, cache1.setState 3)] } : State).cdr 0).state = 3) ∧
    (let l := lastStage []; let s := ending (at255 0) l; (s.queue 1).launch = some l ∧ l.st = .completing ∧ s.flushWords 1 = s ∧ s.launchBusy 1 l.serial = false ∧ l.stage ≠ 0 ∧ l.retiring = [] ∧ l.compb = 0 ∧ (s.core 7).queue = some 1 ∧
      (s.core 8).queue ≠ some 1) ∧
    (let l := { lastStage [] with retiring := [0] }; (({ ending (at255 0) l with cdrs := [(0, cache1.setState 4)] } : State).cdr 0).state = 4) ∧
    (let l := lastStage compRecord; l.compb ≠ 0 ∧ (ending (objects false []) l).seqCore 1 = 7) ∧
    (∃ u, completion (objects false []) (lastStage compRecord) = .busy u) ∧
    (∃ u x, completion ((objects false []).modCore 7 fun k => { k with l1tlb := [page .tracked] }) (lastStage compRecord) = .done u x ∧ decide (x.isSome = true) = true) ∧
    (∃ u x, completion ((objects true []).modCore 7 fun k => { k with l1tlb := [{ page .tracked with xwr := 0 }] }) (lastStage compRecord) = .done u x ∧ decide (x = none) = true) :=
  ⟨by decide +kernel, by decide +kernel, by decide, by decide +kernel, by decide +kernel, by decide +kernel, by decide +kernel, busy_of_test (by decide +kernel), done_of_test (by decide +kernel), done_of_test (by decide +kernel)⟩


/-- StepRunsDecoded: a turn of the agenda and none; a word in the TCM that decodes and one that does not; a body; a turn of each other kind; a module that has stopped. -/
theorem witness_StepRunsDecoded : (let s : State := { at255 0x05007FFF with agenda := [.issue 255 0 0 3] }; let u : State := { s with agenda := [], clock := s.clock + 3, curCore := 255, curCtx := 0 }; s.dev.stopped = false ∧ s.tracedCores = [] ∧ u.mayIssue u.curCore u.curCtx = true ∧ u.breakHit = none ∧ u.tracing u.curCore = false ∧ u.me.fetched = [] ∧ u.me.rep = none ∧ u.me.pc.toNat = 2 ^ 55 + 0x40 ∧ 0x40 + 4 ≤ 0x10000 ∧
        decodesTo (BitVec.ofNat 32 (u.mine.tcm.read 0x40 4)) (.addi false 16 0 (-1)) = true) ∧
    (let s := at255 0; let u : State := { s with clock := s.clock + 1 }; s.agenda = [] ∧ s.tracedCores = [] ∧ u.mayIssue u.curCore u.curCtx = true ∧ u.breakHit = none ∧ u.tracing u.curCore = false ∧ u.me.fetched = [] ∧
      (match decode (BitVec.ofNat 32 (u.mine.tcm.read 0x40 4)) with | .ok _ => false | .error _ => true) = true) ∧
    (let s := (at255 0).modMe fun y => { y with rep := some { base := 0, len := 2, count := 4, stride := 1, pos := 0, pass := 1, buf := [0x05007FFF, 0x05007FFF] } }; ({ s with clock := s.clock + 1 } : State).mayIssue s.curCore s.curCtx = true ∧ decodesTo 0x05007FFF (.addi false 16 0 (-1)) = true) ∧
    ((0x100FF000 : Nat) = 0x10000000 + 4096 * 255 + 0 ∧ ((at255 0).core ((at255 0).forwarded 255)).moving = false ∧ windowCsr 0 = none ∧ (windowCsr 0xE00).isSome) ∧
    ([Turn.event (.powerMeasure 5) 1, .hostWrite 0 0 1, .hostRead 0x100FF000 1, .boot true 1, .migr 7 1, .route 3 4 1].all fun t =>
      let s : State := { at255 0 with agenda := [t] }; decide (s.agenda = [t] ∧ s.dev.stopped = false ∧ s.tracedCores = [])) = true ∧
    (at255 0).tracing (at255 0).curCore = false ∧ (Instr.powerMeasure 5).encoded = false ∧ (Instr.add false 1 2 3).wf = true ∧ (Instr.add false 1 2 3).encoded = true ∧ ({ State.reset with dev := { Dev.reset with stopped := true } } : State).dev.stopped = true := by decide +kernel

/-- StorageForm, MemOkReset and MemOkStep: two storages in the form with the same bytes; an address inside and outside of what a write stores; a state in the form with a next state. -/
theorem witness_StorageForm : Memory.wf [] = true ∧ Memory.wf (Memory.write [] 4 0x10203 4) = true ∧ (4 ≤ 7 ∧ 7 < 4 + 4 ∧ ¬ 8 < 4 + 4) ∧
    (match step State.reset with | .next _ => true | _ => false) = true := by decide +kernel
/-- A state in the form of storage that a step goes on from. -/
theorem witness_MemOkStep : (at255 0x05007FFF).memOk ∧ (match step (at255 0x05007FFF) with | .next _ => true | _ => false) = true := by
  unfold State.memOk; decide +kernel

end Sys2Proof.Tests
end

section
/-! SUPPORT. Register writes outside the CSR instructions (01 R31, 18 R367, R368): where a write at an offset of device control space
goes, what each register keeps of it, and the statement of O47. -/

namespace Sys2Proof.Machine

/-! ### Storage and tiles under a change of a core -/

/-- A change of a core that keeps its local memories keeps every byte of memory. -/
theorem State.byteAt_modCore_of_keeps (s : State) (c : Nat) (f : Core → Core)
    (hf : (f (s.core c)).tcm = (s.core c).tcm ∧ (f (s.core c)).scratch = (s.core c).scratch) (p : ByteAt) :
    (s.modCore c f).byteAt p = s.byteAt p := by
  cases p with
  | hbm a => rfl
  | host a => rfl
  | tcm d o =>
    simp only [State.byteAt, State.core_modCore]
    split
    · next h => rw [hf.1, h]
    · rfl
  | scratch d o =>
    simp only [State.byteAt, State.core_modCore]
    split
    · next h => rw [hf.2, h]
    · rfl

@[simp] theorem Core.tile_setTile (k : Core) (t j : Nat) (w : Tile) :
    (k.setTile t w).tile j = if j = t then w else k.tile j := tget_tset ..
@[simp] theorem Core.setTile_tcm (k : Core) (t : Nat) (w : Tile) : (k.setTile t w).tcm = k.tcm := rfl
@[simp] theorem Core.setTile_scratch (k : Core) (t : Nat) (w : Tile) : (k.setTile t w).scratch = k.scratch := rfl

/-- Reading a table whose values that meet a test have been changed. -/
theorem tget?_mapIf_values {α : Type} (q : α → Bool) (g : α → α) (l : List (Nat × α)) (a : Nat) :
    tget? (mapIf (fun p => q p.2) (fun p => (p.1, g p.2)) l) a = (tget? l a).map fun w => if q w then g w else w := by
  induction l with
  | nil => rfl
  | cons p l ih =>
    obtain ⟨k, w⟩ := p
    simp only [mapIf, List.map_cons] at ih ⊢
    by_cases hq : q w <;> by_cases ha : a = k <;> simp [tget?, hq, ha, ih]

/-! ### Offsets of device control space (01 R31) -/

theorem State.ctrlCore_of_device (s : State) {off : Nat} (h : off < 0x10000000) : s.ctrlCore off = none := by
  have hw : within off 0x10000000 0x2000000 = false := by simp [within]; omega
  rw [State.ctrlCore, hw]; rfl

theorem State.ctrlCore_window (s : State) {c o : Nat} (hc : c < 8192) (ho : o < 4096) :
    s.ctrlCore (0x10000000 + 4096 * c + o) = some (s.forwarded c, o) := by
  have hw : within (0x10000000 + 4096 * c + o) 0x10000000 0x2000000 = true := by simp [within]; omega
  have hcore : (0x10000000 + 4096 * c + o - 0x10000000) / 4096 = c := by omega
  have hoff : (0x10000000 + 4096 * c + o) % 4096 = o := by omega
  rw [State.ctrlCore, hw, hcore, hoff]; rfl

/-- Outside the windows of the cores a write is one of a device register. -/
theorem State.registerWrite_device (s : State) {off : Nat} (v : Word) (h : off < 0x10000000) :
    s.registerWrite off v = s.ctrlWrite off v := by
  simp only [State.registerWrite, State.hostWrite, State.ctrlCore_of_device s h]

theorem State.registerWrite_moving (s : State) {c o : Nat} (v : Word) (hc : c < 8192) (ho : o < 4096)
    (hm : (s.core (s.forwarded c)).moving = true) :
    s.registerWrite (0x10000000 + 4096 * c + o) v = s.retryWrite (0x10000000 + 4096 * c + o) v := by
  simp only [State.registerWrite, State.ctrlCore_window s hc ho, hm, if_true]

theorem State.registerWrite_hole (s : State) {c o : Nat} (v : Word) (hc : c < 8192) (ho : o < 4096)
    (hw : windowCsr o = none) (hm : (s.core (s.forwarded c)).moving = false) :
    s.registerWrite (0x10000000 + 4096 * c + o) v = s := by
  simp only [State.registerWrite, State.hostWrite, State.ctrlCore_window s hc ho, hm, hw, Bool.false_eq_true, if_false]

/-- The field of bits [lo + n - 1 : lo] by division. -/
theorem fld_eq_div_mod (v : Word) (lo n : Nat) : fld v lo n = v.toNat / 2 ^ lo % 2 ^ n := by
  rw [fld, bitsOf, Nat.shiftRight_eq_div_pow]

/-! ### Device registers (18 R367, R368, 24 R415) -/

/-- REGISTER_WRITE at an offset outside the windows of the cores. -/
theorem exec_registerWrite_device (s : State) {off : Nat} (v : Word) (h : off < 0x10000000) :
    exec (.registerWrite off v) s = .next (s.ctrlWrite off v) :=
  congrArg Host.Outcome.next (s.registerWrite_device v h)

/-- A write at 0x8100 to 0x81FF changes one doubleword of one entry (18 R368). -/
theorem State.exports_ctrlWrite (s : State) {off : Nat} (v : Word) (h : within off 0x8100 256 = true) :
    (s.ctrlWrite off v).dev.exports = tset s.dev.exports ((off - 0x8100) / 16)
      (if off % 16 = 0 then (BitVec.ofNat 64 (fld v 12 30 * 4096), (tget s.dev.exports ((off - 0x8100) / 16) (0, 0)).2)
        else ((tget s.dev.exports ((off - 0x8100) / 16) (0, 0)).1, v &&& 0xFFFFFC00FFFFFFFF)) := by
  have hr : 0x8100 ≤ off ∧ off < 0x8200 := by simpa [within] using h
  have hnonce : within off 0x40 32 = false := by simp [within]; omega
  unfold State.ctrlWrite
  rw [if_neg (by omega), if_neg (by omega), hnonce, if_neg Bool.false_ne_true, if_neg (by omega), if_neg (by omega), if_neg (by omega),
    if_neg (by omega), if_neg (by omega), if_neg (by omega), if_neg (by omega), h, if_pos rfl]

/-- BASE takes bits 41 to 12, and the other entries are as they were. -/
theorem State.tget_exports_base (s : State) {i : Nat} (v : Word) (hi : i < 16) (j : Nat) :
    tget (s.ctrlWrite (0x8100 + 16 * i) v).dev.exports j (0, 0) =
      if j = i then (BitVec.ofNat 64 (v.toNat / 4096 % 2 ^ 30 * 4096), (tget s.dev.exports i (0, 0)).2) else tget s.dev.exports j (0, 0) := by
  have hindex : (0x8100 + 16 * i - 0x8100) / 16 = i := by omega
  have hfield : fld v 12 30 = v.toNat / 4096 % 2 ^ 30 := fld_eq_div_mod ..
  rw [State.exports_ctrlWrite s v (by simp [within]; omega), if_pos (by omega), hindex, hfield, tget_tset]

/-- The doubleword at 8 takes its writable bits, and the other entries are as they were. -/
theorem State.tget_exports_attr (s : State) {i : Nat} (v : Word) (hi : i < 16) (j : Nat) :
    tget (s.ctrlWrite (0x8108 + 16 * i) v).dev.exports j (0, 0) =
      if j = i then ((tget s.dev.exports i (0, 0)).1, v &&& 0xFFFFFC00FFFFFFFF) else tget s.dev.exports j (0, 0) := by
  have hindex : (0x8108 + 16 * i - 0x8100) / 16 = i := by omega
  rw [State.exports_ctrlWrite s v (by simp [within]; omega), if_neg (by omega), hindex, tget_tset]

/-- Read-only and reserved offsets discard a write (18 R367). -/
theorem State.ctrlWrite_discards (s : State) (v : Word) :
    ∀ off ∈ [0x00, 0x1000, 0x1800, 0x2000, 0x20000, 0x1000000], s.ctrlWrite off v = s := by
  simp only [List.forall_mem_cons]
  exact ⟨rfl, rfl, rfl, rfl, rfl, rfl, fun _ h => absurd h List.not_mem_nil⟩

/-! ### Registers of a core that is not being migrated (17 R363) -/

theorem State.whenStill_still (s : State) {c : Nat} (x n : Nat) (v : Word) (f : State → State) (h : (s.core c).moving = false) :
    s.whenStill c x n v f = .next (f s) := by
  rw [State.whenStill, h]; rfl

theorem exec_iterWrite (s : State) {c : Nat} (x : Nat) (v : Word) (h : (s.core c).moving = false) :
    exec (.iterWrite c x v) s = .next (s.setIter c x (v.setWidth 16)) :=
  s.whenStill_still x 0x001 v (fun s => s.setIter c x (v.setWidth 16)) h
theorem exec_tshapeWrite (s : State) {c : Nat} (n : BitVec 3) (v : Word) (h : (s.core c).moving = false) :
    exec (.tshapeWrite c n v) s = .next (s.writeLazy c (0x120 + n.toNat) v) :=
  s.whenStill_still 0 (0x120 + n.toNat) v (fun s => s.writeLazy c (0x120 + n.toNat) v) h
theorem exec_tsavepWrite (s : State) (v : Word) (h : s.mine.moving = false) :
    exec (.tsavepWrite v) s = .next (s.writeLazy s.curCore 0x128 v) :=
  s.whenStill_still 0 0x128 v (fun s => s.writeLazy s.curCore 0x128 v) h
theorem exec_mxstepWrite (s : State) {c : Nat} (v : Word) (h : (s.core c).moving = false) :
    exec (.mxstepWrite c v) s = .next (s.writeMxstep c v) :=
  s.whenStill_still 0 0x205 v (fun s => s.writeMxstep c v) h

/-! ### ITER (06 R141) -/

@[simp] theorem Core.ctx_eraDrop (k : Core) (i : BitVec 16) (x : Nat) : (k.eraDrop i).ctx x = k.ctx x := rfl

/-- What eraDrop keeps: the copies that are not STAMPED, and those of every era but the one two ahead. -/
theorem Core.mem_l1_eraDrop (k : Core) (i : BitVec 16) (cp : Copy) :
    cp ∈ (k.eraDrop i).l1 ↔ cp ∈ k.l1 ∧ (cp.cls ≠ .stamped ∨ cp.stamp.toNat / 16384 ≠ (i.toNat / 16384 + 2) % 4) := by
  simp [Core.eraDrop, List.mem_filter]

/-- ITER and the copies of the core's L1 are all that a write of ITER changes. -/
theorem State.setIter_eq_modCore (s : State) (c x : Nat) (i : BitVec 16) :
    s.setIter c x i = s.modCore c fun k =>
      let k' := k.setCtx x { k.ctx x with iter := i }
      if i = (s.ctx c x).iter then k' else k'.eraDrop i := by
  rw [State.setIter, State.modCtx, State.modCore_modCore]

theorem State.ctx_setIter_same (s : State) (c x : Nat) (i : BitVec 16) :
    (s.setIter c x i).ctx c x = { s.ctx c x with iter := i } := by
  rw [State.setIter_eq_modCore, State.ctx, State.core_modCore, if_pos rfl]
  split <;> simp [State.ctx]
theorem State.ctx_setIter_of_ne (s : State) (c : Nat) {x y : Nat} (i : BitVec 16) (h : y ≠ x) :
    (s.setIter c x i).ctx c y = s.ctx c y := by
  rw [State.setIter_eq_modCore, State.ctx, State.core_modCore, if_pos rfl]
  split <;> simp [State.ctx, h]
theorem State.core_setIter_of_ne (s : State) {c k : Nat} (x : Nat) (i : BitVec 16) (h : k ≠ c) :
    (s.setIter c x i).core k = s.core k := by
  rw [State.setIter_eq_modCore, State.core_modCore, if_neg h]
theorem State.byteAt_setIter (s : State) (c x : Nat) (i : BitVec 16) (q : ByteAt) : (s.setIter c x i).byteAt q = s.byteAt q := by
  rw [State.setIter_eq_modCore]
  refine State.byteAt_modCore_of_keeps _ _ _ ?_ q
  dsimp only
  split <;> exact ⟨rfl, rfl⟩

/-- A write of the value that ITER has leaves the L1 as it is; any other drops the era that it makes unreachable. -/
theorem State.l1_setIter (s : State) (c x : Nat) (i : BitVec 16) :
    ((s.setIter c x i).core c).l1 = if i = (s.ctx c x).iter then (s.core c).l1 else ((s.core c).eraDrop i).l1 := by
  rw [State.setIter_eq_modCore, State.core_modCore, if_pos rfl]
  split <;> rfl

theorem State.mem_l1_of_mem_setIter (s : State) (c x : Nat) (i : BitVec 16) {cp : Copy}
    (h : cp ∈ ((s.setIter c x i).core c).l1) : cp ∈ (s.core c).l1 := by
  rw [State.l1_setIter] at h
  split at h
  · exact h
  · exact ((Core.mem_l1_eraDrop ..).mp h).1
theorem State.era_of_mem_setIter (s : State) (c x : Nat) (i : BitVec 16) (hi : (s.ctx c x).iter ≠ i) {cp : Copy}
    (h : cp ∈ ((s.setIter c x i).core c).l1) (hs : cp.cls = .stamped) :
    cp.stamp.toNat / 16384 ≠ (i.toNat / 16384 + 2) % 4 := by
  rw [State.l1_setIter, if_neg (Ne.symm hi)] at h
  exact ((Core.mem_l1_eraDrop ..).mp h).2.resolve_left fun hne => hne hs
theorem State.mem_setIter_of_reachable (s : State) (c x : Nat) (i : BitVec 16) {cp : Copy} (h : cp ∈ (s.core c).l1)
    (hr : cp.cls ≠ .stamped ∨ cp.stamp.toNat / 16384 ≠ (i.toNat / 16384 + 2) % 4) : cp ∈ ((s.setIter c x i).core c).l1 := by
  rw [State.l1_setIter]
  split
  · exact h
  · exact (Core.mem_l1_eraDrop ..).mpr ⟨h, hr⟩

/-! ### LAZY tiles load before a write of TSHAPE or TSAVEP (13 R269, R271) -/

theorem State.lazyAll_of_no_lazy (s : State) (c : Nat) (sup : Bool) (l : List Nat) (h : ∀ t ∈ l, ((s.core c).tile t).st ≠ 3) :
    s.lazyAll c sup l = (s, .all) := by
  induction l with
  | nil => rfl
  | cons t ts ih =>
    rw [State.lazyAll, if_neg (h t List.mem_cons_self)]
    exact ih fun j hj => h j (List.mem_cons_of_mem t hj)

theorem State.lazyAll_one_lazy (s : State) (c : Nat) (sup : Bool) (t : Nat) (h : ((s.core c).tile t).st = 3) :
    s.lazyAll c sup [t] = s.lazyByUnit c sup t := by
  rw [State.lazyAll, if_pos h]
  split
  · next hl => rw [State.lazyAll, hl]
  · rfl

section
variable {s u : State} {c n : Nat} (v : Word)

theorem State.writeLazy_tshape_loaded (hn : n < 8) (h : s.lazyAll c true [n] = (u, .all)) :
    s.writeLazy c (0x120 + n) v = u.writeTshape c n v := by
  have hne : 0x120 + n ≠ 0x128 := by omega
  simp only [State.writeLazy, if_neg hne, Nat.add_sub_cancel_left, h]

theorem State.writeLazy_tshape_waiting (hn : n < 8) (h : s.lazyAll c true [n] = (u, .wait)) :
    s.writeLazy c (0x120 + n) v = u.retryWrite (csrOffset c 0 (0x120 + n)) v := by
  have hne : 0x120 + n ≠ 0x128 := by omega
  simp only [State.writeLazy, if_neg hne, Nat.add_sub_cancel_left, h]

theorem State.writeLazy_tsavep_loaded (h : s.lazyAll c true (List.range 8) = (u, .all)) :
    s.writeLazy c 0x128 v = u.setTsavep c v := by
  simp only [State.writeLazy, if_true, h]
end

theorem csrOffset_tshape (c : Nat) {n : Nat} (hn : n < 8) : csrOffset c 0 (0x120 + n) = 0x10000C00 + 4096 * c + 8 * (0x20 + n) := by
  rw [csrOffset, if_neg (by omega), if_pos (by omega)]
  omega

/-! ### TSHAPE (13 R269) -/

/-- The tile that a write of TSHAPE leaves where the tile was not LAZY. -/
def Tile.reshaped (w : Tile) (v : Word) : Tile :=
  if v.toNat % 32 = 0 then { w with rows := 0, rowb := v.toNat / 256 % 128, fmt := v.toNat / 65536 % 32 }
  else if shapeOk (v.toNat % 32) (v.toNat / 256 % 128) (v.toNat / 65536 % 32) then
    { w with rows := v.toNat % 32, rowb := v.toNat / 256 % 128, fmt := v.toNat / 65536 % 32, st := 2 }
  else w

theorem State.tile_writeTshape_same (s : State) (c t : Nat) (v : Word) (h : ((s.core c).tile t).st ≠ 3) :
    ((s.writeTshape c t v).core c).tile t = ((s.core c).tile t).reshaped v := by
  have hrows : fld v 0 5 = v.toNat % 32 := by simp [fld_eq_div_mod]
  have hrowb : fld v 8 7 = v.toNat / 256 % 128 := fld_eq_div_mod ..
  have hfmt : fld v 16 5 = v.toNat / 65536 % 32 := fld_eq_div_mod ..
  simp only [State.writeTshape, State.core_modCore, if_true, hrows, hrowb, hfmt, Tile.reshaped, if_neg h]
  split
  · simp
  · split <;> simp

/-- A write of TSHAPE keeps the other tiles, the other cores and every byte of memory. -/
theorem State.writeTshape_frame (s : State) (c t : Nat) (v : Word) :
    (∀ j, j ≠ t → ((s.writeTshape c t v).core c).tile j = (s.core c).tile j) ∧
      (∀ k, k ≠ c → (s.writeTshape c t v).core k = s.core k) ∧ ∀ q, (s.writeTshape c t v).byteAt q = s.byteAt q := by
  unfold State.writeTshape
  refine ⟨fun j hj => ?_, fun k hk => by rw [State.core_modCore, if_neg hk], State.byteAt_modCore_of_keeps _ _ _ ?_⟩
  · rw [State.core_modCore, if_pos rfl]
    split
    · simp [hj]
    · split
      · simp [hj]
      · rfl
  · split
    · simp
    · split
      · simp
      · exact ⟨rfl, rfl⟩

/-! ### TSAVEP (13 R271) -/

theorem State.tsavep_setTsavep (s : State) (c : Nat) (v : Word) :
    ((s.setTsavep c v).core c).tsavep = BitVec.ofNat 64 (v.toNat / 8192 * 8192) := by
  rw [State.setTsavep, State.core_modCore, if_pos rfl]

/-- A write of TSAVEP turns SAVED tiles DIRTY and leaves the others. -/
theorem State.tile_setTsavep (s : State) (c : Nat) (v : Word) (j : Nat) :
    ((s.setTsavep c v).core c).tile j =
      { (s.core c).tile j with st := if ((s.core c).tile j).st = 1 then 2 else ((s.core c).tile j).st } := by
  rw [State.setTsavep, State.core_modCore, if_pos rfl]
  have hmap := tget?_mapIf_values (fun w : Tile => w.st == 1) (fun w => { w with st := 2 }) (s.core c).tiles j
  cases htile : tget? (s.core c).tiles j with
  | none => simp [Core.tile, tget, hmap, htile, Tile.reset]
  | some w => by_cases hst : w.st = 1 <;> simp [Core.tile, tget, hmap, htile, hst]

theorem State.core_setTsavep_of_ne (s : State) {c k : Nat} (v : Word) (h : k ≠ c) : (s.setTsavep c v).core k = s.core k := by
  rw [State.setTsavep, State.core_modCore, if_neg h]
theorem State.byteAt_setTsavep (s : State) (c : Nat) (v : Word) (q : ByteAt) : (s.setTsavep c v).byteAt q = s.byteAt q :=
  State.byteAt_modCore_of_keeps _ _ _ ⟨rfl, rfl⟩ q

/-! ### MXSTEP (09 R211, R212) -/

/-- A write that sets PEND, or that finds it clear, leaves the queue of operations as it is. -/
theorem State.mxq_writeMxstep_of_kept (s : State) (c : Nat) (v : Word) (h : v.getLsbD 32 = true ∨ (s.core c).mxpend = false) :
    ((s.writeMxstep c v).core c).mxq = (s.core c).mxq := by
  rw [State.writeMxstep, State.core_modCore, if_pos rfl]
  cases (s.core c).mxq with
  | nil => rfl
  | cons o l => cases h with
    | inl hset => simp only [hset, Bool.not_true, Bool.false_eq_true, and_false, if_false]
    | inr hclear => simp only [hclear, Bool.false_eq_true, false_and, if_false]

/-- A write that clears PEND abandons the operation that was interrupted, with the steps that it had done. -/
theorem State.mxq_writeMxstep_of_cleared (s : State) (c : Nat) (v : Word) (hv : v.getLsbD 32 = false) (hp : (s.core c).mxpend = true)
    {o : MxOp} {l : List MxOp} (hq : (s.core c).mxq = o :: l) :
    ((s.writeMxstep c v).core c).mxq = { o with abandoned := true, step := (s.core c).mxstep.toNat } :: l := by
  rw [State.writeMxstep, State.core_modCore, if_pos rfl]
  simp only [hq, hp, hv, Bool.not_false, and_self, if_true]

theorem State.mxpend_writeMxstep (s : State) (c : Nat) (v : Word) : ((s.writeMxstep c v).core c).mxpend = v.getLsbD 32 := by
  rw [State.writeMxstep, State.core_modCore, if_pos rfl]
theorem State.mxstep_writeMxstep (s : State) (c : Nat) (v : Word) : ((s.writeMxstep c v).core c).mxstep = v.setWidth 32 := by
  rw [State.writeMxstep, State.core_modCore, if_pos rfl]
theorem State.writeMxstep_frame (s : State) (c : Nat) (v : Word) :
    (∀ k, k ≠ c → (s.writeMxstep c v).core k = s.core k) ∧ ∀ q, (s.writeMxstep c v).byteAt q = s.byteAt q :=
  ⟨fun k hk => by rw [State.writeMxstep, State.core_modCore, if_neg hk], State.byteAt_modCore_of_keeps _ _ _ ⟨rfl, rfl⟩⟩

/-! ### Counters and the state log of the debug module (24 R419) -/

theorem State.core_withHostOut (s : State) (l : List HostOut) (c : Nat) : ({ s with hostOut := l } : State).core c = s.core c := rfl

theorem exec_counterClear_late (s : State) (k : Nat) : exec (.counterClear k true) s =
    .next (s.modCore (256 * k + (s.dbgOf k).sel) fun y => { y with lateReplies := 0 }) := rfl

theorem exec_trcdataRead (s : State) {k c : Nat} (hc : c = 256 * k + (s.dbgOf k).sel) : exec (.trcdataRead k) s =
    .next { s.modCore c fun y => { y with traceRd := (y.traceRd + 1) % 512 } with
      hostOut := s.hostOut ++ [.trace (tget (s.core c).trace (s.core c).traceRd 0)] } := by
  subst hc; rfl

/-! ### The statement -/

/-- Settles O47: each write goes through the lemma above that says what its register keeps. -/
theorem deviceRegisters : Obligations.DeviceRegisters := by
  unfold Obligations.DeviceRegisters
  intro s v
  refine ⟨exec_registerWrite_device s v (by decide), exec_registerWrite_device s v (by decide), exec_registerWrite_device s v (by decide),
    fun i hi => ?exports, fun off hoff => ?discarded, exec_registerWrite_device s v (by decide), fun c o hc ho hm => ?migrating,
    fun c o hc ho hw hm => ?hole, rfl, rfl, fun c x hm => ?iter, fun c n u hm hl hu => ?tshapeWaits, fun c n u hm hl hu => ?tshapeLoads,
    fun c n hm hl => ?tshape, fun hl hm => ?tsavep, fun c hm => ?mxstep, fun k => ⟨?cecnt, ?late, fun c hc => ?trcdata⟩⟩
  case exports =>
    refine ⟨_, _, exec_registerWrite_device s v (by omega), exec_registerWrite_device s v (by omega), ?_⟩
    simp only [s.tget_exports_base v hi, s.tget_exports_attr v hi, if_true]
    exact ⟨trivial, trivial, fun j hj => by simp only [if_neg hj, and_self]⟩
  case discarded =>
    have hdev : off < 0x10000000 := (by decide : ∀ o ∈ [0x00, 0x1000, 0x1800, 0x2000, 0x20000, 0x1000000], o < 0x10000000) off hoff
    rw [exec_registerWrite_device s v hdev, s.ctrlWrite_discards v off hoff]
  case migrating => exact congrArg Host.Outcome.next (s.registerWrite_moving v hc ho hm)
  case hole => exact congrArg Host.Outcome.next (s.registerWrite_hole v hc ho hw hm)
  case iter =>
    have hera : (v.setWidth 16).toNat = v.toNat % 65536 := BitVec.toNat_setWidth ..
    refine ⟨_, exec_iterWrite s x v hm, s.ctx_setIter_same .., fun y hy => s.ctx_setIter_of_ne _ _ hy, fun k hk => s.core_setIter_of_ne _ _ hk,
      s.byteAt_setIter _ _ _, fun cp hcp => s.mem_l1_of_mem_setIter _ _ _ hcp, ?_, ?_⟩
    · rw [← hera]
      exact fun hi cp hcp hs => s.era_of_mem_setIter _ _ _ hi hcp hs
    · rw [← hera]
      exact fun cp hcp hr => s.mem_setIter_of_reachable _ _ _ hcp hr
  case tshapeWaits =>
    rw [← s.lazyAll_one_lazy _ _ _ hl] at hu
    rw [exec_tshapeWrite s n v hm, State.writeLazy_tshape_waiting v n.isLt hu, csrOffset_tshape c n.isLt, State.retryWrite]
  case tshapeLoads =>
    rw [← s.lazyAll_one_lazy _ _ _ hl] at hu
    rw [exec_tshapeWrite s n v hm, State.writeLazy_tshape_loaded v n.isLt hu]
  case tshape =>
    have hu := s.lazyAll_of_no_lazy c true [n.toNat] (by simpa using hl)
    obtain ⟨htiles, hcores, hbytes⟩ := s.writeTshape_frame c n.toNat v
    exact ⟨_, (exec_tshapeWrite s n v hm).trans (congrArg _ (State.writeLazy_tshape_loaded v n.isLt hu)), htiles, hcores, hbytes,
      s.tile_writeTshape_same c n.toNat v hl⟩
  case tsavep =>
    have hu := s.lazyAll_of_no_lazy s.curCore true (List.range 8) fun j hj => hl j (List.mem_range.mp hj)
    exact ⟨_, (exec_tsavepWrite s v hm).trans (congrArg _ (State.writeLazy_tsavep_loaded v hu)), s.tsavep_setTsavep s.curCore v,
      s.tile_setTsavep s.curCore v, fun k hk => s.core_setTsavep_of_ne v hk, s.byteAt_setTsavep s.curCore v⟩
  case mxstep =>
    obtain ⟨hcores, hbytes⟩ := s.writeMxstep_frame c v
    exact ⟨_, exec_mxstepWrite s v hm, s.mxpend_writeMxstep c v, s.mxstep_writeMxstep c v, hcores, hbytes, s.mxq_writeMxstep_of_kept c v,
      fun hv hp o l hq => s.mxq_writeMxstep_of_cleared c v hv hp hq⟩
  case cecnt => exact ⟨_, rfl, tget_tset_same .., rfl⟩
  case late =>
    refine ⟨_, exec_counterClear_late s k, ?_, fun c hc => ?_⟩
    · rw [State.core_modCore, if_pos rfl]
    · rw [State.core_modCore, if_neg hc]
  case trcdata =>
    refine ⟨_, exec_trcdataRead s hc, rfl, ?_, fun j hj => ?_⟩
    · rw [State.core_withHostOut, State.core_modCore, if_pos rfl]
    · rw [State.core_withHostOut, State.core_modCore, if_neg hj]

end Sys2Proof.Machine
end
section
/-! SUPPORT. What completing an instruction leaves of the work that it has done (03 R65, R66): the steps that keep the issuing context as it
is, and the results that follow them. -/

namespace Sys2Proof.Machine

/-! ### Steps that keep the issuer -/

/-- What the work of an instruction keeps, before its result is written: the issuing context, its registers, and every byte of memory. -/
structure State.KeepsIssuer (s u : State) : Prop where
  issuer : s.SameIssuer u
  registers : s.SameRegisters u
  memory : ∀ p, u.byteAt p = s.byteAt p

namespace State.KeepsIssuer

theorem refl (s : State) : s.KeepsIssuer s := ⟨⟨rfl, rfl, rfl⟩, fun _ => rfl, fun _ => rfl⟩

theorem trans {s u v : State} (h : s.KeepsIssuer u) (h' : u.KeepsIssuer v) : s.KeepsIssuer v := by
  obtain ⟨⟨hme, hcore, hctx⟩, hregs, hmem⟩ := h
  obtain ⟨⟨hme', hcore', hctx'⟩, hregs', hmem'⟩ := h'
  refine ⟨⟨hme'.trans hme, hcore'.trans hcore, hctx'.trans hctx⟩, fun e => ?_, fun p => (hmem' p).trans (hmem p)⟩
  rw [← hcore, ← hctx, hregs' e, hcore, hctx, hregs e]

/-- A change of a core that keeps its contexts, its register RAM and its local memories. -/
theorem modCore (s : State) (c : Nat) (f : Core → Core)
    (hf : f (s.core c) = { f (s.core c) with ctxs := (s.core c).ctxs, ram := (s.core c).ram, tcm := (s.core c).tcm, scratch := (s.core c).scratch }) :
    s.KeepsIssuer (s.modCore c f) := by
  have hctxs : (f (s.core c)).ctxs = (s.core c).ctxs := by rw [hf]
  have hram : (f (s.core c)).ram = (s.core c).ram := by rw [hf]
  have hctx (d x : Nat) : (s.modCore c f).ctx d x = s.ctx d x := by
    simp only [State.ctx, State.core_modCore]
    split
    · next h => rw [h, Core.ctx, hctxs]; rfl
    · rfl
  refine ⟨⟨hctx _ _, rfl, rfl⟩, fun e => ?_, State.byteAt_modCore_of_keeps s c f ⟨by rw [hf], by rw [hf]⟩⟩
  cases e with
  | none => rfl
  | glob j => rw [State.readDst, hctx]; rfl
  | ram e =>
    simp only [State.readDst, State.core_modCore]
    split
    · next h => rw [h, hram]
    · rfl

/-- A change of another context. -/
theorem modCtx (s : State) {c x : Nat} (f : Ctx → Ctx) (hx : c ≠ s.curCore ∨ x ≠ s.curCtx) : s.KeepsIssuer (s.modCtx c x f) := by
  have hmine : ¬ (s.curCore = c ∧ s.curCtx = x) := by omega
  have hctx : (s.modCtx c x f).ctx s.curCore s.curCtx = s.ctx s.curCore s.curCtx := by rw [State.ctx_modCtx, if_neg hmine]
  refine ⟨⟨hctx, rfl, rfl⟩, fun e => ?_, State.byteAt_modCore_of_keeps s c _ ⟨rfl, rfl⟩⟩
  cases e with
  | none => rfl
  | glob j => rw [State.readDst, hctx]; rfl
  | ram e =>
    simp only [State.readDst, State.core_modCtx]
    split
    · next h => rw [h]; rfl
    · rfl

/-- A message that leaves. -/
theorem send (s : State) (p : Pkt) : s.KeepsIssuer (s.send p) := ⟨⟨rfl, rfl, rfl⟩, fun _ => rfl, fun _ => rfl⟩
theorem sendMsg (s : State) (c : Nat) (p : Pkt) : s.KeepsIssuer (s.sendMsg c p) := (modCore s c _ rfl).trans (send _ p)

/-- No trap is due after such work when none was. -/
theorem noTrapDue {s u : State} {m : Bool} (h : s.KeepsIssuer u) (hm : s.NoTrapDue m) : u.NoTrapDue m := by
  obtain ⟨⟨hme, -, -⟩, -, -⟩ := h
  intro hmark
  rw [hme, hm hmark]
/-- A field of the issuing context names the same register after it. -/
theorem dst {s u : State} (h : s.KeepsIssuer u) (d : BitVec 5) : u.dst d = s.dst d := by
  obtain ⟨⟨hme, -, -⟩, -, -⟩ := h
  rw [State.dst, hme, State.dst]
/-- Another context than the issuing one is another after it. -/
theorem elsewhere {s u : State} (h : s.KeepsIssuer u) {c x : Nat} (hx : c ≠ s.curCore ∨ x ≠ s.curCtx) : c ≠ u.curCore ∨ x ≠ u.curCtx := by
  obtain ⟨⟨-, hcore, hctx⟩, -, -⟩ := h
  rwa [hcore, hctx]
/-- Completing the instruction after such work moves the issuing context as completing it before would. -/
theorem advanced {s u t : State} {m : Bool} (h : s.KeepsIssuer u) (ht : u.Advanced t m) : s.Advanced t m := by
  obtain ⟨⟨hme, -, hctx⟩, -, -⟩ := h
  obtain ⟨hpc, hrep, hst⟩ := ht
  exact ⟨by rw [hpc, hme], by rw [hrep, hme], by rw [hst, hctx]⟩

end State.KeepsIssuer

/-! ### A result of fixed latency after such work -/

/-- What holds of the issuing core, and of a core that is as it was, holds of every core. -/
theorem State.OnlyMine.forall_core {s t : State} (h : s.OnlyMine t) {P : Core → Core → Prop} (hmine : P s.mine t.mine) (hsame : ∀ k, P k k)
    (k : Nat) : P (s.core k) (t.core k) := by
  have hcur : t.curCore = s.curCore := by rw [h.rest]
  by_cases hk : k = s.curCore
  · rw [State.mine, State.mine, hcur, ← hk] at hmine
    exact hmine
  · rw [h.others k hk]
    exact hsame _

/-- What writing one scalar register and moving on leaves of a core. -/
theorem State.ScalarFrame.core_eq {s t : State} {d : RegDst} (h : s.ScalarFrame t d) (k : Nat) :
    t.core k = { s.core k with ctxs := (t.core k).ctxs, ram := (t.core k).ram } :=
  h.forall_core (P := fun x y => y = { x with ctxs := y.ctxs, ram := y.ram }) h.core (fun _ => rfl) k
theorem State.ScalarFrame.ctx_eq {s t : State} {d : RegDst} (h : s.ScalarFrame t d) {c x : Nat} (hx : c ≠ s.curCore ∨ x ≠ s.curCtx) :
    t.ctx c x = s.ctx c x := by
  by_cases hc : c = s.curCore
  · rw [hc]
    exact h.contexts x (hx.resolve_left fun hne => hne hc)
  · rw [State.ctx, h.others c hc, State.ctx]

/-- A status in a register after work that keeps the issuer. -/
theorem State.KeepsIssuer.cacheStatus {s u : State} {m : Bool} (h : s.KeepsIssuer u) (hm : s.NoTrapDue m) (d : BitVec 5) (n : Nat) :
    CacheStatus s ((u.setReg d (BitVec.ofNat 64 n)).retire m) m d n ∧
      u.ScalarFrame ((u.setReg d (BitVec.ofNat 64 n)).retire m) (s.dst d) := by
  obtain ⟨t, ht, hframe, hadv, hval⟩ := u.finish_spec m d (BitVec.ofNat 64 n) (h.noTrapDue hm)
  cases ht
  have position := h.advanced hadv
  rw [h.dst] at hframe hval
  obtain ⟨⟨-, hcore, hctx⟩, hregs, hmem⟩ := h
  refine ⟨⟨position, ?_, fun e he => ?_, fun p => ?_⟩, hframe⟩
  · rw [← hcore, ← hctx, hval]
  · rw [← hcore, ← hctx, hframe.registers e he, hcore, hctx, hregs e]
  · rw [hframe.memory p id, hmem p]

/-! ### A result of variable latency after such work -/

/-- What moving the issuing context leaves of a core. -/
theorem State.OnlyMe.core_eq {s t : State} (h : s.OnlyMe t) (k : Nat) : t.core k = { s.core k with ctxs := (t.core k).ctxs } :=
  h.forall_core (P := fun x y => y = { x with ctxs := y.ctxs }) h.core (fun _ => rfl) k

/-- An instruction that only moves on keeps every scalar register. -/
theorem State.Moves.sameRegisters {s t : State} (h : s.Moves t) : s.SameRegisters t := by
  have hcur : t.curCore = s.curCore ∧ t.curCtx = s.curCtx := by rw [h.rest]; exact ⟨rfl, rfl⟩
  have hme := h.me
  rw [State.me, hcur.1, hcur.2] at hme
  intro e
  cases e with
  | none => rfl
  | glob j => rw [State.readDst, hme]; rfl
  | ram e => rw [State.readDst, h.toOnlyMe.core_eq]; rfl

theorem State.KeepsIssuer.addOp (s : State) (c : Nat) (o : Op) : s.KeepsIssuer (s.addOp c o) := by
  obtain ⟨issuer, registers, memory⟩ := State.KeepsIssuer.modCore s c (fun k => { k with ops := k.ops ++ [{ o with id := s.nextId }] }) rfl
  exact ⟨issuer, registers, memory⟩

/-- Issuing a delayed result keeps the TLBs of every core. -/
theorem State.tlbs_issueResult (s : State) {m : Bool} (hm : s.NoTrapDue m) (ws : List RegWrite) (k : Nat) :
    ((s.issueResult m ws).core k).l1tlb = (s.core k).l1tlb ∧ ((s.issueResult m ws).core k).l2tlb = (s.core k).l2tlb := by
  obtain ⟨hmoves, -⟩ := State.retire_moves _ m ((State.KeepsIssuer.addOp s s.curCore { s.newOp with fin := .ready ws }).noTrapDue hm)
  rw [State.issueResult, hmoves.toOnlyMe.core_eq k, State.core_addOp]
  split
  · next h => rw [h]; exact ⟨rfl, rfl⟩
  · exact ⟨rfl, rfl⟩

/-- A delayed scalar result after work that keeps the issuer and its operations. -/
theorem State.KeepsIssuer.resultIssued {s u : State} {m : Bool} (h : s.KeepsIssuer u) (hm : s.NoTrapDue m) (d : BitVec 5) (v : Word)
    (hops : u.mine.ops = s.mine.ops) (hid : u.nextId = s.nextId) : ResultIssued s (u.issueResult m [.scalar (s.dst d) v]) m d v := by
  have hw := h.trans (.addOp u u.curCore { u.newOp with fin := .ready [.scalar (s.dst d) v] })
  obtain ⟨hmoves, hadv⟩ := State.retire_moves _ m (hw.noTrapDue hm)
  have position := hw.advanced hadv
  obtain ⟨⟨-, hcur, hctx⟩, hregs, hmem⟩ := hw
  refine ⟨position, ⟨{ u.newOp with fin := .ready [.scalar (s.dst d) v], id := u.nextId }, ?_, hid, hctx, rfl, rfl⟩, fun e => ?_,
    fun p => (hmoves.memory p id).trans (hmem p)⟩
  · rw [← hops]
    refine (congrArg Core.ops hmoves.core).trans ?_
    rw [State.mine, State.core_addOp, State.addOp_curCore, if_pos rfl]
    rfl
  · have hmoved := hmoves.sameRegisters e
    rw [hcur, hctx] at hmoved
    exact hmoved.trans (hregs e)

end Sys2Proof.Machine
end

section
/-! SUPPORT. tlbfill and tlbprobe (04 R91 to R93, R98), and the translation entries' part of O39. -/

namespace Sys2Proof.Machine

/-! ### Supervisor's instructions (03 R77) -/

theorem runM_supervisorM {s : State} (h : s.me.mode = .supervisor) (k : Unit → M Unit) : runM (supervisorM >>= k) s = runM (k ()) s := by
  have hgo : supervisorM s = .ok ((), s) := if_pos h
  simp only [runM, bind, StateT.bind, hgo, Except.bind]
theorem runM_supervisorM_user {s : State} (h : s.me.mode = .user) (k : Unit → M Unit) :
    runM (supervisorM >>= k) s = .next (s.faultHere { cause := .priv, info := 0, addr := 0, undeliv := false }) := by
  have hstop : supervisorM s = .error (.fault { cause := .priv, info := 0, addr := 0, undeliv := false }) := if_neg (by rw [h]; decide)
  simp only [runM, bind, StateT.bind, hstop, Except.bind]

/-! ### Translation requests that are answered (04 R90) -/

/-- A request that has been answered is found no more. -/
theorem Core.xreq?_dropXreq (k : Core) (tag : Nat) : (k.dropXreq tag).xreq? tag = none := by
  rw [Core.xreq?, List.find?_eq_none]
  intro r hr
  have hne : (r.tag != tag) = true := (List.mem_filter.mp hr).2
  simp only [bne_iff_ne, ne_eq] at hne
  simp [hne]

/-- A context waits for its core's request of a tag: it is not halted, and not the one that issues. -/
structure State.Awaits (s : State) (c tag : Nat) (r : XReq) : Prop where
  request : (s.core c).xreq? tag = some r
  agent : r.agent = 0
  wait : (s.ctx c r.slot).wait = .xlate tag
  running : (s.ctx c r.slot).st ≠ .halted
  other : c ≠ s.curCore ∨ r.slot ≠ s.curCtx

theorem State.wakeXlate_waiting {s : State} {c tag : Nat} {r : XReq} (h : s.Awaits c tag r) :
    s.wakeXlate c tag = (s.modCore c fun k => k.dropXreq tag).modCtx c r.slot Ctx.wake := by
  have hctx : ((s.modCore c fun k => k.dropXreq tag).ctx c r.slot).wait = .xlate tag := by
    rw [State.ctx, State.core_modCore, if_pos rfl]; exact h.wait
  simp only [State.wakeXlate, h.request, XReq.ctx?, h.agent, hctx, if_true]

/-- The remote fault that a refusal gives a parked access. -/
def XReq.refusedBy (r : XReq) (cause : Cause) (info : BitVec 32) (y : Ctx) : PendFault :=
  { f := { cause := cause, info := info, addr := r.va, undeliv := false }, pc := y.pc, seq := y.seq, deferred := false, rep := y.rep }

theorem State.refuseXlate_waiting {s : State} {c tag : Nat} {r : XReq} (h : s.Awaits c tag r) (cause : Cause) (info : BitVec 32) :
    s.refuseXlate c tag cause info =
      (s.modCore c fun k => k.dropXreq tag).raiseFault c r.slot (r.refusedBy cause info (s.ctx c r.slot)) := by
  have hctx : (s.modCore c fun k => k.dropXreq tag).ctx c r.slot = s.ctx c r.slot := by
    rw [State.ctx, State.core_modCore, if_pos rfl]; rfl
  simp only [State.refuseXlate, h.request, h.agent, ne_eq, not_true_eq_false, if_false, hctx, h.wait, if_true, if_neg h.running]
  rfl

/-! ### A remote fault of a context with nothing outstanding (17 R352) -/

/-- The operations of a core without the blocks that a context reads for itself. -/
def Core.dropBlocks (k : Core) (x : Nat) : Core := { k with ops := k.ops.filter fun o => !(o.ctx == x && decide (o.fin = .block)) }

theorem State.raiseFault_awaiting (s : State) {c x tag : Nat} (p : PendFault) (hops : (s.core c).opsOf x = [])
    (hwait : (s.ctx c x).wait = .xlate tag) : s.raiseFault c x p = (s.modCore c fun k => k.dropBlocks x).haltFault c x p := by
  have hctx : ((s.modCore c fun k => k.dropBlocks x).ctx c x).wait = .xlate tag := by
    rw [State.ctx, State.core_modCore, if_pos rfl]; exact hwait
  have hnone : ((s.modCore c fun k => k.dropBlocks x).core c).opsOf x = [] := by
    rw [State.core_modCore, if_pos rfl, Core.opsOf, Core.dropBlocks, List.filter_filter]
    refine List.filter_eq_nil_iff.mpr fun o ho => ?_
    have hne := List.filter_eq_nil_iff.mp hops o ho
    simp [hne]
  unfold State.raiseFault
  simp only [Core.dropBlocks] at hctx hnone
  simp only [hctx, hnone, if_true]
  rfl

/-- A fault message changes its sender's count of messages, and no context. -/
@[simp] theorem State.ctx_sendFault (s : State) (target src ctx : Nat) (w : Vec) (c x : Nat) :
    (s.sendFault target src ctx w).ctx c x = s.ctx c x := by
  unfold State.sendFault State.sendMsg
  rw [State.ctx_send, State.ctx, State.core_modCore]
  split
  · next h => rw [h]; rfl
  · rfl
@[simp] theorem State.xreqs_sendFault (s : State) (target src ctx : Nat) (w : Vec) (k : Nat) :
    ((s.sendFault target src ctx w).core k).xreqs = (s.core k).xreqs := by
  unfold State.sendFault State.sendMsg
  rw [State.core_send, State.core_modCore]
  split
  · next h => rw [h]
  · rfl

/-- What a remote fault leaves in the context that it halts. -/
theorem State.ctx_haltFault (s : State) (c x : Nat) (p : PendFault) :
    ((s.haltFault c x p).ctx c x).st = .halted ∧
      ((s.haltFault c x p).ctx c x).ecause = BitVec.ofNat 64 (p.f.cause.code + p.f.info.toNat * 2 ^ 32) ∧
      ((s.haltFault c x p).ctx c x).einfo = p.f.addr.setWidth 64 := by
  rw [State.haltFault, State.ctx_sendFault, State.ctx_modCtx, if_pos ⟨rfl, rfl⟩]
  exact ⟨rfl, rfl, rfl⟩

theorem State.xreqs_haltFault (s : State) (c x : Nat) (p : PendFault) (k : Nat) :
    ((s.haltFault c x p).core k).xreqs = (s.core k).xreqs := by
  rw [State.haltFault, State.xreqs_sendFault, State.core_modCtx]
  split
  · next h => rw [h]; rfl
  · rfl

theorem State.KeepsIssuer.haltFault (s : State) {c x : Nat} (p : PendFault) (hx : c ≠ s.curCore ∨ x ≠ s.curCtx) :
    s.KeepsIssuer (s.haltFault c x p) := (State.KeepsIssuer.modCtx s _ hx).trans (.sendMsg _ c _)

/-! ### tlbfill by the image (04 R91 to R93) -/

/-- The low bits of a doubleword. -/
theorem fld_low (w : Word) (n : Nat) : fld w 0 n = w.toNat % 2 ^ n := by rw [fld_eq_div_mod, Nat.pow_zero, Nat.div_one]

section
variable {s : State} {issuer tag : Nat} {v : Vec} {wake : Bool}

theorem State.tlbFill_unnamed (hv : (entWord v 0).getLsbD 63 = false)
    (h : refusalCause ((entWord v 0).toNat % 256) = none ∨ clusterOf (entTarget v) ≠ clusterOf issuer) :
    s.tlbFill issuer v tag wake = (s, 2) := by
  have hcause : fld (entWord v 0) 0 8 = (entWord v 0).toNat % 256 := fld_low ..
  simp only [State.tlbFill, hv, Bool.not_false, if_true, hcause]
  cases he : refusalCause ((entWord v 0).toNat % 256) with
  | none => rfl
  | some e => simp only [if_pos (h.resolve_left (he ▸ Option.some_ne_none e))]

theorem State.tlbFill_refusal {e : Cause} (hv : (entWord v 0).getLsbD 63 = false) (he : refusalCause ((entWord v 0).toNat % 256) = some e)
    (hc : clusterOf (entTarget v) = clusterOf issuer) :
    s.tlbFill issuer v tag wake = (if wake then s.refuseXlate (entTarget v) tag e ((entWord v 1).setWidth 32) else s, 3) := by
  have hcause : fld (entWord v 0) 0 8 = (entWord v 0).toNat % 256 := fld_low ..
  simp only [State.tlbFill, hv, Bool.not_false, if_true, hcause, he, hc, ne_eq, not_true_eq_false, if_false]

/-- A refusal that wakes no access changes nothing. -/
theorem State.tlbFill_refuses {e : Cause} (hv : (entWord v 0).getLsbD 63 = false) (he : refusalCause ((entWord v 0).toNat % 256) = some e)
    (hc : clusterOf (entTarget v) = clusterOf issuer) : s.tlbFill issuer v tag false = (s, 3) :=
  State.tlbFill_refusal hv he hc
theorem State.tlbFill_faults {e : Cause} (hv : (entWord v 0).getLsbD 63 = false) (he : refusalCause ((entWord v 0).toNat % 256) = some e)
    (hc : clusterOf (entTarget v) = clusterOf issuer) :
    s.tlbFill issuer v tag true = (s.refuseXlate (entTarget v) tag e ((entWord v 1).setWidth 32), 3) :=
  State.tlbFill_refusal hv he hc

theorem State.tlbFill_malformed (hv : (entWord v 0).getLsbD 63 = true) (hok : entOk v issuer = false) :
    s.tlbFill issuer v tag wake = (s, 2) := by
  simp only [State.tlbFill, hv, hok, Bool.not_true, Bool.not_false, Bool.false_eq_true, if_false, if_true]

/-- The first source of an image is asked for first, and a core registers only what its L1 holds. -/
theorem State.tlbFill_unheld (hv : (entWord v 0).getLsbD 63 = true) (hok : entOk v issuer = true) (hn : 0 < entNsrc v)
    (hcopy : (s.core issuer).copy? ((entWord v 4).toNat % 2 ^ 42 / 128) .tracked = none) :
    s.tlbFill issuer v tag wake = (s, 1) := by
  obtain ⟨n, hsucc⟩ : ∃ n, entNsrc v = n + 1 := Nat.exists_eq_add_one.mpr hn
  have hunit : fld (entWord v 4) 0 56 % 2 ^ 42 / 128 = (entWord v 4).toNat % 2 ^ 42 / 128 := by rw [fld_low]; omega
  have hfirst : s.registerTShare issuer (entTarget v) (fld (entWord v 4) 0 56) = none := by
    simp only [State.registerTShare, hunit, hcopy]
  simp only [State.tlbFill, hv, hok, Bool.not_true, Bool.false_eq_true, if_false, hsucc, List.range_succ_eq_map, List.map_cons,
    Nat.add_zero, State.registerAll, hfirst]

theorem State.tlbFill_sourceless (hv : (entWord v 0).getLsbD 63 = true) (hok : entOk v issuer = true) (hn : entNsrc v = 0) :
    s.tlbFill issuer v tag wake =
      (if wake then (s.modCore (entTarget v) fun k => k.installTlb (entOf v)).wakeXlate (entTarget v) tag
        else s.modCore (entTarget v) fun k => k.installTlb (entOf v), 0) := by
  simp only [State.tlbFill, hv, hok, Bool.not_true, Bool.false_eq_true, if_false, hn, List.range_zero, List.map_nil, State.registerAll]

/-- A well-formed image without sources is installed. -/
theorem State.tlbFill_installs (hv : (entWord v 0).getLsbD 63 = true) (hok : entOk v issuer = true) (hn : entNsrc v = 0) :
    s.tlbFill issuer v tag false = (s.modCore (entTarget v) fun k => k.installTlb (entOf v), 0) :=
  State.tlbFill_sourceless hv hok hn
theorem State.tlbFill_wakes (hv : (entWord v 0).getLsbD 63 = true) (hok : entOk v issuer = true) (hn : entNsrc v = 0) :
    s.tlbFill issuer v tag true = ((s.modCore (entTarget v) fun k => k.installTlb (entOf v)).wakeXlate (entTarget v) tag, 0) :=
  State.tlbFill_sourceless hv hok hn

end

/-- tlbfill in supervisor mode: what the fill does, and then the status (04 R93). -/
theorem exec_tlbfill {s u : State} {m wake : Bool} {a b : BitVec 5} {n : Nat} (hm : s.NoTrapDue m) (hs : s.me.mode = .supervisor)
    (hwake : (s.reg b).getLsbD 16 = wake) (hfill : s.tlbFill s.curCore (s.vreg a) ((s.reg b).toNat % 65536) wake = (u, n))
    (hk : s.KeepsIssuer u) : ∃ t, exec (.tlbfill m a b) s = .next t ∧ CacheStatus s t m b n ∧ u.ScalarFrame t (s.dst b) := by
  have htag : fld (s.reg b) 0 16 = (s.reg b).toNat % 65536 := fld_low ..
  refine ⟨(u.setReg b (BitVec.ofNat 64 n)).retire m, ?_, hk.cacheStatus hm b n⟩
  refine (runM_supervisorM hs _).trans ?_
  simp only [runM, modM, htag, hwake, hfill]

theorem State.ScalarFrame.tlbs {s t : State} {d : RegDst} (h : s.ScalarFrame t d) (k : Nat) :
    (t.core k).l1tlb = (s.core k).l1tlb ∧ (t.core k).l2tlb = (s.core k).l2tlb := by
  rw [h.core_eq k]; exact ⟨rfl, rfl⟩
theorem State.ScalarFrame.xreqs {s t : State} {d : RegDst} (h : s.ScalarFrame t d) (k : Nat) : (t.core k).xreqs = (s.core k).xreqs := by
  rw [h.core_eq k]
theorem State.ScalarFrame.homes {s t : State} {d : RegDst} (h : s.ScalarFrame t d) : t.homes = s.homes := by rw [h.rest]

/-! ### What an entry that is installed leaves (04 R85, R93) -/

theorem Core.head_installTlb (k : Core) (e : TlbEnt) : (k.installTlb e).l2tlb.head? = some e := rfl

/-- Whether an entry stays when another is installed: it is of another domain, or their pages do not overlap. -/
def TlbEnt.apart (e f : TlbEnt) : Bool := !(f.domain == e.domain && (f.covers (e.vpn * 4096) || e.covers (f.vpn * 4096)))

theorem TlbEnt.not_covers_of_apart {e f : TlbEnt} (h : e.apart f = true) (hd : f.domain = e.domain) : e.covers (f.vpn * 4096) = false := by
  simp only [TlbEnt.apart, hd, BEq.rfl, Bool.true_and, Bool.not_eq_true', Bool.or_eq_false_iff] at h
  exact h.2

/-- What is left beside an installed entry is what stays, less the one that it replaces in a full set. -/
theorem Core.apart_of_mem_installTlb (k : Core) (e : TlbEnt) :
    ∀ f ∈ (k.installTlb e).l1tlb ++ (k.installTlb e).l2tlb.drop 1, e.apart f = true := by
  intro f hf
  rcases List.mem_append.mp hf with hf | hf
  · exact (List.mem_filter.mp hf).2
  · simp only [Core.installTlb, List.drop_succ_cons, List.drop_zero] at hf
    split at hf
    · exact (List.mem_filter.mp hf).2
    · split at hf
      · exact (List.mem_filter.mp (List.mem_filter.mp hf).1).2
      · exact (List.mem_filter.mp hf).2

/-- A request that waits does so when an entry has come to its core. -/
theorem State.Awaits.install {s : State} {c tag : Nat} {r : XReq} (h : s.Awaits c tag r) (d : Nat) (e : TlbEnt) :
    (s.modCore d fun k => k.installTlb e).Awaits c tag r := by
  have hcore : ((s.modCore d fun k => k.installTlb e).core c).xreqs = (s.core c).xreqs ∧
      ((s.modCore d fun k => k.installTlb e).core c).ctxs = (s.core c).ctxs := by
    rw [State.core_modCore]
    split
    · next hd => rw [hd]; exact ⟨rfl, rfl⟩
    · exact ⟨rfl, rfl⟩
  have hctx : (s.modCore d fun k => k.installTlb e).ctx c r.slot = s.ctx c r.slot := by rw [State.ctx, Core.ctx, hcore.2]; rfl
  exact ⟨by rw [Core.xreq?, hcore.1]; exact h.request, h.agent, by rw [hctx]; exact h.wait, by rw [hctx]; exact h.running, h.other⟩

/-! ### The answers of a fill (04 R93) -/

/-- A fill that wakes an access. -/
theorem State.wakeXlate_spec {s : State} {c tag : Nat} {r : XReq} (h : s.Awaits c tag r) :
    s.KeepsIssuer (s.wakeXlate c tag) ∧ ((s.wakeXlate c tag).ctx c r.slot).st = .ready ∧ ((s.wakeXlate c tag).ctx c r.slot).wait = .none ∧
      ((s.wakeXlate c tag).core c).xreq? tag = none ∧ ((s.wakeXlate c tag).core c).l2tlb = (s.core c).l2tlb := by
  have hctx : (s.modCore c fun k => k.dropXreq tag).ctx c r.slot = s.ctx c r.slot := by
    rw [State.ctx, State.core_modCore, if_pos rfl]; rfl
  have hst : (Ctx.wake (s.ctx c r.slot)).st = .ready := if_neg h.running
  rw [State.wakeXlate_waiting h]
  refine ⟨(State.KeepsIssuer.modCore s c _ rfl).trans (.modCtx _ _ h.other), ?_, ?_, ?_, ?_⟩
  · rw [State.ctx_modCtx, if_pos ⟨rfl, rfl⟩, hctx, hst]
  · rw [State.ctx_modCtx, if_pos ⟨rfl, rfl⟩]; rfl
  · rw [State.core_modCtx, if_pos rfl, State.core_modCore, if_pos rfl]
    exact Core.xreq?_dropXreq (s.core c) tag
  · rw [State.core_modCtx, if_pos rfl, State.core_modCore, if_pos rfl]; rfl

/-- A refusal that faults an access. -/
theorem State.refuseXlate_spec {s : State} {c tag : Nat} {r : XReq} (h : s.Awaits c tag r) (hops : (s.core c).opsOf r.slot = [])
    (e : Cause) (info : BitVec 32) :
    s.KeepsIssuer (s.refuseXlate c tag e info) ∧ ((s.refuseXlate c tag e info).ctx c r.slot).st = .halted ∧
      ((s.refuseXlate c tag e info).ctx c r.slot).ecause = BitVec.ofNat 64 (e.code + info.toNat * 2 ^ 32) ∧
      ((s.refuseXlate c tag e info).ctx c r.slot).einfo = r.va.setWidth 64 ∧
      ((s.refuseXlate c tag e info).core c).xreq? tag = none := by
  have hdropped : (s.modCore c fun k => k.dropXreq tag).core c = (s.core c).dropXreq tag := by rw [State.core_modCore, if_pos rfl]
  have hraise := State.raiseFault_awaiting (s.modCore c fun k => k.dropXreq tag) (r.refusedBy e info (s.ctx c r.slot))
    (by rw [hdropped]; exact hops) (by rw [State.ctx, hdropped]; exact h.wait)
  rw [State.refuseXlate_waiting h, hraise]
  have hkeep := (State.KeepsIssuer.modCore s c (fun k => k.dropXreq tag) rfl).trans (.modCore _ c (fun k => k.dropBlocks r.slot) rfl)
  obtain ⟨hst, hcause, hinfo⟩ := State.ctx_haltFault ((s.modCore c fun k => k.dropXreq tag).modCore c fun k => k.dropBlocks r.slot) c r.slot
    (r.refusedBy e info (s.ctx c r.slot))
  refine ⟨hkeep.trans (.haltFault _ _ h.other), hst, hcause, hinfo, ?_⟩
  rw [Core.xreq?, State.xreqs_haltFault, State.core_modCore, if_pos rfl, hdropped]
  exact Core.xreq?_dropXreq (s.core c) tag

/-! ### The word of a probe (04 R98) -/

theorem Cls.code_lt (c : Cls) : c.code < 3 := by cases c <;> decide

/-- The bounds of what a probe's word shows. -/
theorem TlbEnt.probe_bounds (e : TlbEnt) (inL1 gone : Bool) :
    e.xwr.toNat < 8 ∧ e.sup.toNat < 2 ∧ e.cls.code < 3 ∧ e.srcs.isEmpty.toNat < 2 ∧ gone.toNat < 2 ∧ inL1.toNat < 2 :=
  ⟨e.xwr.isLt, e.sup.toNat_lt, e.cls.code_lt, e.srcs.isEmpty.toNat_lt, gone.toNat_lt, inL1.toNat_lt⟩

/-- The fields of a probe's word do not run into each other. -/
theorem TlbEnt.toNat_probeWord (e : TlbEnt) (inL1 gone : Bool) :
    (e.probeWord inL1 gone).toNat = e.xwr.toNat + e.sup.toNat * 2 ^ 3 + e.cls.code * 2 ^ 10 + e.pfn % 2 ^ 44 * 2 ^ 12 + e.size % 8 * 2 ^ 57
      + gone.toNat * 2 ^ 60 + e.srcs.isEmpty.toNat * 2 ^ 61 + inL1.toNat * 2 ^ 62 + 2 ^ 63 := by
  obtain ⟨hxwr, hsup, hcls, hempty, hgone, hin⟩ := e.probe_bounds inL1 gone
  rw [TlbEnt.probeWord, BitVec.toNat_ofNat]
  omega

theorem getLsbD_of_div_mod {n i : Nat} {w : BitVec n} {b : Bool} (h : w.toNat / 2 ^ i % 2 = b.toNat) : w.getLsbD i = b := by
  rw [BitVec.getLsbD, Nat.testBit_eq_decide_div_mod_eq, h]
  cases b <;> rfl

theorem TlbEnt.probeWord_bits (e : TlbEnt) (inL1 gone : Bool) :
    (e.probeWord inL1 gone).getLsbD 63 = true ∧ (e.probeWord inL1 gone).getLsbD 62 = inL1 ∧
      (e.probeWord inL1 gone).getLsbD 61 = e.srcs.isEmpty ∧ (e.probeWord inL1 gone).getLsbD 60 = gone ∧
      (e.probeWord inL1 gone).getLsbD 3 = e.sup := by
  have hword := e.toNat_probeWord inL1 gone
  obtain ⟨hxwr, hsup, hcls, hempty, hgone, hin⟩ := e.probe_bounds inL1 gone
  have htrue : true.toNat = 1 := rfl
  refine ⟨getLsbD_of_div_mod ?_, getLsbD_of_div_mod ?_, getLsbD_of_div_mod ?_, getLsbD_of_div_mod ?_, getLsbD_of_div_mod ?_⟩ <;> omega

theorem TlbEnt.probeWord_fields (e : TlbEnt) (inL1 gone : Bool) :
    fld (e.probeWord inL1 gone) 57 3 = e.size % 8 ∧ fld (e.probeWord inL1 gone) 56 1 = 0 ∧
      fld (e.probeWord inL1 gone) 12 44 = e.pfn % 2 ^ 44 ∧ fld (e.probeWord inL1 gone) 10 2 = e.cls.code ∧
      fld (e.probeWord inL1 gone) 4 6 = 0 ∧ (e.probeWord inL1 gone).setWidth 3 = e.xwr := by
  have hword := e.toNat_probeWord inL1 gone
  obtain ⟨hxwr, hsup, hcls, hempty, hgone, hin⟩ := e.probe_bounds inL1 gone
  simp only [fld_eq_div_mod]
  refine ⟨?_, ?_, ?_, ?_, ?_, BitVec.eq_of_toNat_eq ?_⟩
  case refine_6 => rw [BitVec.toNat_setWidth]; omega
  all_goals omega

/-! ### tlbprobe by what it finds (04 R98) -/

/-- Both TLBs of a core without the entries that satisfy a test. -/
def Core.dropEntries (k : Core) (hit : TlbEnt → Bool) : Core :=
  { k with l1tlb := k.l1tlb.filter fun e => !hit e, l2tlb := k.l2tlb.filter fun e => !hit e }
/-- What a probe of a core leaves: it removes what it found when INV asks for it. -/
def State.probed (s : State) (n : Nat) (hit : TlbEnt → Bool) (inv : Bool) : State := if inv then s.modCore n fun k => k.dropEntries hit else s

/-- A probe keeps the issuer, its operations and the next number. -/
theorem State.probed_keeps (s : State) (n : Nat) (hit : TlbEnt → Bool) (inv : Bool) :
    s.KeepsIssuer (s.probed n hit inv) ∧ (s.probed n hit inv).mine.ops = s.mine.ops ∧ (s.probed n hit inv).nextId = s.nextId := by
  cases inv with
  | false => exact ⟨.refl s, rfl, rfl⟩
  | true =>
    refine ⟨.modCore s n (fun k => k.dropEntries hit) rfl, ?_, rfl⟩
    show ((s.modCore n fun k => k.dropEntries hit).core s.curCore).ops = (s.core s.curCore).ops
    rw [State.core_modCore]
    split
    · next h => rw [h]; rfl
    · rfl

/-- What a probe leaves in the TLBs of the core that it names, and of the others. -/
theorem State.tlbs_probed (s : State) (n : Nat) (hit : TlbEnt → Bool) (inv : Bool) :
    (inv = true → ((s.probed n hit inv).core n).l1tlb = (s.core n).l1tlb.filter (fun f => !hit f) ∧
      ((s.probed n hit inv).core n).l2tlb = (s.core n).l2tlb.filter (fun f => !hit f)) ∧
    (inv = false → s.probed n hit inv = s) ∧ ∀ k, k ≠ n → (s.probed n hit inv).core k = s.core k := by
  cases inv with
  | false => exact ⟨fun h => absurd h Bool.false_ne_true, fun _ => rfl, fun _ _ => rfl⟩
  | true =>
    refine ⟨fun _ => ?_, fun h => absurd h.symm Bool.false_ne_true, fun k hk => ?_⟩
    · show ((s.modCore n fun k => k.dropEntries hit).core n).l1tlb = _ ∧ ((s.modCore n fun k => k.dropEntries hit).core n).l2tlb = _
      rw [State.core_modCore, if_pos rfl]
      exact ⟨rfl, rfl⟩
    · show (s.modCore n fun k => k.dropEntries hit).core k = _
      rw [State.core_modCore, if_neg hk]

section
variable {s : State} {n domain va : Nat} {inv : Bool} {hit : TlbEnt → Bool}

theorem State.tlbProbe_miss (hhit : ∀ e, hit e = (e.covers va && decide (e.domain = domain)))
    (hfind : ((s.core n).l1tlb ++ (s.core n).l2tlb).find? hit = none) : s.tlbProbe n domain va inv = (s, 0) := by
  obtain rfl : hit = fun e => e.covers va && e.domain == domain := funext hhit
  simp only [State.tlbProbe, hfind]

theorem State.tlbProbe_hit (hhit : ∀ e, hit e = (e.covers va && decide (e.domain = domain))) {e : TlbEnt}
    (hfind : ((s.core n).l1tlb ++ (s.core n).l2tlb).find? hit = some e) :
    s.tlbProbe n domain va inv = (s.probed n hit inv, e.probeWord ((s.core n).l1tlb.any hit) inv) := by
  obtain rfl : hit = fun e => e.covers va && e.domain == domain := funext hhit
  simp only [State.tlbProbe, hfind]
  rfl

end

/-- tlbprobe in supervisor mode: what it removes, and then its word as a result of variable latency. -/
theorem exec_tlbprobe {s u : State} {m : Bool} {a b : BitVec 5} {w : Word} (hm : s.NoTrapDue m) (hs : s.me.mode = .supervisor)
    (hprobe : (if clusterOf ((s.reg a).toNat % 8192) = clusterOf s.curCore then
      s.tlbProbe ((s.reg a).toNat % 8192) ((s.reg a).toNat / 65536 % 1024) ((s.reg b).toNat % 2 ^ 56) ((s.reg a).getLsbD 32) else (s, 0)) = (u, w))
    (hk : s.KeepsIssuer u) (hops : u.mine.ops = s.mine.ops) (hid : u.nextId = s.nextId) :
    ∃ t, exec (.tlbprobe m a b) s = .next t ∧ ResultIssued s t m a w ∧
      ∀ k, (t.core k).l1tlb = (u.core k).l1tlb ∧ (t.core k).l2tlb = (u.core k).l2tlb := by
  have hcore : fld (s.reg a) 0 13 = (s.reg a).toNat % 8192 := fld_low ..
  have hdomain : fld (s.reg a) 16 10 = (s.reg a).toNat / 65536 % 1024 := fld_eq_div_mod ..
  have hva : (ptrVa (s.reg b)).toNat = (s.reg b).toNat % 2 ^ 56 := BitVec.toNat_setWidth ..
  refine ⟨u.issueResult m [.scalar (s.dst a) w], ?_, hk.resultIssued hm a w hops hid, u.tlbs_issueResult (hk.noTrapDue hm) _⟩
  refine (runM_supervisorM hs _).trans ?_
  simp only [runM, modM, hcore, hdomain, hva, hprobe]

/-! ### The statement -/

theorem translationEntries : Parts.TranslationEntries := by
  unfold Parts.TranslationEntries
  rintro m a b s v c tag hm rfl rfl rfl
  refine ⟨fun huser => ?user, fun hs => ⟨fun hvalid => ⟨fun hok => ?malformed, fun hok => ⟨fun hn hcopy => ?unheld, fun hn hwake => ?installed,
    fun r hn hwake hreq hagent hwait hst hother => ?woken⟩⟩, fun hinvalid => ⟨fun hbad => ?unnamed, fun e he hcluster => ⟨fun hwake => ?refused,
    fun r hwake hreq hagent hwait hst hops hother => ?faulted⟩⟩, fun n va hn hva => ⟨fun hfar => ?far, fun hnear hit hhit =>
    ⟨fun hfind => ?miss, fun e hfind => ?hit⟩⟩⟩⟩
  case user =>
    simp only [List.forall_mem_cons]
    exact ⟨runM_supervisorM_user huser _, runM_supervisorM_user huser _, fun _ h => absurd h List.not_mem_nil⟩
  case malformed =>
    obtain ⟨t, hexec, hstatus, hframe⟩ := exec_tlbfill hm hs rfl (State.tlbFill_malformed hvalid hok) (.refl s)
    exact ⟨t, hexec, hstatus, hframe.homes, hframe.tlbs⟩
  case unheld =>
    obtain ⟨t, hexec, hstatus, hframe⟩ := exec_tlbfill hm hs rfl (State.tlbFill_unheld hvalid hok hn hcopy) (.refl s)
    exact ⟨t, hexec, hstatus, hframe.homes, hframe.tlbs⟩
  case installed =>
    obtain ⟨t, hexec, hstatus, hframe⟩ := exec_tlbfill hm hs hwake (State.tlbFill_installs hvalid hok hn) (.modCore s _ _ rfl)
    have htarget := hframe.tlbs (entTarget (s.vreg a))
    rw [State.core_modCore, if_pos rfl] at htarget
    refine ⟨t, hexec, hstatus, hframe.homes, by rw [htarget.2]; exact Core.head_installTlb _ _, ?_, fun k hk => ?_⟩
    · rw [htarget.1, htarget.2]
      exact fun f hf hd => TlbEnt.not_covers_of_apart (Core.apart_of_mem_installTlb _ _ f hf) hd
    · have hrest := hframe.tlbs k
      rwa [State.core_modCore, if_neg hk] at hrest
  case woken =>
    have hawaits : s.Awaits (entTarget (s.vreg a)) ((s.reg b).toNat % 65536) r := ⟨hreq, hagent, hwait, hst, hother⟩
    obtain ⟨hwoken, hready, hnone, hgone, hl2⟩ := State.wakeXlate_spec (hawaits.install (entTarget (s.vreg a)) (entOf (s.vreg a)))
    have hkeep := (State.KeepsIssuer.modCore s (entTarget (s.vreg a)) (fun k => k.installTlb (entOf (s.vreg a))) rfl).trans hwoken
    obtain ⟨t, hexec, hstatus, hframe⟩ := exec_tlbfill hm hs hwake (State.tlbFill_wakes hvalid hok hn) hkeep
    rw [← hframe.ctx_eq (hkeep.elsewhere hother)] at hready hnone
    refine ⟨t, hexec, hstatus, ?_, hready, hnone, ?_⟩
    · rw [(hframe.tlbs _).2, hl2, State.core_modCore, if_pos rfl]; rfl
    · rw [Core.xreq?, hframe.xreqs]; exact hgone
  case unnamed =>
    obtain ⟨t, hexec, hstatus, hframe⟩ := exec_tlbfill hm hs rfl (State.tlbFill_unnamed hinvalid hbad) (.refl s)
    exact ⟨t, hexec, hstatus, hframe.xreqs⟩
  case refused =>
    obtain ⟨t, hexec, hstatus, hframe⟩ := exec_tlbfill hm hs hwake (State.tlbFill_refuses hinvalid he hcluster) (.refl s)
    exact ⟨t, hexec, hstatus, hframe.xreqs⟩
  case faulted =>
    have hawaits : s.Awaits (entTarget (s.vreg a)) ((s.reg b).toNat % 65536) r := ⟨hreq, hagent, hwait, hst, hother⟩
    obtain ⟨hkeep, hhalted, hcause, hinfo, hgone⟩ := State.refuseXlate_spec hawaits hops e ((entWord (s.vreg a) 1).setWidth 32)
    obtain ⟨t, hexec, hstatus, hframe⟩ := exec_tlbfill hm hs hwake (State.tlbFill_faults hinvalid he hcluster) hkeep
    rw [← hframe.ctx_eq (hkeep.elsewhere hother)] at hhalted hcause hinfo
    rw [BitVec.toNat_setWidth] at hcause
    exact ⟨t, hexec, hstatus, hhalted, hcause, hinfo, by rw [Core.xreq?, hframe.xreqs]; exact hgone⟩
  case far =>
    subst hn
    exact exec_tlbprobe hm hs (if_neg hfar) (.refl s) rfl rfl
  case miss =>
    subst hn hva
    exact exec_tlbprobe hm hs ((if_pos hnear).trans (State.tlbProbe_miss hhit hfind)) (.refl s) rfl rfl
  case hit =>
    subst hn hva
    obtain ⟨hkeep, hops, hid⟩ := s.probed_keeps ((s.reg a).toNat % 8192) hit ((s.reg a).getLsbD 32)
    obtain ⟨t, hexec, hresult, htlbs⟩ := exec_tlbprobe hm hs ((if_pos hnear).trans (State.tlbProbe_hit hhit hfind)) hkeep hops hid
    obtain ⟨hvalid, hl1, hempty, hgone, hsup⟩ := e.probeWord_bits ((s.core ((s.reg a).toNat % 8192)).l1tlb.any hit) ((s.reg a).getLsbD 32)
    obtain ⟨hsize, hzero, hpfn, hcls, hzeros, hxwr⟩ :=
      e.probeWord_fields ((s.core ((s.reg a).toNat % 8192)).l1tlb.any hit) ((s.reg a).getLsbD 32)
    obtain ⟨hremoved, hkept, hothers⟩ := s.tlbs_probed ((s.reg a).toNat % 8192) hit ((s.reg a).getLsbD 32)
    refine ⟨t, _, hexec, hresult, hvalid, hl1, hempty, hgone, hsize, hzero, hpfn, hcls, hzeros, hsup, hxwr, fun hinv => ?_, fun hinv => ?_,
      fun k hk => ?_⟩
    · rw [(htlbs _).1, (htlbs _).2]; exact hremoved hinv
    · rw [(htlbs _).1, (htlbs _).2, hkept hinv]; exact ⟨rfl, rfl⟩
    · rw [(htlbs _).1, (htlbs _).2, hothers k hk]; exact ⟨rfl, rfl⟩

end Sys2Proof.Machine
end

section
/-! SUPPORT. Translation invalidation (04 R94, R95), and the statement of O39. -/

namespace Sys2Proof.Machine

/-! ### At a core (04 R94, R95 step 3) -/

section
variable {s : State} {id u vcid c : Nat} {removed : Bool} {h : Hold}

/-- A core that holds no entry derived from the unit answers at once. -/
theorem exec_translationInvalidation_clean (hf : s.flight? id = some (Flight.mk id h (.tinv u vcid c removed))) (hr : removed = false)
    (hd : (s.core c).derives u = false) : exec (.translationInvalidation id) s = .next ((s.drop id).send (.tinvAck u vcid c)) := by
  show execTranslationInvalidation id s = _
  simp only [execTranslationInvalidation, hf, hr, hd, Bool.not_false, Bool.and_self, if_true]

/-- Any other drops them first, and answers unless it has to wait. -/
theorem exec_translationInvalidation_derived (hf : s.flight? id = some (Flight.mk id h (.tinv u vcid c removed)))
    (hd : removed = true ∨ (s.core c).derives u = true) : exec (.translationInvalidation id) s = .next (
      let t := s.modCore c fun k => k.dropDerived u
      if t.usesSource c u ∧ (t.core c).moving = false then t.setFlight (Flight.mk id h (.tinv u vcid c true))
      else (t.drop id).send (.tinvAck u vcid c)) := by
  have hgo : (!removed && !(s.core c).derives u) = false := by rcases hd with hd | hd <;> simp [hd]
  show execTranslationInvalidation id s = _
  simp only [execTranslationInvalidation, hf, hgo, Bool.false_eq_true, if_false, Bool.not_eq_true']
  split <;> rfl

end

/-- Dropping entries changes neither the accesses of a core nor where they stand. -/
theorem State.usesSource_dropDerived (s : State) (c u : Nat) :
    (s.modCore c fun k => k.dropDerived u).usesSource c u = s.usesSource c u := by
  have hops : ((s.modCore c fun k => k.dropDerived u).core c).ops = (s.core c).ops := by rw [State.core_modCore, if_pos rfl]; rfl
  unfold State.usesSource
  rw [hops]
  rfl

/-! ### At a home (04 R95 steps 4 and 5) -/

/-- A home's record after one has been set. -/
theorem State.home_setHome (s : State) (v u : Nat) (h : HomeUnit) (v' u' : Nat) :
    (s.setHome v u h).home v' u' = if homeKey v' u' = homeKey v u then h else s.home v' u' := by
  unfold State.setHome State.home
  by_cases hr : h = HomeUnit.reset
  · rw [if_pos hr, tget_tdel, hr]
  · rw [if_neg hr, tget_tset]
theorem State.home_modHome (s : State) (v u : Nat) (f : HomeUnit → HomeUnit) (v' u' : Nat) :
    (s.modHome v u f).home v' u' = if homeKey v' u' = homeKey v u then f (s.home v u) else s.home v' u' := s.home_setHome ..
theorem State.home_modHome_same (s : State) (v u : Nat) (f : HomeUnit → HomeUnit) : (s.modHome v u f).home v u = f (s.home v u) := by
  rw [State.home_modHome, if_pos rfl]

theorem State.home_send (s : State) (p : Pkt) (v u : Nat) : (s.send p).home v u = s.home v u := rfl

/-- The units of two caches have records of their own. -/
theorem homeKey_inj {v u v' u' : Nat} (hv : v < 256) (hv' : v' < 256) (h : homeKey v' u' = homeKey v u) : (v', u') = (v, u) := by
  simp only [homeKey] at h
  simp only [Prod.mk.injEq]
  omega

theorem dropFirst_sublist {α : Type} (p : α → Bool) (l : List α) : (dropFirst p l).Sublist l := by
  induction l with
  | nil => exact .slnil
  | cons x l ih =>
    rw [dropFirst]
    split
    · exact List.sublist_cons_self x l
    · exact ih.cons_cons x

/-- No grant is on its way after a message has left when none was before. -/
theorem State.grantInFlight_drop {s : State} {v u : Nat} (id : Nat) (h : s.grantInFlight v u = false) : (s.drop id).grantInFlight v u = false := by
  unfold State.grantInFlight at h ⊢
  rw [List.any_eq_false] at h ⊢
  exact fun f hf => h f ((dropFirst_sublist _ s.net).subset hf)

section
variable {s : State} {v u c key : Nat}

theorem State.finishOwn_idle (hb : (s.home v u).busy = none) : s.finishOwn v u = s := by
  rw [State.finishOwn, hb]

theorem State.finishOwn_waiting {want : Dir} (hb : (s.home v u).busy = some (.own c key want)) (hr : (s.home v u).ready = false) :
    s.finishOwn v u = s := by
  simp only [State.finishOwn, hb, hr, Bool.not_false, Bool.true_or, if_true]

/-- A home that waits for nothing grants its writer the unit, alone. -/
theorem State.finishOwn_grants (hb : (s.home v u).busy = some (.own c key .m)) (hr : (s.home v u).ready = true)
    (hg : s.grantInFlight v u = false) : s.finishOwn v u =
      (s.modHome v u fun h => { h with dir := .m, sharers := [c], tshare := [] }).send
        (.grant u v key c .m ((s.peekVc v u none).under key).data ((s.peekVc v u none).poisonFor key)) := by
  simp only [State.finishOwn, hb, hr, hg, Bool.not_true, Bool.or_self, Bool.false_eq_true, if_false, decide_true, if_true]

end

/-- A home's record when a core has answered that its entries are gone: with the last answer its T-sharers are. -/
def HomeUnit.translationsGone (h : HomeUnit) (c : Nat) : HomeUnit :=
  { h with
    tacks := h.tacks.filter fun x => x != c
    tshare := if h.tacks.filter (fun x => x != c) = [] then [] else h.tshare }

theorem HomeUnit.ready_translationsGone (h : HomeUnit) (c : Nat) :
    (h.translationsGone c).ready = (h.acks.isEmpty && (h.tacks.filter fun x => x != c).isEmpty && !h.snoop) := rfl

/-- TRANSLATION_INVALIDATION_ACK: the home forgets the core, and goes on with the request that it serves. -/
theorem exec_translationInvalidationAck {s : State} {id u vcid c : Nat} {h : Hold}
    (hf : s.flight? id = some (Flight.mk id h (.tinvAck u vcid c))) : exec (.translationInvalidationAck id) s =
      .next (((s.drop id).modHome vcid u fun y => y.translationsGone c).finishOwn vcid u) := by
  show execTranslationInvalidationAck id s = _
  simp only [execTranslationInvalidationAck, hf, List.isEmpty_iff]
  rfl

/-! ### The statement -/

theorem translationSharers : Parts.TranslationSharers := by
  unfold Parts.TranslationSharers
  refine ⟨fun s id u vcid c removed h hf => ⟨fun hr hd => ?clean, fun hd => ?derived⟩, fun s id u vcid c h l hf hl =>
    ⟨fun hb => ?idle, fun k key hb hnil hacks hsnoop hgrant => ?last, fun k key hb hmore => ?more⟩⟩
  case clean => exact ⟨_, exec_translationInvalidation_clean hf hr hd, rfl, fun _ => rfl, rfl⟩
  case derived =>
    have hbytes (p : ByteAt) : (s.modCore c fun k => k.dropDerived u).byteAt p = s.byteAt p := s.byteAt_modCore_of_keeps c _ ⟨rfl, rfl⟩ p
    have hctxs (x : Nat) : (s.modCore c fun k => k.dropDerived u).ctx c x = s.ctx c x := by
      rw [State.ctx, State.core_modCore, if_pos rfl]; rfl
    have hcore : (s.modCore c fun k => k.dropDerived u).core c = (s.core c).dropDerived u := by rw [State.core_modCore, if_pos rfl]
    have hothers (k : Nat) (hk : k ≠ c) : (s.modCore c fun k => k.dropDerived u).core k = s.core k := by rw [State.core_modCore, if_neg hk]
    have hexec := exec_translationInvalidation_derived hf hd
    simp only [State.usesSource_dropDerived, hcore] at hexec
    by_cases hwait : s.usesSource c u = true ∧ (s.core c).moving = false
    · rw [if_pos hwait]
      exact ⟨_, hexec.trans (congrArg _ (if_pos hwait)), congrArg Core.l1tlb hcore, congrArg Core.l2tlb hcore, hothers, hbytes, hctxs, rfl⟩
    · rw [if_neg hwait]
      exact ⟨_, hexec.trans (congrArg _ (if_neg hwait)), congrArg Core.l1tlb hcore, congrArg Core.l2tlb hcore, hothers, hbytes, hctxs, rfl⟩
  case idle =>
    subst hl
    have hhome := (s.drop id).home_modHome_same vcid u fun y => y.translationsGone c
    have hstay := State.finishOwn_idle (by rw [hhome]; exact hb)
    refine ⟨_, (exec_translationInvalidationAck hf).trans (congrArg _ hstay), rfl, hhome, fun v' u' hne hv' hv => ?_, rfl⟩
    rw [State.home_modHome, if_neg fun hkey => hne (homeKey_inj hv hv' hkey)]
    rfl
  case last =>
    have hhome := (s.drop id).home_modHome_same vcid u fun y => y.translationsGone c
    have hready : ((s.home vcid u).translationsGone c).ready = true := by
      rw [HomeUnit.ready_translationsGone, ← hl, hnil, hacks, hsnoop]; rfl
    have hquiet : ((s.drop id).modHome vcid u fun y => y.translationsGone c).grantInFlight vcid u = false := State.grantInFlight_drop id hgrant
    have hgrants := State.finishOwn_grants (by rw [hhome]; exact hb) (by rw [hhome]; exact hready) hquiet
    refine ⟨_, _, _, (exec_translationInvalidationAck hf).trans (congrArg _ hgrants), List.getLast?_concat, ?_⟩
    rw [State.home_send, State.home_modHome_same]
    exact ⟨rfl, rfl, rfl⟩
  case more =>
    subst hl
    have hhome := (s.drop id).home_modHome_same vcid u fun y => y.translationsGone c
    have hready : ((s.home vcid u).translationsGone c).ready = false := by
      rw [HomeUnit.ready_translationsGone, List.isEmpty_eq_false_iff.mpr hmore, Bool.and_false, Bool.false_and]
    have hstay := State.finishOwn_waiting (by rw [hhome]; exact hb) (by rw [hhome]; exact hready)
    refine ⟨_, (exec_translationInvalidationAck hf).trans (congrArg _ hstay), rfl, ?_⟩
    rw [hhome]
    exact if_neg hmore

/-- Settles O39: each instruction and event goes through the lemma above that says what it does. -/
theorem translation : Obligations.Translation := by
  unfold Obligations.Translation
  exact ⟨translationEntries, translationSharers⟩

end Sys2Proof.Machine
end

section
/-! SUPPORT. Refused packets that are sent again (04 R103, 18 R374, R375), and the refutation of O40. -/

namespace Sys2Proof.Machine

/-- A packet that may leave the device leaves by the route that its port chooses, with the detour of that route (18 R374, R375). -/
theorem State.net_transmit (s : State) {dev : Nat} (p : Packet) (hup : s.fabricUp = true) (hin : s.inPartition dev = true) :
    (s.transmit dev p).net = s.net ++ [flying s.nextId (.pktOut { p with via := (s.route dev p).2 } s.clock (s.route dev p).1)] := by
  rw [State.transmit, hup, hin]; rfl

/-- So does a refused packet that is sent again. -/
theorem State.net_resend (s : State) {dev : Nat} {p : Packet} (hdev : dev = p.pa.toNat / 2 ^ 42) (hup : s.fabricUp = true)
    (hin : s.inPartition dev = true) :
    (s.resend p).net = s.net ++ [flying s.nextId (.pktOut { p with via := (s.route dev p).2 } s.clock (s.route dev p).1)] := by
  subst hdev
  exact State.net_transmit _ p hup hin

/-- BACKOFF_RETRY of a refused packet. -/
theorem exec_backoffRetry_packet {s : State} {id n j : Nat} {p : Packet} (hf : s.flight? id = some (Flight.mk id .refused (.pktOut p n j))) :
    exec (.backoffRetry id) s = .next ((s.drop id).resend p) := by
  show execBackoffRetry id s = _
  unfold execBackoffRetry
  rw [hf]; rfl

/-- A packet that has left as it was has taken a route with the detour that it had before. -/
theorem State.via_of_resent_unchanged {s : State} {dev n c i : Nat} {p : Packet} (hdev : dev = p.pa.toNat / 2 ^ 42) (hup : s.fabricUp = true)
    (hin : s.inPartition dev = true) (hnet : (s.resend p).net = s.net ++ [flying n (.pktOut p c i)]) : (s.route dev p).2 = p.via := by
  have hlast := List.append_cancel_left ((s.net_resend hdev hup hin).symm.trans hnet)
  simp only [flying, List.cons.injEq, Flight.mk.injEq, Pkt.pktOut.injEq, and_true, true_and] at hlast
  obtain ⟨-, hpacket, -⟩ := hlast
  exact congrArg Packet.via hpacket

/-- A LOAD of core 3 from device 1, the next device of the module's group. -/
def loadAbroad (tag : Nat) (via : Option Nat) : Packet :=
  { packetOf 0 (2 ^ 42) 8 0 63 0 .tracked 0 0 0 with core := 3, tag := tag, via := via }

/-- A module whose core 3 has two LOADs of one unit unanswered: the first is on its way by a detour past device 2, the second, which took the
minimal route, has been refused and waits to be sent again. -/
def refusedBehindDetour : State :=
  { State.reset with
    dev := { Dev.reset with fabcfg := BitVec.ofNat 64 (3 * 2 ^ 62) }
    nextId := 2
    net := [flying 0 (.pktOut (loadAbroad 0 (some 2)) 0 1), Flight.mk 1 .refused (.pktOut (loadAbroad 1 none) 0 0)] }

/-- Refutes O40 at its clause for refused packets, which has the packet leave as it was refused. The model routes a packet each time that it
is sent: in `refusedBehindDetour` the second LOAD follows the first by its detour (18 R375), which it did not have before. -/
theorem not_pageBlocking : ¬ Obligations.PageBlocking := by
  unfold Obligations.PageBlocking Parts.BlockedAccesses
  rintro ⟨-, -, hretry, -⟩
  have hf : refusedBehindDetour.flight? 1 = some (Flight.mk 1 .refused (.pktOut (loadAbroad 1 none) 0 0)) := rfl
  have hup : refusedBehindDetour.fabricUp = true := by decide
  obtain ⟨t, i, hexec, -, hnet, -⟩ := (hretry _ _ _ hf).2 _ _ _ rfl hup
  rw [exec_backoffRetry_packet hf, Host.Outcome.next.injEq] at hexec
  subst hexec
  have hdev : 1 = (loadAbroad 1 none).pa.toNat / 2 ^ 42 := by decide
  have hroute : ((refusedBehindDetour.drop 1).route 1 (loadAbroad 1 none)).2 = some 2 := by decide
  exact absurd (hroute.symm.trans (State.via_of_resent_unchanged hdev hup (by decide) hnet)) (by decide)

end Sys2Proof.Machine
end

section
/-! SUPPORT. The iteration counter and fences (06 R141, R145, R157, 07 R171, R172), and the statement of O15. -/

namespace Sys2Proof.Machine

/-! ### Instructions that park until they may go on -/

/-- The issuing context parks in the instruction. -/
def State.parkedHere (s : State) : State := s.modMe fun y => { y with st := .parked, wait := .none }

theorem State.parkedHere_moves (s : State) : s.Moves s.parkedHere ∧ s.parkedHere.me.st = .parked ∧ s.parkedHere.me.pc = s.me.pc := by
  have hme : s.parkedHere.me = { s.me with st := .parked, wait := .none } := State.me_modMe ..
  refine ⟨⟨State.onlyMe_modMe .., ?_, fun p _ => State.byteAt_modMe ..⟩, ?_, ?_⟩ <;> rw [hme]
  rfl

/-! ### ITER (06 R157) -/

/-- The core that a write of ITER leaves. -/
theorem State.core_setIter_same (s : State) (c x : Nat) (i : BitVec 16) :
    (s.setIter c x i).core c = { s.core c with ctxs := ((s.setIter c x i).core c).ctxs, l1 := ((s.setIter c x i).core c).l1 } := by
  rw [State.setIter_eq_modCore, State.core_modCore, if_pos rfl]
  dsimp only
  split <;> rfl

/-- A write of ITER keeps every register. -/
theorem State.readDst_setIter (s : State) (c x : Nat) (i : BitVec 16) (e : RegDst) : (s.setIter c x i).readDst c x e = s.readDst c x e := by
  cases e with
  | none => rfl
  | glob j => simp only [State.readDst, State.ctx_setIter_same]
  | ram e => simp only [State.readDst]; rw [State.core_setIter_same]

/-- The copies that a change of ITER keeps are those that its era rule leaves reachable (06 R145). -/
theorem State.mem_l1_setIter (s : State) (c x : Nat) (i : BitVec 16) (hi : i ≠ (s.ctx c x).iter) (cp : Copy) :
    cp ∈ ((s.setIter c x i).core c).l1 ↔
      cp ∈ (s.core c).l1 ∧ ¬ (cp.cls = .stamped ∧ cp.stamp.toNat / 2 ^ 14 = (i.toNat / 2 ^ 14 + 2) % 4) := by
  rw [State.l1_setIter, if_neg hi]
  exact (Core.mem_l1_eraDrop ..).trans (and_congr Iff.rfl Decidable.not_and_iff_or_not.symm)

/-- An instruction that sets ITER waits for the context's STAMPED stores. -/
theorem State.stampedAcked_iff (s : State) : s.stampedAcked = true ↔ ∀ o ∈ s.mine.opsOf s.curCtx, o.stampedWriteOut = false := by
  simp [State.stampedAcked]

theorem State.advanceIter_acked {s : State} {m : Bool} {i : BitVec 16} (h : s.stampedAcked = true) :
    s.advanceIter m i = .next ((s.setIter s.curCore s.curCtx i).retire m) := if_pos h
theorem State.advanceIter_waits {s : State} {m : Bool} {i : BitVec 16} (h : s.stampedAcked = false) :
    s.advanceIter m i = .next s.parkedHere := if_neg (by rw [h]; decide)

/-- itadv and itset set ITER to the sum that they name. -/
theorem exec_setsIter {m : Bool} {a : BitVec 5} {i : BitVec 12} {s : State} {k : Instr} {v : BitVec 16}
    (h : (k, v) ∈ [(Instr.itadv m i, BitVec.ofNat 16 (s.me.iter.toNat + i.toNat)), (.itset m a i, BitVec.ofNat 16 ((s.reg a).toNat + i.toNat))]) :
    exec k s = s.advanceIter m v := by
  simp only [List.mem_cons, Prod.mk.injEq, List.not_mem_nil, or_false] at h
  rcases h with ⟨rfl, rfl⟩ | ⟨rfl, rfl⟩
  · show s.advanceIter m (s.me.iter + i.setWidth 16) = _
    rw [BitVec.ofNat_add, BitVec.ofNat_toNat, BitVec.ofNat_toNat, BitVec.setWidth_eq]
  · show s.advanceIter m ((s.reg a).setWidth 16 + i.setWidth 16) = _
    rw [BitVec.ofNat_add, BitVec.ofNat_toNat, BitVec.ofNat_toNat]

theorem iterationInstructions : Parts.IterationInstructions := by
  unfold Parts.IterationInstructions
  refine fun m d a i => ⟨fun s _ hm => ?itget, fun s hm k v hk => ⟨fun hacked => ?sets, fun ⟨o, ho, hout⟩ => ?waits⟩⟩
  case itget =>
    dsimp only
    rw [BitVec.ofNat_toNat]
    exact s.finish_spec m d (s.me.iter.setWidth 64) hm
  case waits =>
    have hnot : s.stampedAcked = false :=
      Bool.eq_false_iff.mpr fun h => Bool.false_ne_true ((s.stampedAcked_iff.mp h o ho).symm.trans hout)
    exact ⟨_, (exec_setsIter hk).trans (State.advanceIter_waits hnot), s.parkedHere_moves⟩
  case sets =>
    have hexec := (exec_setsIter hk).trans (State.advanceIter_acked (s.stampedAcked_iff.mpr hacked))
    have hme : (s.setIter s.curCore s.curCtx v).me = { s.me with iter := v } := s.ctx_setIter_same ..
    obtain ⟨hmoves, hadv⟩ := State.retire_moves (s.setIter s.curCore s.curCtx v) m fun hmark => by rw [hme]; exact hm hmark
    generalize ht : (s.setIter s.curCore s.curCtx v).retire m = t at hexec hmoves hadv
    have hregs := hmoves.sameRegisters
    obtain ⟨⟨⟨hrest, hothers⟩, hcore, hctxs⟩, hmoved, hbytes⟩ := hmoves
    obtain ⟨hpc, hrep, hst⟩ := hadv
    rw [hme] at hmoved hpc hrep
    have hl1 : t.mine.l1 = ((s.setIter s.curCore s.curCtx v).core s.curCore).l1 := (congrArg Core.l1 hcore).trans rfl
    refine ⟨t, hexec, ⟨hpc, hrep, hst⟩, fun e => (hregs e).trans (s.readDst_setIter ..), ⟨hrest, fun c hc => ?_⟩, fun x hx => ?_,
      fun p => (hbytes p id).trans (s.byteAt_setIter ..), hmoved, ?_, fun hv => ?_, fun hv cp => ?_⟩
    · rw [hothers c hc, s.core_setIter_of_ne _ _ hc]
    · exact (hctxs x hx).trans (s.ctx_setIter_of_ne _ _ hx)
    · rw [hl1]
      exact hcore.trans (congrArg (fun k : Core => { k with ctxs := t.mine.ctxs }) (s.core_setIter_same s.curCore s.curCtx v))
    · rw [hl1, State.l1_setIter]
      exact if_pos hv
    · rw [hl1]; exact s.mem_l1_setIter s.curCore s.curCtx v hv cp

/-! ### Fences (07 R171, R172) -/

section
variable {m : Bool} {c k : BitVec 3} {s : State}

/-- A fence that reports nothing completes when what it waits for has performed, and otherwise parks. -/
theorem exec_fence_waits (hk : k.toNat ≠ 3) (he : s.me.fenceErr = none) :
    exec (.fence m c k) s = .next (if s.fenceDone c.toNat k.toNat then s.retire m else s.parkedHere) := by
  show execFence m c k s = _
  unfold execFence
  simp only [if_neg hk, he, ite_self]
  split <;> rfl

/-- The words that a fence of kind eng names, when its scope asks for them. -/
def State.engMarked (s : State) (scope : Nat) : State := if 2 ≤ scope then s.markWords s.curCore s.curCtx else s
/-- What a fence of kind eng leaves for the engine commands after it. -/
def State.engHeld (s : State) (scope : Nat) (y : Ctx) : Ctx :=
  { y with
    engWait := y.engWait ++ (s.mine.opsOf s.curCtx).map fun o => (o.id, scope == 5)
    engWords := y.engWords || (decide (2 ≤ scope) && s.wordsHeld s.curCore s.curCtx) }

theorem exec_fence_eng (hk : k.toNat = 3) :
    exec (.fence m c k) s = .next (((s.engMarked c.toNat).modMe (s.engHeld c.toNat)).retire m) := by
  show execFence m c k s = _
  unfold execFence
  simp only [if_pos hk]
  rfl

/-- Naming words changes copies and messages only. -/
theorem State.engMarked_keeps (s : State) (scope : Nat) : s.KeepsIssuer (s.engMarked scope) := by
  unfold State.engMarked
  split
  · obtain ⟨issuer, registers, memory⟩ := State.KeepsIssuer.modCore s s.curCore (fun k => { k with
      l1 := mapIf (fun (cp : Copy) => decide (cp.cls = .untracked) && cp.dirty != 0 && cp.writers.contains s.curCtx)
        (fun cp => { cp with writers := addOnce cp.writers (engMark s.curCtx) }) k.l1 }) rfl
    exact ⟨issuer, registers, memory⟩
  · exact .refl s

end

/-- A change of the issuing context that keeps its globals keeps every register. -/
theorem State.readDst_modMe_of_globs (s : State) (f : Ctx → Ctx) (hf : (f s.me).globs = s.me.globs) (e : RegDst) :
    (s.modMe f).readDst s.curCore s.curCtx e = s.readDst s.curCore s.curCtx e := by
  cases e with
  | none => rfl
  | glob j =>
    simp only [State.readDst, State.ctx_modMe, and_self, if_true, hf]
    rfl
  | ram e => simp [State.readDst, State.mine]

theorem fences : Parts.Fences := by
  unfold Parts.Fences
  refine fun m c k s hm => ⟨fun hk he hdone => ?done, fun hk he hdone => ?waits, fun hk => ?eng⟩
  case done => exact ⟨_, (exec_fence_waits hk he).trans (congrArg _ (if_pos hdone)), s.retire_moves m hm⟩
  case waits =>
    have hnot : ¬ s.fenceDone c.toNat k.toNat = true := by rw [hdone]; decide
    exact ⟨_, (exec_fence_waits hk he).trans (congrArg _ (if_neg hnot)), s.parkedHere_moves⟩
  case eng =>
    have hkeep := s.engMarked_keeps c.toNat
    have hexec := exec_fence_eng (m := m) (c := c) (s := s) hk
    rw [State.retire_modMe _ m (s.engHeld c.toNat) (fun _ => rfl) (hkeep.noTrapDue hm)] at hexec
    have hadv := hkeep.advanced (State.advanced_modMe (s.engMarked c.toNat) m (s.engHeld c.toNat) fun _ => rfl)
    generalize hu : s.engMarked c.toNat = u at hexec hadv hkeep
    generalize (m && u.mine.resultsOut u.curCtx) = p at hexec hadv
    obtain ⟨⟨hme, hcore, hctx⟩, hregs, hmem⟩ := hkeep
    have hmoved : (u.modMe fun y => (s.engHeld c.toNat y).retired p).me = (s.engHeld c.toNat s.me).retired p := by
      rw [State.me_modMe, hme]
    have heng : ((s.engHeld c.toNat s.me).retired p).engWait = (s.engHeld c.toNat s.me).engWait := by
      unfold Ctx.retired; split <;> rfl
    refine ⟨_, hexec, hadv, fun e => ?_, fun q => (State.byteAt_modMe ..).trans (hmem q), ?_, fun o ho => ?_⟩
    · have hreg := State.readDst_modMe_of_globs u (fun y => (s.engHeld c.toNat y).retired p) (Ctx.retired_globs ..) e
      rw [hcore, hctx] at hreg
      exact hreg.trans (hregs e)
    · rw [hmoved]
      unfold Ctx.retired
      split <;> rfl
    · rw [hmoved, heng]
      refine List.mem_append_right _ (List.mem_map.mpr ⟨o, ho, rfl⟩)

/-- Settles O15: both parts are shown above. -/
theorem iterationAndFences : Obligations.IterationAndFences := by
  unfold Obligations.IterationAndFences
  exact ⟨iterationInstructions, fences⟩

end Sys2Proof.Machine
end

section
/-! SUPPORT. A unit that two virtual caches hold, and what answering a STAMPED waiter there does to a write at its home (06 R150,
05 R120): the refutations of O41, O42 and O43. -/

namespace Sys2Proof.Machine

/-! ### The state

A write at a home answers the STAMPED waiters of its unit (06 R150). The answer puts a copy into the L1 of the waiter's core; where the set of that
L1 is full, a TRACKED copy in M leaves it for its own home (01 R437), and where the cache there does not hold the unit, its least recently used line
makes room. The statements ask that the cache of the write hold no line. They ask neither that no waiter stand at the unit, nor that no other cache
hold it, nor that the cache of a TRACKED copy hold its line, as 05 R120 has it. Below, the line that leaves is another cache's, dirty, of the unit
as it was before the write, and it overwrites in HBM what the write has just left there. -/

/-- An ACTIVE cache of one bank at core 0: direct mapped, lines of one unit, under a write policy (05 R113, R118). -/
def bankCache (policy : Nat) : Cdr := { Cdr.reset with w0 := BitVec.ofNat 64 (2 * 2 ^ 60 + policy * 2 ^ 42) }
/-- A clean copy of a unit of cache 2. -/
def neighbour (u : Nat) : Copy :=
  { unit := u, vcid := 2, cls := .untracked, key := 0, st := .i, data := 0, stamp := 0, dirty := 0, writers := [], poison := false }
/-- The line in which cache 2 holds unit 0, dirty, as it was: its lowest byte is 1. -/
def staleLine : VLine :=
  { vcid := 2, lay := 0, core := 0, set := 0, li := 0, units := [(0, { data := 1, tag := some 0, stamp := 0, poison := false })], dirty := true }
/-- The lane of an access to the first 4 bytes of unit 0, on a STAMPED page of cache 1. -/
def unitZeroLane (op : LaneOp) : Lane :=
  { ix := 0, va := 0, n := 4, place := .unit 1 .stamped 0 0, op := op, done := false, data := 0, age := none, srcs := [] }
/-- An access of one lane there. -/
def unitZeroOp (op : LaneOp) (f : Fin) : Op := { State.reset.newOp with id := 7, fin := f, lanes := [unitZeroLane op] }
/-- The core of the waiter: its operation 7 is the ldl that waits, and its L1 holds four copies of set 0, of which the least recently used
one is TRACKED and in M. -/
def waitingCore : Core :=
  { Core.reset with
    ops := [unitZeroOp .read (.ldl .none .none 4 false)]
    l1 := [neighbour 64, neighbour 128, neighbour 192, { neighbour 512 with cls := .tracked, st := .m }] }
/-- The core of a STAMPED store of 5: its operation 7. -/
def storingCore : Core := { Core.reset with ops := [unitZeroOp (.write 5 0xFFFFFFFF) .none] }
/-- Unit 0 has a waiter, is in no line of cache 1, which keeps none for a write (NA), and is dirty in cache 2 (WB); message 9 is on its way. -/
def doublyHeld (p : Pkt) : State :=
  { State.reset with
    nextId := 10
    net := [flying 9 p]
    cdrs := [(1, bankCache 2), (2, bankCache 0)]
    vlines := [staleLine]
    homes := [(homeKey 2 512, { HomeUnit.reset with dir := .m, sharers := [3] })]
    stWaiters := [{ home := 0, unit := homeKey 1 0, core := 3, op := 7, remote := none, iter := 0, lag := 0 }]
    cores := [(3, waitingCore), (4, storingCore)] }

/-- A message of a STAMPED store of 5, of an UNTRACKED write-back of 5 in the lowest word, and of the snoop whose answer brings 5. -/
def storeOfFive : Pkt := .stStore 4 7 0
def writeBackOfFive : Pkt := .writeBack 4 [] 0 1 0 1 5 false
def snoopOfFive : Pkt := .bisnp 0 1 true

theorem doublyHeld_noSlot (p : Pkt) : NoSlot (doublyHeld p) 9 := ⟨fun _ h => absurd h List.not_mem_nil, fun _ h => absurd h List.not_mem_nil⟩

/-- Cache 1 holds no line. -/
theorem doublyHeld_lines (p : Pkt) : ∀ l ∈ (doublyHeld p).vlines, l.vcid ≠ 1 := by
  show ∀ l ∈ [staleLine], l.vcid ≠ 1
  decide

/-- At the home under cache 1 the unit is untouched, unless a grant is on its way. -/
theorem doublyHeld_untouched {p : Pkt} (h : (doublyHeld p).grantInFlight 1 0 = false) : Untouched (doublyHeld p) 1 0 where
  home := rfl
  grant := h
  page := rfl
  sets := ⟨rfl, rfl⟩
  agents := ⟨rfl, rfl⟩
  lines := doublyHeld_lines p

/-! ### What the model makes of a write there -/

/-- The data of unit 0 under cache 1 after a step. -/
def dataAfter (o : Out) : Unit128 := match o with
  | .next t => (unitNow t 1 0).data
  | _ => 0

/-- Each of the three writes leaves the older data. -/
theorem dataAfter_store : dataAfter (exec (.stampedStoreAtHome 9) (doublyHeld storeOfFive)) = 1 := by decide +kernel
theorem dataAfter_writeBack : dataAfter (exec (.writeBack 9) (doublyHeld writeBackOfFive)) = 1 := by decide +kernel
theorem dataAfter_snoop : dataAfter (exec (.bisnpResponse 9 (some 5)) (doublyHeld snoopOfFive)) = 1 := by decide +kernel

/-- What a step that goes on has left. -/
theorem data_of_next {o : Out} {t : State} {d : Unit128} (ht : o = .next t) (hd : dataAfter o = d) : (unitNow t 1 0).data = d := by
  rw [ht] at hd
  exact hd

/-! ### The statements -/

/-- Refutes O41 at its last clause: what the host had modified is 5, and the unit has 1. -/
theorem not_trackedRequests : ¬ Obligations.TrackedRequests := by
  unfold Obligations.TrackedRequests
  rintro ⟨-, -, -, -, hsnoop⟩
  have hagents : agents ((doublyHeld snoopOfFive).home 1 0).sharers = [] := rfl
  obtain ⟨t, hexec, -, -, -, -, hdata, -⟩ := (hsnoop (doublyHeld snoopOfFive) 9 0 1 true .flying rfl rfl).2 5 rfl rfl (doublyHeld_lines _)
    fun a ha => by rw [hagents] at ha; exact absurd ha List.not_mem_nil
  exact absurd (hdata.symm.trans (data_of_next hexec dataAfter_snoop)) (by decide +kernel)

/-- Refutes O42 at its clause for stores: the store writes 5 over zeros, and the unit has 1. -/
theorem not_stampedTraffic : ¬ Obligations.StampedTraffic := by
  unfold Obligations.StampedTraffic
  rintro ⟨hhome, -⟩
  obtain ⟨hstore, -⟩ := hhome (doublyHeld storeOfFive) 9 4 4 0 1 0 0 7 (unitZeroOp (.write 5 0xFFFFFFFF) .none) (unitZeroLane (.write 5 0xFFFFFFFF))
    (flying 9 storeOfFive) _ rfl rfl rfl rfl rfl rfl rfl (doublyHeld_noSlot _) (doublyHeld_untouched rfl) (by decide +kernel) (by decide +kernel) rfl
  obtain ⟨t, hexec, -, hdata, -⟩ := hstore 5 0xFFFFFFFF 5 rfl rfl rfl rfl (by decide +kernel)
  exact absurd (hdata.symm.trans (data_of_next hexec dataAfter_store)) (by decide +kernel)

/-- Refutes O43 at its clause for write-backs: the lowest word that is written back is 5, and the unit has 1 there. -/
theorem not_hostAndWriteBack : ¬ Obligations.HostAndWriteBack := by
  unfold Obligations.HostAndWriteBack
  rintro ⟨hback, -⟩
  obtain ⟨t, hexec, -, -, -, hwords⟩ := hback (doublyHeld writeBackOfFive) 9 4 0 1 0 [] 1 5 false rfl (doublyHeld_noSlot _) (doublyHeld_untouched rfl)
  obtain ⟨-, hword⟩ := hwords (by decide)
  have hlowest := hword 0 (by decide)
  rw [data_of_next hexec dataAfter_writeBack] at hlowest
  exact absurd hlowest (by decide +kernel)

end Sys2Proof.Machine
end

section
/-! SUPPORT. Accesses to the TCM behind an element store that has not performed (07 R160, 08 R183): the refutations of O11, O12, O13 and O14. -/

namespace Sys2Proof.Machine

/-! ### The state

An element of an MX block waits for its scale: ste leaves an operation whose element lane has no data yet, and a later access of the context to
local storage may be to its bytes, so the model holds it at issue (`Core.elementOn`). The statements about single accesses to the TCM ask that no
watchpoint match and no acquire be left to perform. They do not ask that no such element store be outstanding, and a held access has neither
performed nor moved on. -/

/-- Context 0 of core 255 with two addresses in the TCM: register 16 points to a block of MX elements in E4M3 at offset 0x100, register 17 to
untyped bytes at offset 0x200. -/
def blockAndBytes : State :=
  ((State.reset.withFetchWord 32 0).setReg 16 0x5D80000000000100).setReg 17 0x0080000000000200
/-- The state after ste of the block's first element. -/
def elementWaiting : State := match exec (.ste false 0 16 0) blockAndBytes with
  | .next t => t
  | _ => blockAndBytes

/-- The state of the issuing context after a step that goes on. -/
def ctxStateAfter (o : Out) : Option CtxState := match o with
  | .next t => some t.me.st
  | _ => none

/-- A load, a store, an element load and an atomic of the bytes at register 17. -/
def bytesAccesses : List Instr := [.ldB false 18 17 0, .stB false 18 17 0, .lde false 18 17 0, .amoadd false 18 17 18 0 0]

/-- Each of them is held behind the element store, although it names other bytes. -/
theorem bytesAccesses_held : ∀ i ∈ bytesAccesses, ctxStateAfter (exec i elementWaiting) = some .held := by decide +kernel

/-- An instruction that completes leaves its context ready or parked, and so one of these does not complete. -/
theorem bytesAccesses_not_advanced {i : Instr} {t : State} {m : Bool} (hi : i ∈ bytesAccesses) (hexec : exec i elementWaiting = .next t) :
    ¬ elementWaiting.Advanced t m := by
  rintro ⟨-, -, hst⟩
  have hheld := bytesAccesses_held i hi
  rw [hexec] at hheld
  rw [Option.some.inj hheld] at hst
  split at hst <;> cases hst

/-! ### What the statements ask -/

theorem elementWaiting_noTrap : elementWaiting.NoTrapDue false := fun h => absurd h Bool.false_ne_true

/-- A byte and 4 bytes at offset 0x200 are aligned bytes of the TCM. -/
theorem tcmAddr_bytes {va : Addr} {n : Nat} (hva : va = 0x80000000000200) (hn : n ∈ [1, 4]) : TcmAddr va (tcmOff va) n := by
  subst hva
  have hfits : ∀ n ∈ [1, 4], tcmOff 0x80000000000200 + n ≤ 0x10000 ∧ tcmOff 0x80000000000200 % n = 0 := by decide
  obtain ⟨htop, haligned⟩ := hfits n hn
  exact ⟨by decide, htop, haligned⟩

/-- No watchpoint is enabled, and the element store is no acquire. -/
theorem elementWaiting_accessFree (va : Addr) (n : Nat) (rd wr : Bool) : elementWaiting.AccessFree va n rd wr where
  watch := by
    have hoff : (elementWaiting.dbgOf (clusterOf elementWaiting.curCore)).bken = false := by decide +kernel
    simp [State.watchHit, hoff]
  acquires := by decide +kernel

theorem elementWaiting_baseOff : baseOff (elementWaiting.reg 17) 0 = 0x80000000000200 := by decide +kernel
theorem elementWaiting_ptrVa : ptrVa (elementWaiting.reg 17) = 0x80000000000200 := by decide +kernel

/-! ### The statements -/

/-- Refutes O11 at st.b: the store is held behind the element store. -/
theorem not_tcmWrites : ¬ Obligations.TcmWrites := by
  unfold Obligations.TcmWrites Parts.TcmStores
  rintro ⟨hstores, -⟩
  obtain ⟨t, hexec, -, hadv, -⟩ := hstores false 18 17 0 0 (.stB false 18 17 0) 1 false (by simp) elementWaiting
    ⟨tcmAddr_bytes elementWaiting_baseOff (by decide), elementWaiting_accessFree .., Bool.false_ne_true.elim⟩ elementWaiting_noTrap
  exact bytesAccesses_not_advanced (by decide) hexec hadv

/-- Refutes O12 at ld.b: the load is held behind the element store. -/
theorem not_tcmReads : ¬ Obligations.TcmReads := by
  unfold Obligations.TcmReads Parts.TcmLoads
  rintro ⟨hloads, -⟩
  obtain ⟨t, o, hexec, -, hadv, -⟩ := hloads false 18 17 0 0 (.ldB false 18 17 0) 1 true false (by simp) elementWaiting
    ⟨tcmAddr_bytes elementWaiting_baseOff (by decide), elementWaiting_accessFree .., Bool.false_ne_true.elim⟩ elementWaiting_noTrap
  exact bytesAccesses_not_advanced (by decide) hexec hadv

/-- Refutes O13 at lde of an untyped byte: the element load is held behind the element store. -/
theorem not_elementAccesses : ¬ Obligations.ElementAccesses := by
  unfold Obligations.ElementAccesses
  intro h
  obtain ⟨haccesses, -⟩ := h false 18 17 0
  obtain ⟨hload, -⟩ := haccesses 1 (fun s => ptrVa (s.reg 17) + BitVec.ofInt 56 ((1 : Nat) * (0 : BitVec 12).toInt)) fun _ => rfl
  have hva : ptrVa (elementWaiting.reg 17) + BitVec.ofInt 56 ((1 : Nat) * (0 : BitVec 12).toInt) = 0x80000000000200 := by
    rw [elementWaiting_ptrVa]; decide
  have hfmt : ptrFmt (elementWaiting.reg 17) = 0 ∧ ptrBlog (elementWaiting.reg 17) = 0 := by decide +kernel
  obtain ⟨t, o, hexec, -, hadv, -⟩ := hload elementWaiting
    ⟨by rw [hfmt.1]; decide, hfmt.2, by rw [hfmt.1]; rfl, tcmAddr_bytes hva (by decide), elementWaiting_accessFree ..,
      Nat.mod_one _, by rw [hfmt.1]; decide⟩ elementWaiting_noTrap
  exact bytesAccesses_not_advanced (by decide) hexec hadv

/-- Refutes O14 at amoadd of 4 bytes: the atomic is held behind the element store. -/
theorem not_atomics : ¬ Obligations.Atomics := by
  unfold Obligations.Atomics Parts.TcmAtomics
  rintro ⟨hatomics, -⟩
  obtain ⟨hnamed, -⟩ := hatomics false 18 17 18 0 0 elementWaiting 4 _ elementWaiting_noTrap rfl rfl (absurd · (by decide)) (absurd · (by decide))
  obtain ⟨hamo, -⟩ := hnamed (tcmAddr_bytes elementWaiting_ptrVa (by decide)) (elementWaiting_accessFree ..)
  obtain ⟨t, hexec, hadv, -⟩ := hamo (.amoadd false 18 17 18 0 0) 0 (by simp)
  exact bytesAccesses_not_advanced (by decide) hexec hadv

end Sys2Proof.Machine
end

section
/-! SUPPORT. A prefetch through a TLB entry whose frame lies beyond 56-bit physical addresses (04 R91, 18 R376), and the refutation of O16. -/

namespace Sys2Proof.Machine

/-- A STAMPED page whose frame number has a bit above the 44 that an entry's image has (04 R91): device 3, and 2^56 beyond. -/
def beyondPa : TlbEnt :=
  { vpn := 0x100, size := 0, pfn := 2 ^ 44 + 3 * 2 ^ 30 + 0x10, xwr := 7, sup := false, cls := .stamped, vcid := 1, domain := 0, key := 0, srcs := [] }
/-- The physical address of its first byte. -/
def beyondAddr : Nat := 2 ^ 56 + 3 * 2 ^ 42 + 0x10000
/-- Context 0 of core 255 with the page's address in register 16; the page's cache is ACTIVE and permits every class. -/
def translatesBeyond : State :=
  { ((State.reset.withFetchWord 32 0).setReg 16 0x100000).modCore 255 fun k => { k with l1tlb := [beyondPa] } with
    cdrs := [(1, { Cdr.reset with w0 := BitVec.ofNat 64 (2 ^ 63 + 2 * 2 ^ 60 + 7 * 2 ^ 37) })] }
/-- The state after the lookup that hits the entry. -/
def lookedUp : State := (translatesBeyond.tlb 255 0 true 0x100000).2

/-- A result is read off its option. -/
theorem eq_ok_of_toOption {ε α : Type} {r : Except ε α} {a : α} (h : r.toOption = some a) : r = .ok a := by
  cases r with
  | ok b => exact congrArg Except.ok (Option.some.inj h)
  | error e => exact absurd h.symm (Option.some_ne_none a)

/-- The devices that the unanswered packets after a step went to. -/
def devicesAfter (o : Out) : List Nat := match o with
  | .next t => t.fabReqs.map FabReq.dev
  | _ => []

/-- The LOAD that pref sends has the low 56 bits of the address, and goes to device 3. -/
theorem devicesAfter_pref_beyond : devicesAfter (exec (.pref false 16 0) translatesBeyond) = [3] := by decide +kernel

/-- Refutes O16 at the prefetch of a STAMPED unit of another device. The frame number of a TLB entry has no bound in the model, and the statement
asks none: it has the LOAD go to the device that bits 42 and above of the address name, and the address of a packet ends at bit 55. -/
theorem not_hintsAndMaintenance : ¬ Obligations.HintsAndMaintenance := by
  unfold Obligations.HintsAndMaintenance Parts.PrefetchFetches
  rintro ⟨-, hfetches, -⟩
  have hhit : translatesBeyond.tlb translatesBeyond.curCore translatesBeyond.mine.domain (decide (translatesBeyond.me.mode = .supervisor))
      (baseOff (translatesBeyond.reg 16) 0).toNat = (some beyondPa, lookedUp) := by decide +kernel
  have hremote : lookedUp.checkEnt lookedUp.mine.domain (decide (translatesBeyond.me.mode = .supervisor)) .read beyondPa
      (baseOff (translatesBeyond.reg 16) 0) = .ok (.remote beyondPa beyondAddr) := eq_ok_of_toOption (by decide +kernel)
  obtain ⟨-, hload, -⟩ := hfetches false 16 0 translatesBeyond lookedUp _ beyondPa _ (fun h => absurd h Bool.false_ne_true) rfl (by decide +kernel)
    hhit rfl
  obtain ⟨t, q, f, hexec, -, -, -, -, -, -, -, -, hreqs, -, -, -, hdev⟩ :=
    hload beyondAddr hremote rfl (by decide +kernel) (by decide +kernel) (by decide +kernel) (by decide +kernel)
  have hnone : lookedUp.fabReqs = [] := by decide +kernel
  have hsent := devicesAfter_pref_beyond
  rw [hexec, devicesAfter, hreqs, hnone, List.nil_append, List.map_singleton, hdev] at hsent
  exact absurd hsent (by decide)

end Sys2Proof.Machine
end

section
/-! SUPPORT. ce.start of a block in the TCM behind an element store that has not performed (07 R160, 08 R183, 09 R204), and the refutation of O36. -/

namespace Sys2Proof.Machine

/-- An instruction that completes leaves its context ready or parked: one that holds its context has not completed. -/
theorem not_advanced_of_held {i : Instr} {s t : State} {m : Bool} (hheld : ctxStateAfter (exec i s) = some .held) (hexec : exec i s = .next t) :
    ¬ s.Advanced t m := by
  rintro ⟨-, -, hst⟩
  rw [hexec] at hheld
  rw [Option.some.inj hheld] at hst
  split at hst <;> cases hst

/-! What ce.start meets in `elementWaiting`: a block of zeros at offset 0x200 of the TCM and an idle channel. No fence, no acquire and no block
that it has read before is left; the element store is. -/

theorem elementWaiting_engineFree : EngineFree elementWaiting := by unfold EngineFree; decide +kernel
theorem elementWaiting_keptNow : elementWaiting.me.keptNow = none := by decide +kernel
theorem elementWaiting_noBlock : ∀ o ∈ elementWaiting.mine.opsOf elementWaiting.curCtx, o.fin ≠ .block := by decide +kernel
theorem elementWaiting_block : blockWords (elementWaiting.mine.tcm.read (tcmOff (ptrVa (elementWaiting.reg 17))) 64) = List.replicate 8 0 := by
  decide +kernel
theorem elementWaiting_idle : (elementWaiting.channel (32 * clusterOf elementWaiting.curCore + fld (elementWaiting.reg 0) 0 5)).busy = false := by
  decide +kernel

/-- The block's bytes are aligned bytes of the TCM, clear of the element that is waited for. -/
theorem elementWaiting_blockAddr : TcmAddr (ptrVa (elementWaiting.reg 17)) (tcmOff (ptrVa (elementWaiting.reg 17))) 64 := by
  rw [elementWaiting_ptrVa]
  exact ⟨by decide, by decide, by decide⟩

/-- The read of the block is held behind the element store, and ce.start with it. -/
theorem ceStart_held : ctxStateAfter (exec (.ceStart false 17 0) elementWaiting) = some .held := by decide +kernel

/-- Refutes O36 at its clause for ce.start of a block in the TCM at an idle channel. The block is read as a load of the context (09 R204), and
the model holds an access to local storage while an element store of the context waits for its scale, which the clause does not exclude: in
`elementWaiting` the command has not started and the context has not moved on. -/
theorem not_copyEngine : ¬ Obligations.CopyEngine := by
  unfold Obligations.CopyEngine Parts.CopyInstructions
  rintro ⟨hinstructions, -⟩
  obtain ⟨-, hfirst, -⟩ := hinstructions false 17 0 elementWaiting _ _ _ _ elementWaiting_noTrap rfl rfl rfl
  obtain ⟨-, hread⟩ := hfirst elementWaiting_keptNow elementWaiting_engineFree
  obtain ⟨-, hchecked⟩ := hread elementWaiting_blockAddr (elementWaiting_accessFree ..) elementWaiting_noBlock rfl
  rw [elementWaiting_block] at hchecked
  obtain ⟨-, hplain⟩ := hchecked (.inl (by decide))
  obtain ⟨hidle, -⟩ := hplain (by decide)
  obtain ⟨t, hexec, hadv, -⟩ := hidle elementWaiting_idle
  exact not_advanced_of_held ceStart_held hexec hadv

end Sys2Proof.Machine
end

section
/-! SUPPORT. Repetition bodies (10 R226, R227) and the storage behind windowed names (10 R213), and the statement of O7. -/

namespace Sys2Proof.Machine

/-! ### Positions in a body (10 R227) -/

section
variable {y : Ctx} {r : RepRun}

theorem Ctx.nextPos_outside (h : y.rep = none) : y.nextPos = (y.pc + 4, none) := by rw [Ctx.nextPos, h]
theorem Ctx.nextPos_within (h : y.rep = some r) (hpos : r.pos + 1 < r.len) :
    y.nextPos = (y.pc + 4, some { r with pos := r.pos + 1 }) := by
  simp only [Ctx.nextPos, h, if_pos hpos]
theorem Ctx.nextPos_nextPass (h : y.rep = some r) (hpos : ¬ r.pos + 1 < r.len) (hpass : r.pass + 1 < r.count) :
    y.nextPos = (r.base, some { r with pos := 0, pass := r.pass + 1 }) := by
  simp only [Ctx.nextPos, h, if_neg hpos, if_pos hpass]
theorem Ctx.nextPos_leaves (h : y.rep = some r) (hpos : ¬ r.pos + 1 < r.len) (hpass : ¬ r.pass + 1 < r.count) :
    y.nextPos = (y.pc + 4, none) := by
  simp only [Ctx.nextPos, h, if_neg hpos, if_neg hpass]

end

/-- The address of instruction k of a body; that of instruction LEN is the one behind it. -/
def RepRun.addr (r : RepRun) (k : Nat) : Addr := r.base + BitVec.ofNat 56 (4 * k)

theorem RepRun.addr_zero (r : RepRun) : r.addr 0 = r.base := BitVec.add_zero _
theorem RepRun.addr_succ (r : RepRun) (k : Nat) : r.addr (k + 1) = r.addr k + 4 := by
  rw [RepRun.addr, RepRun.addr, BitVec.add_assoc, Nat.mul_succ, BitVec.ofNat_add]; rfl

/-- A context stands at instruction k of pass p of a repetition. -/
structure Ctx.InBody (y : Ctx) (r : RepRun) (p k : Nat) : Prop where
  rep : y.rep = some { r with pos := k, pass := p }
  pc : y.pc = r.addr k

theorem Ctx.InBody.within {y : Ctx} {r : RepRun} {p k : Nat} (h : y.InBody r p k) (hk : k + 1 < r.len) : y.advance.InBody r p (k + 1) := by
  have hnext := Ctx.nextPos_within h.rep hk
  exact ⟨congrArg Prod.snd hnext, by rw [Ctx.advance_pc, hnext, h.pc, RepRun.addr_succ]⟩
theorem Ctx.InBody.nextPass {y : Ctx} {r : RepRun} {p k : Nat} (h : y.InBody r p k) (hk : k + 1 = r.len) (hp : p + 1 < r.count) :
    y.advance.InBody r (p + 1) 0 := by
  have hnext := Ctx.nextPos_nextPass h.rep (by dsimp only; omega) hp
  exact ⟨congrArg Prod.snd hnext, by rw [Ctx.advance_pc, hnext, RepRun.addr_zero]⟩
theorem Ctx.InBody.leaves {y : Ctx} {r : RepRun} {p k : Nat} (h : y.InBody r p k) (hk : k + 1 = r.len) (hp : p + 1 = r.count) :
    y.advance.rep = none ∧ y.advance.pc = r.addr r.len := by
  have hnext := Ctx.nextPos_leaves h.rep (by dsimp only; omega) (by dsimp only; omega)
  exact ⟨congrArg Prod.snd hnext, by rw [Ctx.advance_pc, hnext, h.pc, ← hk, RepRun.addr_succ]⟩

/-- Counting one on: the quotient stays and the remainder rises, until the remainder has reached its last value. -/
theorem divMod_succ {n len : Nat} (hlen : 0 < len) :
    n % len + 1 < len ∧ (n + 1) / len = n / len ∧ (n + 1) % len = n % len + 1 ∨
      n % len + 1 = len ∧ (n + 1) / len = n / len + 1 ∧ (n + 1) % len = 0 := by
  have hsplit := Nat.mod_add_div n len
  rcases Nat.lt_or_eq_of_le (Nat.mod_lt n hlen : n % len + 1 ≤ len) with hlt | heq
  · exact .inl ⟨hlt, (Nat.div_mod_unique hlen).mpr ⟨by omega, hlt⟩⟩
  · exact .inr ⟨heq, (Nat.div_mod_unique hlen).mpr ⟨by rw [Nat.mul_succ]; omega, hlen⟩⟩

/-- After n instructions, with more to run, a context stands at position n mod LEN of pass n / LEN. -/
theorem Ctx.InBody.repeat {y : Ctx} {r : RepRun} (h : y.InBody r 0 0) (hlen : 0 < r.len) (n : Nat) (hn : n < r.len * r.count) :
    (Nat.repeat Ctx.advance n y).InBody r (n / r.len) (n % r.len) := by
  induction n with
  | zero => rwa [Nat.zero_div, Nat.zero_mod]
  | succ n ih =>
    have hbody := ih (Nat.lt_of_succ_lt hn)
    rcases divMod_succ (n := n) hlen with ⟨hk, hdiv, hmod⟩ | ⟨hk, hdiv, hmod⟩
    · rw [hdiv, hmod]
      exact hbody.within hk
    · have hpass : (n + 1) / r.len < r.count := Nat.div_lt_of_lt_mul hn
      rw [hdiv] at hpass
      rw [hdiv, hmod]
      exact hbody.nextPass hk hpass

theorem repetitionCounts : Parts.RepetitionCounts := by
  unfold Parts.RepetitionCounts
  intro y r hrep hpos hpass hlen hcount hpc
  have hstart : y.InBody r 0 0 := ⟨by obtain ⟨⟩ := r; cases hpos; cases hpass; exact hrep, by rw [hpc, RepRun.addr_zero]⟩
  refine ⟨fun n hn => ?_, ?_⟩
  · obtain ⟨hrep, hpc⟩ := hstart.repeat hlen n hn
    exact ⟨hrep, hpc⟩
  · obtain ⟨n, htotal⟩ : ∃ n, r.len * r.count = n + 1 := Nat.exists_eq_add_one.mpr (Nat.mul_pos hlen hcount)
    have hlast := hstart.repeat hlen n (by omega)
    have hdiv : (n + 1) / r.len = r.count := by rw [← htotal, Nat.mul_div_cancel_left _ hlen]
    have hmod : (n + 1) % r.len = 0 := by rw [← htotal, Nat.mul_mod_right]
    rw [htotal]
    rcases divMod_succ (n := n) hlen with ⟨-, -, hmod'⟩ | ⟨hk, hdiv', -⟩
    · omega
    · exact hlast.leaves hk (by omega)

/-! ### Names (10 R213, R227) -/

theorem rotatedNames : Parts.RotatedNames := by
  unfold Parts.RotatedNames
  refine fun y f => ⟨fun h => by rw [Ctx.rotated, h], fun r h => ?_⟩
  simp only [Ctx.rotated, h, Nat.lt_succ_iff]

/-- An entry of a ring lies in it. -/
theorem Ctx.ringAt_bounds (y : Ctx) (h : 0 < y.ringN) (d : Int) : y.rslo.toNat ≤ y.ringAt d ∧ y.ringAt d < y.rshi.toNat := by
  have hlo := Int.emod_nonneg d (Int.ne_of_gt h)
  have hhi := Int.emod_lt_of_pos d h
  unfold Ctx.ringAt
  have hsize : y.ringN = (y.rshi.toNat : Int) - y.rslo.toNat := rfl
  omega

/-- Distances that lead to one entry differ by a multiple of the ring's size. -/
theorem Ctx.dvd_of_ringAt_eq {y : Ctx} (h : 0 < y.ringN) {d e : Int} (heq : y.ringAt d = y.ringAt e) : y.ringN ∣ d - e := by
  have hd := Int.emod_nonneg d (Int.ne_of_gt h)
  have he := Int.emod_nonneg e (Int.ne_of_gt h)
  unfold Ctx.ringAt at heq
  have hmod : d % y.ringN = e % y.ringN := by omega
  exact Int.dvd_of_emod_eq_zero (Int.emod_eq_emod_iff_emod_sub_eq_zero.mp hmod)

/-- In a ring within the register RAM a windowed name stands for an entry of the ring. -/
theorem Ctx.slot_eq_ringAt {y : Ctx} (h : 0 < y.ringN) (hram : y.rshi.toNat ≤ 4096) (i : Nat) :
    y.slot i = y.ringAt ((y.base.toNat : Int) - y.rslo.toNat + i - 8) := by
  obtain ⟨-, hhi⟩ := y.ringAt_bounds h ((y.base.toNat : Int) - y.rslo.toNat + i - 8)
  rw [Ctx.slot, if_neg (by omega), Nat.mod_eq_of_lt (by omega)]

theorem windowNamesDiffer : Parts.WindowNamesDiffer := by
  unfold Parts.WindowNamesDiffer
  intro y i j hring hram hi hi' hj hj'
  have hpos : 0 < y.ringN := by omega
  rw [Ctx.slot_eq_ringAt hpos hram, Ctx.slot_eq_ringAt hpos hram]
  refine ⟨fun heq => ?_, y.ringAt_bounds hpos _⟩
  have hdvd := Ctx.dvd_of_ringAt_eq hpos heq
  have hzero := Int.eq_zero_of_dvd_of_natAbs_lt_natAbs hdvd (by omega)
  omega

/-! ### Words of code in the TCM (01 R19, 03 R62) -/

theorem State.localPlace_tcm (s : State) (c : Nat) (sup : Bool) {va : Addr} {off n : Nat} (write atomic : Bool)
    (hva : va.toNat = 2 ^ 55 + off) (htop : off + n ≤ 0x10000) (hn : 0 < n) : s.localPlace c sup va n write atomic = .ok (.tcm c off) := by
  have hoff : va.toNat - 2 ^ 55 = off := by omega
  unfold State.localPlace State.coreWindow
  simp only [hoff]
  rw [if_pos (by omega), if_pos htop]

/-- What follows an action that answers. -/
theorem bind_ok {α β : Type} {a : M α} {s t : State} {x : α} (h : a s = .ok (x, t)) (k : α → M β) : (a >>= k) s = k x t := by
  show (a s).bind _ = _
  rw [h]; rfl
/-- What follows a value that is read off the state. -/
theorem bind_getM {α β : Type} {f : State → α} {s : State} (x : α) (h : f s = x) (k : α → M β) : (getM f >>= k) s = k x s :=
  bind_ok (congrArg (fun x => Except.ok (x, s)) h) k

/-- Nothing of the issuing core's own TCM is waited for before a read. -/
theorem windowGuard_tcm (s : State) (n off : Nat) : windowGuard .read n (.tcm s.curCore off) s = .ok ((), s) := by
  have hfree : s.placeHeld (.tcm s.curCore off) n = false := by simp [State.placeHeld, State.placeCore, State.scratchAt]
  unfold windowGuard
  rw [bind_getM false hfree]
  rfl

/-- A read of a lane in a core's TCM brings the bytes there. -/
theorem State.data_storageLane_tcm (s : State) {l : Lane} {c off : Nat} (hplace : l.place = .tcm c off) :
    (s.storageLane l).2.data = BitVec.ofNat 512 ((s.core c).tcm.read off l.n) := by
  rw [State.storageLane, hplace]; rfl

/-- The lane of a fetch from the TCM of the issuing core. -/
def State.fetchLane (s : State) (va : Addr) (off : Nat) : Lane :=
  { ix := 0, va := va, n := 4, place := .tcm s.curCore off, op := .read, done := false, data := 0, age := none, srcs := [] }
theorem State.fetchLane_place (s : State) (va : Addr) (off : Nat) : (s.fetchLane va off).place = .tcm s.curCore off := rfl

theorem fetchM_tcm (s : State) {va : Addr} {off : Nat} (hva : va.toNat = 2 ^ 55 + off) (htop : off + 4 ≤ 0x10000) :
    fetchM va s = .ok (BitVec.ofNat 32 (s.mine.tcm.read off 4), s) := by
  have hbit : va.toNat / 2 ^ 55 % 2 = true.toNat := by rw [Bool.toNat_true]; omega
  have hlocal : va.getLsbD 55 = true := getLsbD_of_div_mod hbit
  have hplace := s.localPlace_tcm s.curCore (decide (s.me.mode = .supervisor)) false false hva htop (by decide)
  calc fetchM va s
    _ = (pure ((s.storageLane (s.fetchLane va off)).2.data.setWidth 32) : M (BitVec 32)) s := by
      unfold fetchM
      rw [if_pos hlocal, bind_getM (.ok (.tcm s.curCore off))]
      · exact bind_ok (windowGuard_tcm s 4 off) _
      · exact hplace
    _ = .ok (BitVec.ofNat 32 (s.mine.tcm.read off 4), s) := by
      rw [State.data_storageLane_tcm s (s.fetchLane_place va off), BitVec.setWidth_ofNat_of_le (by decide)]
      rfl

/-- The words of a body of n instructions at an offset of the issuing core's TCM. -/
def State.bodyWords (s : State) (off n : Nat) : List (BitVec 32) :=
  (List.range n).map fun i => BitVec.ofNat 32 (s.mine.tcm.read (off + 4 * i) 4)

theorem State.bodyWords_succ (s : State) (off n : Nat) :
    s.bodyWords off (n + 1) = BitVec.ofNat 32 (s.mine.tcm.read off 4) :: s.bodyWords (off + 4) n := by
  rw [State.bodyWords, List.range_succ_eq_map, List.map_cons, List.map_map]
  refine congrArg _ (List.map_congr_left fun i _ => ?_)
  rw [Function.comp_apply, Nat.mul_succ, Nat.add_comm (4 * i), Nat.add_assoc]

theorem State.length_bodyWords (s : State) (off n : Nat) : (s.bodyWords off n).length = n := by
  rw [State.bodyWords, List.length_map, List.length_range]
theorem State.getElem?_bodyWords (s : State) (off : Nat) {n i : Nat} (hi : i < n) :
    (s.bodyWords off n)[i]? = some (BitVec.ofNat 32 (s.mine.tcm.read (off + 4 * i) 4)) := by
  rw [State.bodyWords, List.getElem?_map, List.getElem?_range hi]; rfl

/-- The address behind an instruction in the TCM. -/
theorem toNat_add_four {va : Addr} {off : Nat} (hva : va.toNat = 2 ^ 55 + off) (htop : off + 4 ≤ 0x10000) :
    (va + 4).toNat = 2 ^ 55 + (off + 4) := by
  have hfour : (4 : Addr).toNat = 4 := rfl
  rw [BitVec.toNat_add, hva, hfour]
  omega

/-- The buffer takes the words of a body in the TCM, and nothing else changes (10 R227). -/
theorem bodyM_tcm {s : State} (hf : s.me.fetched = []) (n : Nat) {va : Addr} {off : Nat} (hva : va.toNat = 2 ^ 55 + off)
    (htop : off + 4 * n ≤ 0x10000) : bodyM va n s = .ok (s.bodyWords off n, s) := by
  induction n generalizing va off with
  | zero => rfl
  | succ n ih =>
    have hnone : (s.me.fetched.find? fun p => p.1 == va.toNat) = none := by rw [hf]; rfl
    unfold bodyM
    rw [bind_getM none hnone]
    dsimp only
    rw [bind_ok (fetchM_tcm s hva (by omega)), bind_ok (ih (toNat_add_four hva (by omega)) (by omega)), State.bodyWords_succ]
    rfl

/-! ### rep (10 R226, R227) -/

/-- A context parked for its outstanding results, or as it is. -/
def Ctx.marked (y : Ctx) (parked : Bool) : Ctx := if parked then { y with st := .parked, wait := .marker } else y
/-- A context that goes on behind rep, at the first instruction of the first pass. -/
def Ctx.startRep (y : Ctx) (r : RepRun) : Ctx := { y.advance with rep := some r }

theorem Ctx.marked_startRep (y : Ctx) (r : RepRun) (p : Bool) :
    (y.startRep r).marked p = y.At ((y.startRep r).marked p) ∧ ((y.startRep r).marked p).pc = y.nextPos.1 ∧
      ((y.startRep r).marked p).rep = some r ∧ ((y.startRep r).marked p).globs = y.globs := by
  cases p <;> exact ⟨rfl, rfl, rfl, rfl⟩

/-- A park that ends at once leaves a context that is ready and waits for nothing as it is. -/
theorem Ctx.endPark_ready {y : Ctx} (hst : y.st = .ready) (hwait : y.wait = .none) :
    { y with st := if y.st = .halted then .halted else .ready, wait := .none } = y := by
  obtain ⟨⟩ := y
  cases hst
  cases hwait
  rfl

/-- The marker's park of a context that has completed an instruction when no trap is due. -/
theorem State.park_modMe (s : State) {m : Bool} (f : Ctx → Ctx) (hm : s.NoTrapDue m) (htrap : ∀ y, (f y).ptrap = y.ptrap)
    (hst : ∀ y, (f y).st = .ready) (hwait : ∀ y, (f y).wait = .none) :
    (if m then (s.modMe f).park s.curCore s.curCtx else s.modMe f) =
      s.modMe fun y => (f y).marked (m && s.mine.resultsOut s.curCtx) := by
  cases m with
  | false => rfl
  | true =>
    have hout : ((s.modMe f).core s.curCore).resultsOut s.curCtx = s.mine.resultsOut s.curCtx := by
      rw [State.core_modMe, if_pos rfl, Core.resultsOut_setCtx]
    have hnone : ((s.modMe f).ctx s.curCore s.curCtx).ptrap = none := by
      rw [State.ctx_modMe, if_pos ⟨rfl, rfl⟩, htrap, hm rfl]
    rw [if_pos rfl, State.park, hout, Bool.true_and]
    cases s.mine.resultsOut s.curCtx with
    | true => exact State.modMe_modMe s f _
    | false =>
      simp only [Bool.false_eq_true, if_false, State.endPark, hnone]
      exact (State.modMe_modMe s f _).trans (congrArg s.modMe (funext fun y => Ctx.endPark_ready (hst y) (hwait y)))

/-- The repetition that rep starts with the words of its body. -/
def State.repRun (s : State) (l : BitVec 4) (k : BitVec 3) (c : BitVec 12) (words : List (BitVec 32)) : RepRun :=
  { base := s.me.pc + 4, len := l.toNat + 1, count := c.toNat + 1, stride := k.toNat, pos := 0, pass := 0, buf := words }

/-- rep outside a body, when the words of its body can be had. -/
theorem exec_rep {s : State} {m : Bool} {l : BitVec 4} {words : List (BitVec 32)} (k : BitVec 3) (c : BitVec 12) (hm : s.NoTrapDue m)
    (hrep : s.me.rep = none) (hbody : bodyM (s.me.pc + 4) (l.toNat + 1) s = .ok (words, s)) :
    exec (.rep m l k c) s =
      .next (s.modMe fun y => (y.startRep (s.repRun l k c words)).marked (m && s.mine.resultsOut s.curCtx)) := by
  rw [← State.park_modMe s (fun y => y.startRep (s.repRun l k c words)) hm (fun _ => rfl) (fun _ => rfl) (fun _ => rfl)]
  show execRep m l k c s = _
  have hgo : noRepM s = .ok ((), s) := by rw [noRepM, hrep]; rfl
  unfold execRep runM
  rw [bind_ok hgo, bind_getM (s.me.pc + 4) rfl, bind_ok hbody]
  rfl

theorem repStarts : Parts.RepStarts := by
  unfold Parts.RepStarts
  intro m l k c s off hm hrep hf hpc htop
  have hbody := bodyM_tcm hf (l.toNat + 1) (toNat_add_four hpc (by omega)) (by omega)
  obtain ⟨hat, hnext, hrun, hglobs⟩ := s.me.marked_startRep (s.repRun l k c (s.bodyWords (off + 4) (l.toNat + 1)))
    (m && s.mine.resultsOut s.curCtx)
  rw [Ctx.nextPos_outside hrep] at hnext
  refine ⟨_, exec_rep k c hm hrep hbody, State.onlyMe_modMe .., State.readDst_modMe_of_globs _ _ hglobs, fun p => State.byteAt_modMe .., ?_⟩
  rw [State.me_modMe]
  exact ⟨hat, hnext, _, hrun, rfl, rfl, rfl, rfl, rfl, rfl, State.length_bodyWords .., fun i hi => State.getElem?_bodyWords _ _ hi⟩

/-- Settles O7: the four parts are shown above. -/
theorem repetition : Obligations.Repetition := by
  unfold Obligations.Repetition
  exact ⟨repStarts, repetitionCounts, rotatedNames, windowNamesDiffer⟩

end Sys2Proof.Machine
end

section
/-! SUPPORT. What reset leaves (24 R413): a table with nothing listed has its reset value under every key. -/

namespace Sys2Proof.Machine

@[simp] theorem State.core_reset (c : Nat) : State.reset.core c = Core.reset := rfl
@[simp] theorem State.ctx_reset (c x : Nat) : State.reset.ctx c x = Ctx.reset x := rfl
@[simp] theorem State.cdr_reset (v : Nat) : State.reset.cdr v = Cdr.reset := rfl
@[simp] theorem State.queue_reset (q : Nat) : State.reset.queue q = Queue.reset := rfl
@[simp] theorem Core.tile_reset (t : Nat) : Core.reset.tile t = Tile.reset := rfl

/-- The rings of the eleven contexts fit the fields of WB, RSLO and RSHI (10 R214, R215). -/
theorem Ctx.ring_reset {x : Nat} (hx : x < 11) :
    (Ctx.reset x).low.toNat = 368 * x ∧ (Ctx.reset x).base.toNat = 368 * x ∧ (Ctx.reset x).rslo.toNat = 368 * x ∧
      (Ctx.reset x).rshi.toNat = 368 * x + 368 := by
  have hlo : (BitVec.ofNat 12 (368 * x)).toNat = 368 * x := Nat.mod_eq_of_lt (by omega)
  have hhi : (BitVec.ofNat 13 (368 * x + 368)).toNat = 368 * x + 368 := Nat.mod_eq_of_lt (by omega)
  exact ⟨hlo, hlo, hlo, hhi⟩

/-- Settles O56: the rings of the contexts are computed above, and each other value stands in the reset value of its table. -/
theorem resetState : Obligations.ResetState := by
  unfold Obligations.ResetState
  refine ⟨fun c x hx => ?contexts, fun c => ?cores, fun v => ?records, fun q => ?queues, rfl, rfl, rfl, rfl, rfl, fun i => rfl⟩
  case contexts =>
    obtain ⟨hlow, hbase, hlo, hhi⟩ := Ctx.ring_reset hx
    rw [State.ctx_reset]
    exact ⟨rfl, rfl, hlow, hbase, hlo, hhi, rfl, rfl, rfl, rfl, rfl, rfl, rfl, rfl, rfl, rfl, rfl, rfl, rfl, rfl⟩
  case cores =>
    rw [State.core_reset]
    exact ⟨rfl, rfl, rfl, rfl, rfl, rfl, rfl, rfl, fun t => by rw [Core.tile_reset]; exact ⟨rfl, rfl⟩⟩
  case records =>
    rw [State.cdr_reset]
    exact ⟨rfl, rfl, rfl⟩
  case queues =>
    rw [State.queue_reset]
    exact ⟨rfl, rfl, rfl, rfl, rfl, rfl⟩

end Sys2Proof.Machine
end

section
/-! SUPPORT. The integer instructions (11 R234, R235, R238): what completing with a value leaves, the values that their tables give, and the
statement of O2. -/

namespace Sys2Proof.Machine

/-! ### Results of fixed latency -/

/-- An instruction that completes with a value writes it, where the value is the statement's. -/
theorem scalarResultIf_of_finish {P : State → Prop} {i : Instr} {m : Bool} {d : BitVec 5} {v : State → Word}
    (h : ∀ s, P s → exec i s = s.finish m d (v s)) : ScalarResultIf P i m d v := by
  intro s hs hm
  rw [h s hs]
  exact s.finish_spec m d (v s) hm

/-- The same in every state, with the value as the model computes it and as the table says it. -/
theorem scalarResult_of_value {i : Instr} {m : Bool} {d : BitVec 5} {w v : State → Word} (h : ∀ s, exec i s = s.finish m d (w s))
    (hv : ∀ s, w s = v s) : ScalarResult i m d v :=
  scalarResultIf_of_finish fun s _ => (h s).trans (congrArg (s.finish m d) (hv s))

/-! ### Values: arithmetic and shifts -/

section
variable {n : Nat} (x y : BitVec n)

theorem add_eq_ofInt (i : Int) : x + BitVec.ofInt n i = BitVec.ofInt n (x.toInt + i) := by
  rw [BitVec.ofInt_add, BitVec.ofInt_toInt]
theorem sub_eq_ofInt : x - y = BitVec.ofInt n (x.toInt - y.toInt) := by
  rw [Int.sub_eq_add_neg, BitVec.ofInt_add, BitVec.ofInt_neg, BitVec.ofInt_toInt, BitVec.ofInt_toInt, BitVec.sub_eq_add_neg]
theorem mul_eq_ofInt : x * y = BitVec.ofInt n (x.toInt * y.toInt) := by
  rw [BitVec.ofInt_mul, BitVec.ofInt_toInt, BitVec.ofInt_toInt]

theorem shiftLeft_eq_ofNat (k : Nat) : x <<< k = BitVec.ofNat n (x.toNat * 2 ^ k) := by
  apply BitVec.eq_of_toNat_eq
  rw [BitVec.toNat_shiftLeft, Nat.shiftLeft_eq, BitVec.toNat_ofNat]
theorem ushiftRight_eq_ofNat (k : Nat) : x >>> k = BitVec.ofNat n (x.toNat / 2 ^ k) := by
  rw [← Nat.shiftRight_eq_div_pow, ← BitVec.toNat_ushiftRight, BitVec.ofNat_toNat, BitVec.setWidth_eq]
theorem sshiftRight_eq_ofInt (k : Nat) : x.sshiftRight k = BitVec.ofInt n (x.toInt / 2 ^ k) := by
  have hpow : ((2 ^ k : Nat) : Int) = 2 ^ k := Int.natCast_pow 2 k
  rw [BitVec.sshiftRight, Int.shiftRight_eq_div_pow, hpow]
theorem setWidth_setWidth_eq_ofNat {k : Nat} : (x.setWidth k).setWidth n = BitVec.ofNat n (x.toNat % 2 ^ k) := by
  rw [← BitVec.toNat_setWidth, BitVec.ofNat_toNat]

end

theorem shiftOf_eq (b : Word) : shiftOf b = b.toNat % 64 := BitVec.toNat_setWidth ..

/-- An immediate stands for its value. -/
theorem toInt_imm64 (i : BitVec 15) : (imm64 i).toInt = i.toInt := BitVec.toInt_signExtend_of_le (by decide)

/-! ### Values: comparisons -/

theorem boolWord_decide (p : Prop) [Decidable p] : boolWord (decide p) = if p then 1 else 0 := by
  unfold boolWord
  by_cases h : p <;> simp [h]

/-- The operand that the model takes is the lesser or the greater one. -/
theorem wordMin_slt (x y : Word) : wordMin BitVec.slt x y = BitVec.ofInt 64 (min x.toInt y.toInt) := by
  simp only [wordMin, BitVec.slt_iff_toInt_lt]
  split
  · rw [Int.min_eq_right (by omega), BitVec.ofInt_toInt]
  · rw [Int.min_eq_left (by omega), BitVec.ofInt_toInt]
theorem wordMax_slt (x y : Word) : wordMax BitVec.slt x y = BitVec.ofInt 64 (max x.toInt y.toInt) := by
  simp only [wordMax, BitVec.slt_iff_toInt_lt]
  split
  · rw [Int.max_eq_right (by omega), BitVec.ofInt_toInt]
  · rw [Int.max_eq_left (by omega), BitVec.ofInt_toInt]
theorem wordMin_ult (x y : Word) : wordMin BitVec.ult x y = BitVec.ofNat 64 (min x.toNat y.toNat) := by
  simp only [wordMin, BitVec.ult_iff_toNat_lt]
  split
  · rw [Nat.min_eq_right (by omega), BitVec.ofNat_toNat, BitVec.setWidth_eq]
  · rw [Nat.min_eq_left (by omega), BitVec.ofNat_toNat, BitVec.setWidth_eq]
theorem wordMax_ult (x y : Word) : wordMax BitVec.ult x y = BitVec.ofNat 64 (max x.toNat y.toNat) := by
  simp only [wordMax, BitVec.ult_iff_toNat_lt]
  split
  · rw [Nat.max_eq_right (by omega), BitVec.ofNat_toNat, BitVec.setWidth_eq]
  · rw [Nat.max_eq_left (by omega), BitVec.ofNat_toNat, BitVec.setWidth_eq]

theorem integerRegisterResults : Parts.IntegerRegisterResults := by
  unfold Parts.IntegerRegisterResults
  intro m d a b
  exact ⟨scalarResult_of_value (fun _ => rfl) fun _ => BitVec.add_def ..,
    scalarResult_of_value (fun _ => rfl) fun _ => sub_eq_ofInt ..,
    scalarResult_of_value (fun _ => rfl) fun _ => rfl,
    scalarResult_of_value (fun _ => rfl) fun _ => rfl,
    scalarResult_of_value (fun _ => rfl) fun _ => rfl,
    scalarResult_of_value (fun _ => rfl) fun _ => rfl,
    scalarResult_of_value (fun _ => rfl) fun _ => rfl,
    scalarResult_of_value (fun _ => rfl) fun _ => by rw [shiftOf_eq, shiftLeft_eq_ofNat],
    scalarResult_of_value (fun _ => rfl) fun _ => by rw [shiftOf_eq, ushiftRight_eq_ofNat],
    scalarResult_of_value (fun _ => rfl) fun _ => by rw [shiftOf_eq, sshiftRight_eq_ofInt],
    scalarResult_of_value (fun _ => rfl) fun _ => by rw [shiftOf_eq],
    scalarResult_of_value (fun _ => rfl) fun _ => by rw [shiftOf_eq],
    scalarResult_of_value (fun _ => rfl) fun _ => boolWord_decide _,
    scalarResult_of_value (fun _ => rfl) fun _ => boolWord_decide _,
    scalarResult_of_value (fun _ => rfl) fun _ => wordMin_slt ..,
    scalarResult_of_value (fun _ => rfl) fun _ => wordMax_slt ..,
    scalarResult_of_value (fun _ => rfl) fun _ => wordMin_ult ..,
    scalarResult_of_value (fun _ => rfl) fun _ => wordMax_ult ..⟩

/-! ### Values: counts of bits and the order of bytes -/

/-- Leading zeros: none of the low n bits is set, or the count leads to the highest one that is. -/
theorem clzFrom_spec (x : Word) (n : Nat) :
    (clzFrom x n = n ∧ ∀ i, i < n → x.getLsbD i = false) ∨
      clzFrom x n < n ∧ x.getLsbD (n - 1 - clzFrom x n) = true ∧ ∀ i, n - 1 - clzFrom x n < i → i < n → x.getLsbD i = false := by
  induction n with
  | zero => exact .inl ⟨rfl, fun i hi => absurd hi (Nat.not_lt_zero i)⟩
  | succ n ih =>
    rw [clzFrom]
    cases hbit : x.getLsbD n with
    | true => exact .inr ⟨by simp, by simpa using hbit, fun i hlo hhi => by simp only [if_true] at hlo; omega⟩
    | false =>
      have hlow (i : Nat) (hi : i < n + 1) (h : i < n → x.getLsbD i = false) : x.getLsbD i = false := by
        rcases Nat.lt_succ_iff_lt_or_eq.mp hi with hlt | heq
        · exact h hlt
        · rw [heq, hbit]
      simp only [Bool.false_eq_true, if_false]
      have hpos : n + 1 - 1 - (1 + clzFrom x n) = n - 1 - clzFrom x n := by omega
      rw [hpos]
      rcases ih with ⟨hall, hzero⟩ | ⟨hlt, hone, hzero⟩
      · exact .inl ⟨by omega, fun i hi => hlow i hi (hzero i)⟩
      · exact .inr ⟨by omega, hone, fun i hlo hi => hlow i hi (hzero i hlo)⟩

/-- Trailing zeros: none of n bits from bit i on is set, or the count leads to the lowest one that is. -/
theorem ctzFrom_spec (x : Word) (i n : Nat) :
    (ctzFrom x i n = n ∧ ∀ j, i ≤ j → j < i + n → x.getLsbD j = false) ∨
      ctzFrom x i n < n ∧ x.getLsbD (i + ctzFrom x i n) = true ∧ ∀ j, i ≤ j → j < i + ctzFrom x i n → x.getLsbD j = false := by
  induction n generalizing i with
  | zero => exact .inl ⟨rfl, fun j hlo hhi => by omega⟩
  | succ n ih =>
    rw [ctzFrom]
    cases hbit : x.getLsbD i with
    | true => exact .inr ⟨by simp, by simpa using hbit, fun j hlo hhi => by simp only [if_true] at hhi; omega⟩
    | false =>
      have hhigh (j : Nat) (hj : i ≤ j) (h : i + 1 ≤ j → x.getLsbD j = false) : x.getLsbD j = false := by
        rcases Nat.eq_or_lt_of_le hj with heq | hlt
        · rw [← heq, hbit]
        · exact h hlt
      simp only [Bool.false_eq_true, if_false]
      rw [← Nat.add_assoc i 1]
      rcases ih (i + 1) with ⟨hall, hzero⟩ | ⟨hlt, hone, hzero⟩
      · exact .inl ⟨by omega, fun j hlo hhi => hhigh j hlo fun hj => hzero j hj (by omega)⟩
      · exact .inr ⟨by omega, hone, fun j hlo hhi => hhigh j hlo fun hj => hzero j hj hhi⟩

/-- A word that is not zero has a bit that is set. -/
theorem not_all_bits_false {x : Word} (hx : x ≠ 0) (h : ∀ i, i < 64 → x.getLsbD i = false) : False :=
  hx (BitVec.eq_of_getLsbD_eq fun i hi => (h i hi).trans BitVec.getLsbD_zero.symm)

theorem clzFrom_of_ne_zero {x : Word} (hx : x ≠ 0) : clzFrom x 64 < 64 ∧ x.getLsbD (63 - clzFrom x 64) = true ∧
    ∀ i, 63 - clzFrom x 64 < i → x.getLsbD i = false := by
  rcases clzFrom_spec x 64 with ⟨-, hzero⟩ | ⟨hlt, hone, hzero⟩
  · exact (not_all_bits_false hx hzero).elim
  · refine ⟨hlt, hone, fun i hi => ?_⟩
    by_cases h : i < 64
    · exact hzero i hi h
    · exact BitVec.getLsbD_of_ge x i (Nat.le_of_not_lt h)

theorem ctzFrom_of_ne_zero {x : Word} (hx : x ≠ 0) : ctzFrom x 0 64 < 64 ∧ x.getLsbD (ctzFrom x 0 64) = true ∧
    ∀ i, i < ctzFrom x 0 64 → x.getLsbD i = false := by
  rcases ctzFrom_spec x 0 64 with ⟨-, hzero⟩ | ⟨hlt, hone, hzero⟩
  · exact (not_all_bits_false hx fun i hi => hzero i (Nat.zero_le i) (by omega)).elim
  · rw [Nat.zero_add] at hone hzero
    exact ⟨hlt, hone, fun i hi => hzero i (Nat.zero_le i) hi⟩

/-- The bits that are counted are those that are set. -/
theorem popcount_eq_length (x : Word) (n : Nat) : popcount x.toNat n = ((List.range n).filter fun i => x.getLsbD i).length := by
  induction n with
  | zero => rfl
  | succ n ih =>
    have hbit : bitsOf x.toNat n 1 = (x.getLsbD n).toNat := by
      rw [bitsOf, BitVec.getLsbD, Nat.toNat_testBit, Nat.shiftRight_eq_div_pow, Nat.pow_one]
    rw [popcount, ih, hbit, List.range_succ, List.filter_append, List.length_append]
    cases h : x.getLsbD n <;> simp [h]

/-- Byte i of the swapped word is byte 7 - i of the word. -/
theorem extractLsb'_byteSwap (x : Word) {i : Nat} (hi : i < 8) :
    (byteSwap x).extractLsb' (8 * i) 8 = x.extractLsb' (8 * (7 - i)) 8 := by
  apply BitVec.eq_of_getLsbD_eq
  intro j hj
  simp only [byteSwap, BitVec.getLsbD_extractLsb', BitVec.getLsbD_append, hj, decide_true, Bool.true_and]
  have hbyte : i = 0 ∨ i = 1 ∨ i = 2 ∨ i = 3 ∨ i = 4 ∨ i = 5 ∨ i = 6 ∨ i = 7 := by omega
  rcases hbyte with rfl | rfl | rfl | rfl | rfl | rfl | rfl | rfl
  all_goals
    simp (disch := omega) only [if_pos, if_neg, decide_eq_true, Bool.true_and]
    congr 1
    omega

theorem integerUnaryResults : Parts.IntegerUnaryResults := by
  unfold Parts.IntegerUnaryResults
  intro m d a
  exact ⟨⟨fun x => clzFrom x 64, scalarResult_of_value (fun _ => rfl) fun _ => rfl, by decide, fun _ => clzFrom_of_ne_zero⟩,
    ⟨fun x => ctzFrom x 0 64, scalarResult_of_value (fun _ => rfl) fun _ => rfl, by decide, fun _ => ctzFrom_of_ne_zero⟩,
    scalarResult_of_value (fun _ => rfl) fun _ => congrArg _ (popcount_eq_length ..),
    ⟨byteSwap, scalarResult_of_value (fun _ => rfl) fun _ => rfl, fun x _ => extractLsb'_byteSwap x⟩,
    scalarResult_of_value (fun _ => rfl) fun _ => rfl,
    scalarResult_of_value (fun _ => rfl) fun _ => rfl,
    scalarResult_of_value (fun _ => rfl) fun _ => rfl,
    scalarResult_of_value (fun _ => rfl) fun _ => setWidth_setWidth_eq_ofNat _,
    scalarResult_of_value (fun _ => rfl) fun _ => setWidth_setWidth_eq_ofNat _,
    scalarResult_of_value (fun _ => rfl) fun _ => setWidth_setWidth_eq_ofNat _⟩

theorem integerImmediateResults : Parts.IntegerImmediateResults := by
  unfold Parts.IntegerImmediateResults
  intro m d a i n
  exact ⟨scalarResult_of_value (fun _ => rfl) fun _ => add_eq_ofInt ..,
    scalarResult_of_value (fun _ => rfl) fun _ => rfl,
    scalarResult_of_value (fun _ => rfl) fun _ => rfl,
    scalarResult_of_value (fun _ => rfl) fun _ => rfl,
    scalarResult_of_value (fun _ => rfl) fun _ => by rw [← toInt_imm64 i]; exact boolWord_decide _,
    scalarResult_of_value (fun _ => rfl) fun _ => boolWord_decide _,
    scalarResult_of_value (fun _ => rfl) fun _ => shiftLeft_eq_ofNat ..,
    scalarResult_of_value (fun _ => rfl) fun _ => ushiftRight_eq_ofNat ..,
    scalarResult_of_value (fun _ => rfl) fun _ => sshiftRight_eq_ofInt ..⟩

theorem multiplyResults : Parts.MultiplyResults := by
  unfold Parts.MultiplyResults
  intro m d a b
  exact ⟨scalarResult_of_value (fun _ => rfl) fun _ => mul_eq_ofInt ..,
    scalarResult_of_value (fun _ => rfl) fun _ => rfl,
    scalarResult_of_value (fun _ => rfl) fun _ => rfl,
    scalarResult_of_value (fun _ => rfl) fun _ => rfl⟩

/-- Settles O2: the value that each instruction computes is that of its table, and completing with it changes nothing else. -/
theorem scalarResults : Obligations.ScalarResults := by
  unfold Obligations.ScalarResults
  exact ⟨integerRegisterResults, integerUnaryResults, integerImmediateResults, multiplyResults⟩

end Sys2Proof.Machine
end

section
/-! SUPPORT. Words of instructions by the numbers of their fields (03 R62, R63), and the statement of O1. -/

namespace Sys2Proof

/-! ### Words by their fields (03 R62, R63) -/

theorem toNat_append_add {n k : Nat} (x : BitVec n) (y : BitVec k) : (x ++ y).toNat = x.toNat * 2 ^ k + y.toNat := by
  rw [BitVec.toNat_append, ← Nat.shiftLeft_add_eq_or_of_lt y.isLt, Nat.shiftLeft_eq]

/-- The word of an instruction by its segments. -/
theorem Fields.toWord_eq_ofNat (f : Fields) : f.toWord = BitVec.ofNat 32 (f.m.toNat * 2 ^ 31 + f.maj.toNat * 2 ^ 25 + f.x.toNat * 2 ^ 20 +
    f.y.toNat * 2 ^ 15 + f.z.toNat * 2 ^ 10 + f.fn.toNat) := by
  have hword : f.toWord.toNat = f.m.toNat * 2 ^ 31 + f.maj.toNat * 2 ^ 25 + f.x.toNat * 2 ^ 20 + f.y.toNat * 2 ^ 15 + f.z.toNat * 2 ^ 10 +
      f.fn.toNat := by
    simp only [Fields.toWord, toNat_append_add, BitVec.toNat_ofBool]
    omega
  rw [← hword, BitVec.ofNat_toNat, BitVec.setWidth_eq]

/-- A field of 15 bits takes the last two segments, and one of 20 bits the last three. -/
theorem toNat_eq_segments_15 (o : BitVec 15) : o.toNat = (o.extractLsb' 10 5).toNat * 2 ^ 10 + (o.extractLsb' 0 10).toNat := by
  rw [← toNat_append_add, Laws.RoundTrip.seg1]
theorem toNat_eq_segments_20 (u : BitVec 20) :
    u.toNat = (u.extractLsb' 15 5).toNat * 2 ^ 15 + (u.extractLsb' 10 5).toNat * 2 ^ 10 + (u.extractLsb' 0 10).toNat := by
  have hjoin := congrArg BitVec.toNat (Laws.RoundTrip.seg3 u)
  rw [toNat_append_add, toNat_append_add] at hjoin
  omega

/-- Format U (03 R63): a 20-bit field under a register. -/
theorem decode_formatU {i : Instr} (m : Bool) (maj : BitVec 6) (d : BitVec 5) (u : BitVec 20)
    (hi : encodeWord i = Fields.toWord ⟨m, maj, d, u.extractLsb' 15 5, u.extractLsb' 10 5, u.extractLsb' 0 10⟩)
    (hdec : decode (encodeWord i) = .ok i) :
    decode (BitVec.ofNat 32 (m.toNat * 2 ^ 31 + maj.toNat * 2 ^ 25 + d.toNat * 2 ^ 20 + u.toNat)) = .ok i := by
  rw [← hdec, hi, Fields.toWord_eq_ofNat, toNat_eq_segments_20 u, ← Nat.add_assoc, ← Nat.add_assoc]

/-- Format B (03 R63): a 15-bit field under two registers. -/
theorem decode_formatB {i : Instr} (m : Bool) (maj : BitVec 6) (a b : BitVec 5) (o : BitVec 15)
    (hi : encodeWord i = Fields.toWord ⟨m, maj, a, b, o.extractLsb' 10 5, o.extractLsb' 0 10⟩)
    (hdec : decode (encodeWord i) = .ok i) :
    decode (BitVec.ofNat 32 (m.toNat * 2 ^ 31 + maj.toNat * 2 ^ 25 + a.toNat * 2 ^ 20 + b.toNat * 2 ^ 15 + o.toNat)) = .ok i := by
  rw [← hdec, hi, Fields.toWord_eq_ofNat, toNat_eq_segments_15 o, ← Nat.add_assoc]

end Sys2Proof

namespace Sys2Proof.Machine

/-! ### lui and lua (11 R236) -/

/-- A field above 12 zero bits is worth 4,096 times as much. -/
theorem signExtend_append_zero (u : BitVec 20) : (u ++ 0#12).signExtend 64 = BitVec.ofInt 64 (u.toInt * 4096) := by
  rw [BitVec.signExtend, BitVec.toInt_append_zero, Int.mul_comm]
  rfl

/-- A field takes the place of the 20 bits that a shift has cleared. -/
theorem shiftLeft_or_setWidth (w : Word) (u : BitVec 20) : w <<< 20 ||| u.setWidth 64 = BitVec.ofNat 64 (w.toNat * 2 ^ 20 + u.toNat) := by
  have happart : w <<< 20 &&& u.setWidth 64 = 0#64 := by
    apply BitVec.eq_of_getLsbD_eq
    intro i hi
    rw [BitVec.getLsbD_and, BitVec.getLsbD_shiftLeft, BitVec.getLsbD_setWidth, BitVec.getLsbD_zero]
    by_cases h : i < 20
    · simp [h]
    · simp [BitVec.getLsbD_of_ge u i (Nat.le_of_not_lt h)]
  rw [← BitVec.add_eq_or_of_and_eq_zero _ _ happart, shiftLeft_eq_ofNat, ← BitVec.ofNat_toNat, ← BitVec.ofNat_add]

/-- Settles O1: the two words are of format U, and the field's values are computed above. -/
theorem constants : Obligations.Constants := by
  unfold Obligations.Constants
  intro m d u
  exact ⟨decode_formatU m 0x09 d u rfl (Laws.RoundTrip.lui m d u rfl rfl), decode_formatU m 0x0A d u rfl (Laws.RoundTrip.lua m d u rfl rfl),
    scalarResult_of_value (fun _ => rfl) fun _ => signExtend_append_zero u,
    scalarResult_of_value (fun _ => rfl) fun s => shiftLeft_or_setWidth (s.reg d) u⟩

end Sys2Proof.Machine
end

section
/-! SUPPORT. Division (11 R238, R239): the results, the start in the core's divider, its completion, and the statement of O3. -/

namespace Sys2Proof.Machine

/-! ### Results (11 R238) -/

/-- The one signed quotient that is out of range is that of the least dividend by -1. -/
theorem tdiv_eq_two_pow_63_iff (a b : Word) : a.toInt.tdiv b.toInt = 2 ^ 63 ↔ a.toInt = -2 ^ 63 ∧ b.toInt = -1 := by
  constructor
  · intro h
    have hlo : -2 ^ 63 ≤ a.toInt := BitVec.le_toInt a
    have hhi : a.toInt < 2 ^ 63 := BitVec.toInt_lt
    have hnat : a.toInt.natAbs / b.toInt.natAbs = 2 ^ 63 := by
      have habs := congrArg Int.natAbs h
      rwa [Int.natAbs_tdiv] at habs
    have hmul : 2 ^ 63 * b.toInt.natAbs ≤ a.toInt.natAbs := by rw [← hnat]; exact Nat.div_mul_le_self ..
    have hb : b.toInt.natAbs ≠ 0 := fun h0 => by rw [h0, Nat.div_zero] at hnat; omega
    have ha : a.toInt = -2 ^ 63 := by omega
    refine ⟨ha, ?_⟩
    have hcases : b.toInt = 1 ∨ b.toInt = -1 := by omega
    rcases hcases with h1 | h1
    · rw [ha, h1] at h; exact absurd h (by decide)
    · exact h1
  · rintro ⟨ha, hb⟩
    rw [ha, hb]; rfl

theorem quotS_eq (a b : Word) : quotS a b = divisionResult true false a b := by
  simp only [quotS, divisionResult, tdiv_eq_two_pow_63_iff, if_true, Bool.false_eq_true, if_false]
  split
  · by_cases ha : a.toInt < 0
    · rw [if_neg (by omega), if_pos ha]; rfl
    · rw [if_pos (by omega), if_neg ha]; rfl
  · rfl
theorem remS_eq (a b : Word) : remS a b = divisionResult true true a b := by
  simp only [remS, divisionResult, if_true, Int.tmod_def, Int.mul_comm]
theorem quotU_eq (a b : Word) : quotU a b = divisionResult false false a b := rfl
theorem remU_eq (a b : Word) : remU a b = divisionResult false true a b := rfl

/-! ### The start (11 R239) -/

/-- The four divisions, with what each writes. -/
theorem exec_division {m sg rm : Bool} {d a b : BitVec 5} {i : Instr}
    (hi : (i, sg, rm) ∈ [(Instr.divq m d a b, true, false), (.divqz m d a b, false, false), (.divr m d a b, true, true),
      (.divrz m d a b, false, true)]) (s : State) : exec i s = s.divide m d (divisionResult sg rm (s.reg a) (s.reg b)) := by
  simp only [List.mem_cons, List.not_mem_nil, or_false, Prod.mk.injEq] at hi
  rcases hi with ⟨rfl, rfl, rfl⟩ | ⟨rfl, rfl, rfl⟩ | ⟨rfl, rfl, rfl⟩ | ⟨rfl, rfl, rfl⟩
  · exact congrArg (s.divide m d) (quotS_eq ..)
  · exact congrArg (s.divide m d) (quotU_eq ..)
  · exact congrArg (s.divide m d) (remS_eq ..)
  · exact congrArg (s.divide m d) (remU_eq ..)

theorem State.divide_idle {s : State} (m : Bool) (d : BitVec 5) (w : Word) (h : s.mine.divider = none) :
    s.divide m d w = .next (s.startDivision m d w) := by
  rw [State.divide, h]; rfl

/-- The issuing context is held at its instruction. -/
def State.heldHere (s : State) : State := s.modMe fun y => { y with st := .held, wait := .none }

theorem State.divide_busy {s : State} (m : Bool) (d : BitVec 5) (w : Word) (h : s.mine.divider.isSome) :
    s.divide m d w = .next s.heldHere := if_pos h

theorem State.heldHere_moves (s : State) : s.Moves s.heldHere ∧ s.heldHere.me.st = .held ∧ s.heldHere.me.pc = s.me.pc ∧
    s.heldHere.me.seq = s.me.seq := by
  have hme : s.heldHere.me = { s.me with st := .held, wait := .none } := State.me_modMe ..
  refine ⟨⟨State.onlyMe_modMe .., ?_, fun p _ => State.byteAt_modMe ..⟩, ?_, ?_, ?_⟩ <;> rw [hme]
  rfl

/-! ### The completion (11 R239) -/

section
variable (s : State) (c : Nat) (f : Core → Core)

/-- A change of a core that keeps its contexts keeps every context. -/
theorem State.ctx_modCore_of_ctxs (hctxs : (f (s.core c)).ctxs = (s.core c).ctxs) (k x : Nat) : (s.modCore c f).ctx k x = s.ctx k x := by
  simp only [State.ctx, State.core_modCore]
  split
  · next h => rw [h, Core.ctx, hctxs]; rfl
  · rfl

/-- One that keeps its register RAM as well keeps every register. -/
theorem State.readDst_modCore_of_ram (hctxs : (f (s.core c)).ctxs = (s.core c).ctxs) (hram : (f (s.core c)).ram = (s.core c).ram)
    (k x : Nat) (e : RegDst) : (s.modCore c f).readDst k x e = s.readDst k x e := by
  cases e with
  | none => rfl
  | glob j => simp only [State.readDst, State.ctx_modCore_of_ctxs s c f hctxs]
  | ram e =>
    simp only [State.readDst, State.core_modCore]
    split
    · next h => rw [hram, h]
    · rfl

end

section
variable (s : State) (c x : Nat) (d : RegDst) (w : Word)

/-- What a register write changes of its core. -/
theorem State.core_writeDst_same : (s.writeDst c x d w).core c =
    { s.core c with ctxs := ((s.writeDst c x d w).core c).ctxs, ram := ((s.writeDst c x d w).core c).ram } := by
  cases d with
  | none => rfl
  | ram e => simp [State.writeDst, Core.setRam]
  | glob j => simp [State.writeDst, Core.setCtx]
theorem State.core_writeDst_of_ne {k : Nat} (h : k ≠ c) : (s.writeDst c x d w).core k = s.core k := by
  cases d <;> simp [State.writeDst, h]
theorem State.ctx_writeDst_of_ne {y : Nat} (h : y ≠ x) : (s.writeDst c x d w).ctx c y = s.ctx c y := by
  cases d <;> simp [State.writeDst, State.ctx, h]
theorem State.wait_writeDst : ((s.writeDst c x d w).ctx c x).wait = (s.ctx c x).wait := by
  cases d <;> simp [State.writeDst, State.ctx]
theorem State.writeDst_rest : s.writeDst c x d w = { s with cores := (s.writeDst c x d w).cores } := by
  cases d <;> rfl

end

/-- A core whose divider is free. -/
def Core.freeDivider (k : Core) : Core := { k with divider := none }

/-- The state after a division has written its result. -/
def State.divided (s : State) (c id : Nat) (o : Op) (d : RegDst) (w : Word) : State :=
  ((s.modCore c Core.freeDivider).writeDst c o.ctx d w).delOp c id

/-- Nothing follows from an operation that leaves a context that waits for nothing. -/
theorem State.settle_of_wait_none {s : State} {c x : Nat} (h : (s.ctx c x).wait = .none) : s.settle c x = s := by
  rw [State.settle, h]

theorem Core.id_of_op? {k : Core} {id : Nat} {o : Op} (h : k.op? id = some o) : o.id = id := by
  simpa using List.find?_some h

theorem exec_divideComplete {s : State} {c id : Nat} {o : Op} {d : RegDst} {w : Word} (hdiv : (s.core c).divider = some id)
    (hop : (s.core c).op? id = some o) (hfin : o.fin = .ready [.scalar d w]) (hdue : ∀ n, o.due = some n → n ≤ s.clock)
    (hwait : (s.ctx c o.ctx).wait = .none) (hdep : (s.core c).depAt ≠ some s.clock) :
    exec (.divideComplete c) s = .next (s.divided c id o d w) := by
  have hidle : ((s.divided c id o d w).ctx c o.ctx).wait = .none := by
    rw [State.divided, State.delOp, State.ctx_modCore_of_ctxs _ _ _ rfl, State.wait_writeDst, State.ctx_modCore_of_ctxs _ _ _ rfl, hwait]
  have hwrite : (s.modCore c Core.freeDivider).writeReady c o [.scalar d w] = s.divided c id o d w := by
    rw [State.writeReady, Core.id_of_op? hop]
    exact State.settle_of_wait_none hidle
  rw [← hwrite]
  show execDivideComplete c s = _
  simp only [execDivideComplete, if_neg hdep, hdiv, hop, hfin]
  cases h : o.due with
  | none => rfl
  | some n => exact if_neg (by simpa using hdue n h)

section
variable (s : State) (c id : Nat) (o : Op) (d : RegDst) (w : Word)

theorem State.readDst_divided (e : RegDst) :
    (s.divided c id o d w).readDst c o.ctx e = if e = d ∧ d ≠ .none then w else s.readDst c o.ctx e := by
  rw [State.divided, State.delOp, State.readDst_modCore_of_ram _ _ _ rfl rfl, State.readDst_writeDst, State.readDst_modCore_of_ram _ _ _ rfl rfl]
theorem State.core_divided : (s.divided c id o d w).core c = { s.core c with
    ctxs := ((s.divided c id o d w).core c).ctxs, ram := ((s.divided c id o d w).core c).ram, divider := none
    ops := dropFirst (fun p => p.id == id) (s.core c).ops } := by
  simp only [State.divided, State.delOp, State.core_modCore, if_true]
  rw [State.core_writeDst_same]
  simp only [State.core_modCore, if_true]
  rfl
theorem State.core_divided_of_ne {k : Nat} (h : k ≠ c) : (s.divided c id o d w).core k = s.core k := by
  rw [State.divided, State.delOp, State.core_modCore, if_neg h, State.core_writeDst_of_ne _ _ _ _ _ h, State.core_modCore, if_neg h]
theorem State.ctx_divided_of_ne {x : Nat} (h : x ≠ o.ctx) : (s.divided c id o d w).ctx c x = s.ctx c x := by
  rw [State.divided, State.delOp, State.ctx_modCore_of_ctxs _ _ _ rfl, State.ctx_writeDst_of_ne _ _ _ _ _ h, State.ctx_modCore_of_ctxs _ _ _ rfl]
theorem State.byteAt_divided (p : ByteAt) : (s.divided c id o d w).byteAt p = s.byteAt p := by
  rw [State.divided, State.delOp, State.byteAt_modCore_of_keeps _ _ _ ⟨rfl, rfl⟩, State.byteAt_writeDst,
    State.byteAt_modCore_of_keeps _ _ _ ⟨rfl, rfl⟩]
theorem State.divided_rest : s.divided c id o d w = { s with cores := (s.divided c id o d w).cores } := by
  rw [State.divided, State.writeDst_rest]; rfl

end

/-- Settles O3: the starts go through `State.divide`, the completion through `State.divided`. -/
theorem division : Obligations.Division := by
  unfold Obligations.Division
  refine ⟨fun m d a b i sg rm hi s => ⟨fun hidle => ?idle, fun hbusy => ?busy⟩,
    fun s c id o d w hdiv hop hfin hdue hwait hdep => ?complete⟩
  case idle => exact (exec_division hi s).trans (State.divide_idle m d _ hidle)
  case busy => exact ⟨_, (exec_division hi s).trans (State.divide_busy m d _ hbusy), s.heldHere_moves⟩
  case complete =>
    have hcore := s.core_divided c id o d w
    refine ⟨_, exec_divideComplete hdiv hop hfin hdue hwait hdep, ?_, ?_, ?_, fun e he => ?_, s.byteAt_divided c id o d w,
      fun x hx => s.ctx_divided_of_ne c id o d w hx, fun k hk => s.core_divided_of_ne c id o d w hk, s.divided_rest c id o d w⟩
    · rw [State.readDst_divided]
      by_cases hd : d = .none <;> simp [hd]
    · rw [hcore]
    · rw [hcore]
    · rw [State.readDst_divided, if_neg fun h => he h.1]

end Sys2Proof.Machine
end

section
/-! SUPPORT. The pointer instructions (11 R240, R241), and the statement of O4. -/

namespace Sys2Proof.Machine

/-! ### The parts of a pointer (01 R32) -/

theorem toNat_ptrVa (p : Word) : (ptrVa p).toNat = p.toNat % 2 ^ 56 := BitVec.toNat_setWidth ..
theorem toNat_ptrTop (p : Word) : (ptrTop p).toNat = p.toNat / 2 ^ 56 := by
  rw [ptrTop, BitVec.extractLsb'_toNat, Nat.shiftRight_eq_div_pow]
  omega

/-- A pointer by the numbers of its top byte and its address. -/
theorem ptrJoin_eq_ofNat (t : BitVec 8) (va : Addr) : ptrJoin t va = BitVec.ofNat 64 (t.toNat * 2 ^ 56 + va.toNat) := by
  have hjoin : (ptrJoin t va).toNat = t.toNat * 2 ^ 56 + va.toNat := toNat_append_add t va
  rw [← hjoin, BitVec.ofNat_toNat, BitVec.setWidth_eq]

/-- An address moved by a signed distance is taken modulo 2^56, from all bits of the pointer. -/
theorem ptrVa_add_ofInt (p : Word) (k : Int) : ptrVa p + BitVec.ofInt 56 k = BitVec.ofInt 56 (p.toNat + k) := by
  rw [BitVec.ofInt_add, BitVec.ofInt_natCast, BitVec.ofNat_toNat]; rfl

/-- A pointer moved by a signed distance: the top byte rides along. -/
theorem ptrJoin_moved (p : Word) (k : Int) : ptrJoin (ptrTop p) (ptrVa p + BitVec.ofInt 56 k) =
    BitVec.ofNat 64 (p.toNat / 2 ^ 56 * 2 ^ 56 + (BitVec.ofInt 56 (p.toNat + k)).toNat) := by
  rw [ptrJoin_eq_ofNat, toNat_ptrTop, ptrVa_add_ofInt]

theorem toNat_ptrVa_add (p q : Word) : (ptrVa p + ptrVa q).toNat = (p.toNat + q.toNat) % 2 ^ 56 := by
  rw [BitVec.toNat_add, toNat_ptrVa, toNat_ptrVa, ← Nat.add_mod]

theorem pointerResults : Parts.PointerResults := by
  unfold Parts.PointerResults
  intro m d a b i
  exact ⟨scalarResult_of_value (fun _ => rfl) fun s => by rw [ptrJoin_eq_ofNat, toNat_ptrTop, toNat_ptrVa_add],
    scalarResult_of_value (fun _ => rfl) fun s => ptrJoin_moved (s.reg a) i.toInt,
    scalarResult_of_value (fun _ => rfl) fun s => by rw [ptrJoin_eq_ofNat, toNat_ptrVa, BitVec.toNat_setWidth],
    scalarResult_of_value (fun _ => rfl) fun s => by rw [← toNat_ptrTop, BitVec.ofNat_toNat],
    scalarResult_of_value (fun _ => rfl) fun s => by rw [← toNat_ptrVa, BitVec.ofNat_toNat]⟩

/-! ### pidx (11 R241) -/

/-- The offset of k elements, where they are whole blocks of a blocked format. -/
theorem elemOffset_eq {off : Nat → Int → Int}
    (hoff : ∀ f k, off f k = if f < 11 then k * elemBytes f else k / blockElems f * blockBytes f) {f : Nat} {k : Int}
    (hk : 11 ≤ f → k % blockElems f = 0) : elemOffset f k = some (off f k) := by
  rw [elemOffset, hoff]
  by_cases hf : f < 11
  · rw [if_pos hf, if_pos hf, Int.mul_comm]
  · rw [if_neg hf, if_neg hf, if_pos (hk (Nat.le_of_not_lt hf)), Int.mul_comm]
/-- No offset is that of a part of a block. -/
theorem elemOffset_part {f : Nat} {k : Int} (hf : 11 ≤ f) (hk : k % blockElems f ≠ 0) : elemOffset f k = none := by
  rw [elemOffset, if_neg (Nat.not_lt.mpr hf), if_neg hk]

section
variable {m : Bool} {d a b : BitVec 5} {s : State}

theorem exec_pidx_disagrees (h : fmtCheckFails (ptrFmt (s.reg a)) (ptrBlog (s.reg a)) = true) : exec (.pidx m d a b) s =
    .next (s.faultHere { cause := .illegal, info := encodeWord (.pidx m d a b), addr := 0, undeliv := false }) := by
  have hinfo : accFault .illegal (encodeWord (.pidx m d a b)).toNat 0 =
      { cause := .illegal, info := encodeWord (.pidx m d a b), addr := 0, undeliv := false } := by
    rw [accFault, BitVec.ofNat_toNat, BitVec.setWidth_eq]
  rw [← hinfo]
  exact if_pos h

theorem exec_pidx_moves {off : Int} (h : fmtCheckFails (ptrFmt (s.reg a)) (ptrBlog (s.reg a)) = false)
    (hoff : elemOffset (ptrFmt (s.reg a)) (s.reg b).toInt = some off) :
    exec (.pidx m d a b) s = s.finish m d (ptrJoin (ptrTop (s.reg a)) (ptrVa (s.reg a) + BitVec.ofInt 56 off)) := by
  show execPidx m d a b s = _
  simp only [execPidx, h, hoff, Bool.false_eq_true, if_false]

theorem exec_pidx_part (h : fmtCheckFails (ptrFmt (s.reg a)) (ptrBlog (s.reg a)) = false)
    (hoff : elemOffset (ptrFmt (s.reg a)) (s.reg b).toInt = none) :
    exec (.pidx m d a b) s = .next (s.faultHere (accFault .misalign 0 0)) := by
  show execPidx m d a b s = _
  simp only [execPidx, h, hoff, Bool.false_eq_true, if_false]

end

theorem pointerIndex : Parts.PointerIndex := by
  unfold Parts.PointerIndex
  refine fun m d a b => ⟨fun off hoff => scalarResultIf_of_finish fun s ⟨hok, hwhole⟩ => ?moved,
    fun s hfail => exec_pidx_disagrees hfail, fun s hok hf hk => exec_pidx_part hok (elemOffset_part hf hk)⟩
  case moved => exact (exec_pidx_moves hok (elemOffset_eq hoff hwhole)).trans (congrArg (s.finish m d) (ptrJoin_moved ..))

/-- Settles O4: pointers are read by the numbers of their parts, and pidx by the offset of its elements. -/
theorem pointerInstructions : Obligations.PointerInstructions := by
  unfold Obligations.PointerInstructions
  exact ⟨pointerResults, pointerIndex⟩

end Sys2Proof.Machine
end

section
/-! SUPPORT. Transfers of control (11 R242, R243): what completing a taken one leaves, with and without a register write before it, and the
statement of O5. -/

namespace Sys2Proof.Machine

/-! ### Targets -/

/-- A relative target is the offset's words away. -/
theorem relTarget_eq {n : Nat} (pc : Addr) (o : BitVec n) : relTarget pc o = pc + BitVec.ofInt 56 (4 * o.toInt) := by
  have hfour : (4 : Int) = ((2 ^ 2 : Nat) : Int) := rfl
  rw [relTarget, BitVec.signExtend, BitVec.shiftLeft_eq_mul_twoPow, Int.mul_comm, hfour, BitVec.ofInt_mul, BitVec.ofInt_natCast]
  rfl

/-! ### A taken transfer (11 R242, 01 R438) -/

/-- A context that has gone to a target. -/
def Ctx.jumped (y : Ctx) (target : Addr) : Ctx :=
  { y with pc := target, seq := y.seq + 1, st := .ready, wait := .none, stepOver := false, fetched := [], kept := none }

/-- What the marker's park leaves of a context that has gone to a target. -/
theorem Ctx.marked_jumped (y : Ctx) (target : Addr) (p : Bool) :
    (y.jumped target).marked p = { y.At ((y.jumped target).marked p) with fetched := [] } ∧ ((y.jumped target).marked p).pc = target ∧
      ((y.jumped target).marked p).rep = y.rep ∧ ((y.jumped target).marked p).st = (if p then .parked else .ready) ∧
      ((y.jumped target).marked p).fetched = [] ∧ ((y.jumped target).marked p).globs = y.globs := by
  cases p <;> exact ⟨rfl, rfl, rfl, rfl, rfl, rfl⟩

theorem State.retireTo_eq (s : State) {m : Bool} (target : Addr) (hm : s.NoTrapDue m) :
    s.retireTo m target = s.modMe fun y => (y.jumped target).marked (m && s.mine.resultsOut s.curCtx) :=
  s.park_modMe (fun y => y.jumped target) hm (fun _ => rfl) (fun _ => rfl) (fun _ => rfl)

/-- Completing a taken transfer changes nothing but the issuing context's position. -/
theorem State.retireTo_jumps (s : State) {m : Bool} (target : Addr) (hm : s.NoTrapDue m) :
    s.Jumps (s.retireTo m target) m target ∧ s.SameRegisters (s.retireTo m target) := by
  obtain ⟨hat, hpc, hrep, hst, hfetched, hglobs⟩ := s.me.marked_jumped target (m && s.mine.resultsOut s.curCtx)
  rw [State.retireTo_eq s target hm]
  refine ⟨⟨State.onlyMe_modMe .., ⟨?_, ?_, ?_, ?_⟩, ?_, fun p _ => State.byteAt_modMe ..⟩, State.readDst_modMe_of_globs _ _ hglobs⟩
  · rw [State.me_modMe, hpc]
  · rw [State.me_modMe, hrep]
  · simp only [State.me_modMe, State.mine_modMe, Core.resultsOut_setCtx, hst, Bool.and_eq_true]
  · rw [State.me_modMe, hfetched]
  · rw [State.me_modMe]; exact hat

/-! ### Branches (11 R242) -/

section
variable {s : State} {m c : Bool} {o : BitVec 15}

theorem State.branch_taken (hrep : s.me.rep = none) (hc : c = true) :
    s.branch m c o = .next (s.retireTo m (s.me.pc + BitVec.ofInt 56 (4 * o.toInt))) := by
  rw [State.branch, hrep, hc, relTarget_eq]; rfl
theorem State.branch_passed (hrep : s.me.rep = none) (hc : c = false) : s.branch m c o = .next (s.retire m) := by
  rw [State.branch, hrep, hc]; rfl
theorem State.branch_in_body (hrep : s.me.rep ≠ none) : s.branch m c o = .next s.repFault :=
  if_pos (Option.isSome_iff_ne_none.mpr hrep)

end

/-- The six branches: their words, and the comparison that each makes. -/
theorem branch_cases {m : Bool} {a b : BitVec 5} {o : BitVec 15} {i : Instr} {n : Nat} {c : Word → Word → Bool}
    (hi : (i, n, c) ∈ [(Instr.beq m a b o, 0x10, fun x y => decide (x = y)), (.bne m a b o, 0x11, fun x y => decide (x ≠ y)),
      (.blt m a b o, 0x12, fun x y => decide (x.toInt < y.toInt)), (.bge m a b o, 0x13, fun x y => decide (y.toInt ≤ x.toInt)),
      (.bltu m a b o, 0x14, fun x y => decide (x.toNat < y.toNat)), (.bgeu m a b o, 0x15, fun x y => decide (y.toNat ≤ x.toNat))]) :
    decode (BitVec.ofNat 32 (m.toNat * 2 ^ 31 + n * 2 ^ 25 + a.toNat * 2 ^ 20 + b.toNat * 2 ^ 15 + o.toNat)) = .ok i ∧
      ∀ s : State, exec i s = s.branch m (c (s.reg a) (s.reg b)) o := by
  simp only [List.mem_cons, List.not_mem_nil, or_false, Prod.mk.injEq] at hi
  rcases hi with ⟨rfl, rfl, rfl⟩ | ⟨rfl, rfl, rfl⟩ | ⟨rfl, rfl, rfl⟩ | ⟨rfl, rfl, rfl⟩ | ⟨rfl, rfl, rfl⟩ | ⟨rfl, rfl, rfl⟩
  · exact ⟨decode_formatB m 0x10 a b o rfl (Laws.RoundTrip.beq m a b o rfl rfl), fun s => rfl⟩
  · exact ⟨decode_formatB m 0x11 a b o rfl (Laws.RoundTrip.bne m a b o rfl rfl),
      fun s => congrArg (s.branch m · o) (decide_not (p := s.reg a = s.reg b)).symm⟩
  · exact ⟨decode_formatB m 0x12 a b o rfl (Laws.RoundTrip.blt m a b o rfl rfl), fun s => rfl⟩
  · exact ⟨decode_formatB m 0x13 a b o rfl (Laws.RoundTrip.bge m a b o rfl rfl),
      fun s => congrArg (s.branch m · o) BitVec.sle_eq_not_slt.symm⟩
  · exact ⟨decode_formatB m 0x14 a b o rfl (Laws.RoundTrip.bltu m a b o rfl rfl), fun s => rfl⟩
  · exact ⟨decode_formatB m 0x15 a b o rfl (Laws.RoundTrip.bgeu m a b o rfl rfl),
      fun s => congrArg (s.branch m · o) (BitVec.ule_eq_not_ult ..).symm⟩

/-- Settles O5: each branch is `State.branch` of its comparison. -/
theorem branches : Obligations.Branches := by
  unfold Obligations.Branches
  intro m a b o i n c hi
  obtain ⟨hword, hexec⟩ := branch_cases hi
  refine ⟨hword, fun s hm => ⟨fun hrep hc => ?taken, fun hrep hc => ?passed, fun hrep => ?body⟩⟩
  case taken => exact ⟨_, (hexec s).trans (State.branch_taken hrep hc), s.retireTo_jumps _ hm⟩
  case passed =>
    obtain ⟨hmoves, hadv⟩ := s.retire_moves m hm
    refine ⟨_, (hexec s).trans (State.branch_passed hrep hc), hmoves, hadv, ?_, hmoves.sameRegisters⟩
    rw [hadv.pc, Ctx.advance_pc, Ctx.nextPos_outside hrep]
  case body => exact (hexec s).trans (State.branch_in_body hrep)

end Sys2Proof.Machine
end

section
/-! SUPPORT. Jumps, calls and returns (11 R243, 10 R218, R219): register writes before a taken transfer, frames of the register window, window
traps, and the statement of O6. -/

namespace Sys2Proof.Machine

/-! ### Register writes of the issuing context -/

/-- Nothing of t differs from s but the issuing context and its core's register RAM. -/
structure State.OnlyRegisters (s t : State) : Prop extends State.OnlyMine s t where
  core : t.mine = { s.mine with ctxs := t.mine.ctxs, ram := t.mine.ram }
  contexts : ∀ x, x ≠ s.curCtx → t.ctx s.curCore x = s.ctx s.curCore x
  memory : ∀ p, t.byteAt p = s.byteAt p

/-- The issuing context is the same one in a state that differs in cores alone. -/
theorem State.OnlyMine.issuer {s t : State} (h : s.OnlyMine t) : t.curCore = s.curCore ∧ t.curCtx = s.curCtx := by
  rw [h.rest]; exact ⟨rfl, rfl⟩

theorem State.OnlyMe.onlyRegisters {s t : State} (h : s.OnlyMe t) (hmem : ∀ p, t.byteAt p = s.byteAt p) : s.OnlyRegisters t :=
  ⟨h.toOnlyMine, by rw [h.core], h.contexts, hmem⟩

theorem State.Jumps.onlyRegisters {s t : State} {m : Bool} {target : Addr} (h : s.Jumps t m target) : s.OnlyRegisters t :=
  h.toOnlyMe.onlyRegisters fun p => h.memory p id

theorem State.OnlyRegisters.trans {s u t : State} (h : s.OnlyRegisters u) (h' : u.OnlyRegisters t) : s.OnlyRegisters t := by
  obtain ⟨hcore, hctx⟩ := h.toOnlyMine.issuer
  refine ⟨⟨h'.rest.trans (by rw [h.rest]), fun c hc => ?_⟩, h'.core.trans (by rw [h.core]), fun x hx => ?_, fun p => ?_⟩
  · rw [h'.others c (by rwa [hcore]), h.others c hc]
  · rw [← hcore, h'.contexts x (by rwa [hctx]), hcore, h.contexts x hx]
  · rw [h'.memory, h.memory]

theorem State.onlyRegisters_writeDst (s : State) (d : RegDst) (w : Word) : s.OnlyRegisters (s.writeDst s.curCore s.curCtx d w) := by
  refine ⟨⟨State.writeDst_rest .., fun c hc => State.core_writeDst_of_ne _ _ _ _ _ hc⟩, ?_, fun x hx => State.ctx_writeDst_of_ne _ _ _ _ _ hx,
    fun _ => State.byteAt_writeDst ..⟩
  rw [State.mine, State.writeDst_curCore]
  exact State.core_writeDst_same ..

theorem State.NoTrapDue.of_ptrap {s u : State} {m : Bool} (h : s.NoTrapDue m) (hu : u.me.ptrap = s.me.ptrap) : u.NoTrapDue m :=
  fun hmark => hu.trans (h hmark)

/-! ### Jumps (11 R243) -/

/-- Where a context stands after a transfer does not depend on the work before it. -/
theorem State.Arrives.of_work {s u t : State} {m : Bool} {target : Addr} (h : u.Arrives t m target) (hrep : u.me.rep = s.me.rep)
    (hctx : u.curCtx = s.curCtx) : s.Arrives t m target :=
  ⟨h.pc, h.rep.trans hrep, by rw [h.st, hctx], h.fetched⟩

/-- A transfer after its return address has been written. -/
theorem State.Jumps.links {s t : State} {m : Bool} {target : Addr} {d : RegDst}
    (h : (s.writeDst s.curCore s.curCtx d ((s.me.pc + 4).setWidth 64)).Jumps t m target)
    (hregs : (s.writeDst s.curCore s.curCtx d ((s.me.pc + 4).setWidth 64)).SameRegisters t) : s.Links t m target d := by
  have hme := s.me_writeDst d ((s.me.pc + 4).setWidth 64)
  obtain ⟨hmine, hcore, hctxs, hmem⟩ := (s.onlyRegisters_writeDst d _).trans h.onlyRegisters
  have hread (e : RegDst) : t.readDst s.curCore s.curCtx e =
      if e = d ∧ d ≠ .none then (s.me.pc + 4).setWidth 64 else s.readDst s.curCore s.curCtx e := by
    have he := hregs e
    rwa [State.writeDst_curCore, State.writeDst_curCtx, State.readDst_writeDst] at he
  refine ⟨hmine, h.toArrives.of_work (by rw [hme]) (State.writeDst_curCtx ..), hcore, hctxs, ?_, ?_, fun e he => ?_, fun p _ => hmem p⟩
  · have hglobs : t.me.globs = (s.writeDst s.curCore s.curCtx d ((s.me.pc + 4).setWidth 64)).me.globs :=
      (congrArg Ctx.globs h.me).trans rfl
    rw [hglobs]
    exact h.me.trans (by rw [hme]; rfl)
  · rw [hread]
    by_cases hd : d = .none <;> simp [hd]
  · rw [hread, if_neg fun hd => he hd.1]

theorem State.writeDst_retireTo_links (s : State) {m : Bool} (d : RegDst) (target : Addr) (hm : s.NoTrapDue m) :
    s.Links ((s.writeDst s.curCore s.curCtx d ((s.me.pc + 4).setWidth 64)).retireTo m target) m target d := by
  obtain ⟨hjumps, hregs⟩ := State.retireTo_jumps _ target (hm.of_ptrap (by rw [s.me_writeDst d ((s.me.pc + 4).setWidth 64)]))
  exact hjumps.links hregs

/-- Outside a body a field names its register. -/
theorem State.dst_outside {s : State} (h : s.me.rep = none) (f : BitVec 5) : s.dst f = s.me.dstOf f.toNat := by
  rw [State.dst, Ctx.rotated, h]

/-- The target of an indirect transfer, and whether it is a multiple of 4. -/
theorem ofNat_toNat_eq_ptrVa (p : Word) : BitVec.ofNat 56 p.toNat = ptrVa p := BitVec.ofNat_toNat ..
theorem alignedTo_ptrVa (p : Word) : alignedTo (ptrVa p) 4 = decide (p.toNat % 4 = 0) := by
  have hmod : p.toNat % 2 ^ 56 % 4 = p.toNat % 4 := by omega
  rw [alignedTo, toNat_ptrVa, hmod]; rfl

section
variable {s : State} {m : Bool} (hrep : s.me.rep = none)
include hrep

theorem exec_j (o : BitVec 25) : exec (.j m o) s = .next (s.retireTo m (s.me.pc + BitVec.ofInt 56 (4 * o.toInt))) := by
  show execJ m o s = _
  rw [execJ, hrep, relTarget_eq]; rfl
theorem exec_jl (o : BitVec 25) : exec (.jl m o) s =
    .next ((s.writeDst s.curCore s.curCtx (s.me.dstOf 31) ((s.me.pc + 4).setWidth 64)).retireTo m
      (s.me.pc + BitVec.ofInt 56 (4 * o.toInt))) := by
  show execJl m o s = _
  rw [execJl, hrep, relTarget_eq, State.setReg, State.dst_outside hrep]; rfl

theorem exec_jr (a : BitVec 5) (hal : (s.reg a).toNat % 4 = 0) : exec (.jr m a) s = .next (s.retireTo m (BitVec.ofNat 56 (s.reg a).toNat)) := by
  show execJr m a s = _
  simp only [execJr, hrep, alignedTo_ptrVa, hal, ofNat_toNat_eq_ptrVa, decide_true, Bool.not_true, Option.isSome_none, Bool.false_eq_true, if_false]
theorem exec_jlr (d a : BitVec 5) (hal : (s.reg a).toNat % 4 = 0) : exec (.jlr m d a) s =
    .next ((s.writeDst s.curCore s.curCtx (s.dst d) ((s.me.pc + 4).setWidth 64)).retireTo m (BitVec.ofNat 56 (s.reg a).toNat)) := by
  show execJlr m d a s = _
  simp only [execJlr, State.setReg, hrep, alignedTo_ptrVa, hal, ofNat_toNat_eq_ptrVa, decide_true, Bool.not_true, Option.isSome_none,
    Bool.false_eq_true, if_false]
theorem exec_jr_misaligned (a : BitVec 5) (hal : (s.reg a).toNat % 4 ≠ 0) :
    exec (.jr m a) s = .next (s.targetFault (BitVec.ofNat 56 (s.reg a).toNat)) := by
  show execJr m a s = _
  simp only [execJr, hrep, alignedTo_ptrVa, hal, ofNat_toNat_eq_ptrVa, decide_false, Bool.not_false, Option.isSome_none, Bool.false_eq_true,
    if_false, if_true]
theorem exec_jlr_misaligned (d a : BitVec 5) (hal : (s.reg a).toNat % 4 ≠ 0) :
    exec (.jlr m d a) s = .next (s.targetFault (BitVec.ofNat 56 (s.reg a).toNat)) := by
  show execJlr m d a s = _
  simp only [execJlr, hrep, alignedTo_ptrVa, hal, ofNat_toNat_eq_ptrVa, decide_false, Bool.not_false, Option.isSome_none, Bool.false_eq_true,
    if_false, if_true]

end

theorem jumps : Parts.Jumps := by
  unfold Parts.Jumps
  refine fun m d a o s hm hrep => ⟨⟨_, exec_j hrep o, s.retireTo_jumps _ hm⟩, ⟨_, exec_jl hrep o, s.writeDst_retireTo_links _ _ hm⟩,
    fun hal => ⟨⟨_, exec_jr hrep a hal, s.retireTo_jumps _ hm⟩, ⟨_, exec_jlr hrep d a hal, s.writeDst_retireTo_links _ _ hm⟩⟩,
    fun hal => ?misaligned⟩
  case misaligned =>
    simp only [List.forall_mem_cons]
    exact ⟨exec_jr_misaligned hrep a hal, exec_jlr_misaligned hrep d a hal, fun _ h => absurd h List.not_mem_nil⟩

/-! ### The ring (10 R213, R215, R218) -/

theorem Ctx.ringBad_eq_false_iff (y : Ctx) : y.ringBad = false ↔ ringOk y := by
  have hsize : y.ringN = (y.rshi.toNat : Int) - y.rslo.toNat := rfl
  simp only [Ctx.ringBad, ringOk, ← hsize, Bool.or_eq_false_iff, decide_eq_false_iff_not]
  omega

theorem Ctx.ringBad_of_not_ok {y : Ctx} (h : ¬ ringOk y) : y.ringBad = true := by
  rwa [← Ctx.ringBad_eq_false_iff, Bool.not_eq_false] at h

theorem Ctx.ringN_pos_of_ok {y : Ctx} (h : ringOk y) : 0 < y.ringN := by
  obtain ⟨hsize, -⟩ := h
  rw [Ctx.ringN]
  omega

theorem Ctx.ringAt_eq (y : Ctx) (d : Int) : y.ringAt d = (d % y.ringN + y.rslo.toNat).toNat := by rw [Ctx.ringAt, Int.add_comm]

theorem Ctx.ringMove_eq (y : Ctx) (e : BitVec 12) (d : Int) :
    y.ringMove e d = BitVec.ofNat 12 (((e.toNat : Int) - y.rslo.toNat + d) % y.ringN + y.rslo.toNat).toNat := by
  rw [Ctx.ringMove, Ctx.ringAt_eq]

section
variable {y : Ctx} (h : 0 < y.ringN) (hram : y.rshi.toNat ≤ 4096)
include h

/-- A distance from an entry that a distance leads to. -/
theorem Ctx.ringAt_ringAt (d e : Int) : y.ringAt ((y.ringAt d : Int) - y.rslo.toNat + e) = y.ringAt (d + e) := by
  have hentry : (y.ringAt d : Int) - y.rslo.toNat = d % y.ringN := by
    have hlo := Int.emod_nonneg d (Int.ne_of_gt h)
    rw [Ctx.ringAt]
    omega
  rw [hentry, Ctx.ringAt, Ctx.ringAt, Int.emod_add_emod]

include hram

theorem Ctx.toNat_ringMove (e : BitVec 12) (d : Int) : (y.ringMove e d).toNat = y.ringAt ((e.toNat : Int) - y.rslo.toNat + d) := by
  obtain ⟨-, hhi⟩ := y.ringAt_bounds h ((e.toNat : Int) - y.rslo.toNat + d)
  rw [Ctx.ringMove, BitVec.toNat_ofNat, Nat.mod_eq_of_lt (by omega)]

end

/-! ### Frames (10 R218) -/

/-- A context whose BASE has moved by a distance around its ring. -/
def Ctx.rebased (y : Ctx) (d : Int) : Ctx := { y with base := y.ringMove y.base d }

/-- The register l7 of a frame that a call opens stands 15 entries from its BASE. -/
theorem Ctx.slot_rebased {y : Ctx} (h : 0 < y.ringN) (hram : y.rshi.toNat ≤ 4096) :
    (y.rebased 16).slot 23 = (((y.base.toNat : Int) - y.rslo.toNat + 31) % y.ringN + y.rslo.toNat).toNat % 4096 := by
  have hslot : (y.rebased 16).slot 23 = y.ringAt (((y.ringMove y.base 16).toNat : Int) - y.rslo.toNat + (23 - 8)) % 4096 := by
    have hring : ¬ (y.rebased 16).ringN ≤ 0 := Int.not_le.mpr h
    rw [Ctx.slot, if_neg hring, Int.add_sub_assoc]; rfl
  rw [hslot, Ctx.toNat_ringMove h hram, Ctx.ringAt_ringAt h, Int.add_assoc, Ctx.ringAt_eq]
  rfl

/-- The issuing context in the frame that a call opens, with the return address in its l7. -/
def State.newFrame (s : State) : State :=
  (s.modMe fun y => y.rebased 16).setRegOf s.curCore s.curCtx 23 ((s.me.pc + 4).setWidth 64)
/-- The issuing context in the frame that it returns to. -/
def State.oldFrame (s : State) : State := s.modMe fun y => y.rebased (-16)

theorem State.newFrame_eq (s : State) : s.newFrame = (s.modMe fun y => y.rebased 16).writeDst s.curCore s.curCtx
    (.ram ((s.me.rebased 16).slot 23)) ((s.me.pc + 4).setWidth 64) := by
  have hctx : (s.modMe fun y => y.rebased 16).ctx s.curCore s.curCtx = s.me.rebased 16 := by rw [State.ctx_modMe, if_pos ⟨rfl, rfl⟩]
  rw [State.newFrame, State.setRegOf, hctx]
  rfl

theorem State.onlyRegisters_modMe (s : State) (f : Ctx → Ctx) : s.OnlyRegisters (s.modMe f) :=
  (s.onlyMe_modMe f).onlyRegisters fun _ => State.byteAt_modMe ..

theorem State.onlyRegisters_newFrame (s : State) : s.OnlyRegisters s.newFrame := by
  rw [State.newFrame_eq]
  exact (s.onlyRegisters_modMe _).trans ((s.modMe _).onlyRegisters_writeDst _ _)
theorem State.me_newFrame (s : State) : s.newFrame.me = s.me.rebased 16 := by
  rw [State.newFrame_eq]
  simp [State.me, State.writeDst, State.ctx, State.modMe]
theorem State.tget_ram_newFrame (s : State) (e : Nat) : tget s.newFrame.mine.ram e 0 =
    if e = (s.me.rebased 16).slot 23 then (s.me.pc + 4).setWidth 64 else tget s.mine.ram e 0 := by
  rw [State.newFrame_eq]
  simp [State.mine, State.writeDst, State.modMe, Core.setCtx]

/-- A call or return from the frame that it moves to. -/
theorem State.Jumps.calls {s u t : State} {m : Bool} {target : Addr} {d : Int} (hu : s.OnlyRegisters u) (hme : u.me = s.me.rebased d)
    (h : u.Jumps t m target) : s.Calls t m target (((s.me.base.toNat : Int) - s.me.rslo.toNat + d) % s.me.ringN + s.me.rslo.toNat).toNat := by
  obtain ⟨hmine, hcore, hctxs, hmem⟩ := hu.trans h.onlyRegisters
  refine ⟨hmine, h.toArrives.of_work (by rw [hme]; rfl) hu.toOnlyMine.issuer.2, hcore, hctxs, ?_, fun p _ => hmem p⟩
  rw [← Ctx.ringMove_eq]
  exact h.me.trans (by rw [hme]; rfl)

/-- Completing a transfer keeps the register RAM. -/
theorem State.Jumps.ram {s t : State} {m : Bool} {target : Addr} (h : s.Jumps t m target) : t.mine.ram = s.mine.ram := by rw [h.core]

section
variable {s : State} {m : Bool} {t : Addr}

theorem State.callTo_opens (hal : alignedTo t 4 = true) (hok : ringOk s.me)
    (hroom : ((s.me.base.toNat : Int) - s.me.low.toNat) % s.me.ringN + 40 ≤ s.me.ringN) : s.callTo m t = s.newFrame.retireTo m t := by
  simp only [State.callTo, hal, (Ctx.ringBad_eq_false_iff _).mpr hok, if_neg (Int.not_lt.mpr hroom), Bool.not_true, Bool.false_eq_true, if_false]
  rfl
theorem State.callTo_spills (hal : alignedTo t 4 = true) (hok : ringOk s.me)
    (hfull : s.me.ringN < ((s.me.base.toNat : Int) - s.me.low.toNat) % s.me.ringN + 40) : s.callTo m t = s.windowTrap 1 (some s.me.low) := by
  simp only [State.callTo, hal, (Ctx.ringBad_eq_false_iff _).mpr hok, if_pos hfull, Bool.not_true, Bool.false_eq_true, if_false]
theorem State.callTo_broken (hal : alignedTo t 4 = true) (hbad : ¬ ringOk s.me) : s.callTo m t = s.windowTrap 1 none := by
  have hring : s.me.ringBad = true := Ctx.ringBad_of_not_ok hbad
  simp only [State.callTo, hal, hring, Bool.not_true, Bool.false_eq_true, if_false, if_true]

end

theorem alignedTo_relTarget {n : Nat} {pc : Addr} (h : pc.toNat % 4 = 0) (o : BitVec n) : alignedTo (relTarget pc o) 4 = true := by
  have hmod : (relTarget pc o).toNat % 4 = 0 := by
    rw [relTarget, BitVec.toNat_add, BitVec.toNat_shiftLeft, Nat.shiftLeft_eq]
    omega
  rw [alignedTo, hmod]; rfl

section
variable {s : State} {m : Bool} (hrep : s.me.rep = none)
include hrep

theorem exec_call (o : BitVec 24) : exec (.call m o) s = .next (s.callTo m (relTarget s.me.pc o)) := by
  show execCall m o s = _
  rw [execCall, hrep]; rfl
theorem exec_callr (a : BitVec 5) : exec (.callr m a) s = .next (s.callTo m (ptrVa (s.reg a))) := by
  show execCallr m a s = _
  rw [execCallr, hrep]; rfl

variable (hal : (s.regOf s.curCore s.curCtx 23).toNat % 4 = 0)
include hal

theorem exec_ret_returns (hok : ringOk s.me) (hne : s.me.base ≠ s.me.low) : exec (.ret m) s =
    .next (s.oldFrame.retireTo m (BitVec.ofNat 56 (s.regOf s.curCore s.curCtx 23).toNat)) := by
  show execRet m s = _
  simp only [execRet, hrep, alignedTo_ptrVa, hal, (Ctx.ringBad_eq_false_iff _).mpr hok, hne, ofNat_toNat_eq_ptrVa, decide_true, Bool.not_true,
    Option.isSome_none, Bool.false_eq_true, if_false]
  rfl
theorem exec_ret_fills (hok : ringOk s.me) (heq : s.me.base = s.me.low) : exec (.ret m) s =
    .next (s.windowTrap 2 (some (s.me.ringMove s.me.low (-16)))) := by
  show execRet m s = _
  simp only [execRet, hrep, alignedTo_ptrVa, hal, (Ctx.ringBad_eq_false_iff _).mpr hok, heq, decide_true, Bool.not_true,
    Option.isSome_none, Bool.false_eq_true, if_false, if_true]
theorem exec_ret_broken (hbad : ¬ ringOk s.me) : exec (.ret m) s = .next (s.windowTrap 2 none) := by
  have hring : s.me.ringBad = true := Ctx.ringBad_of_not_ok hbad
  show execRet m s = _
  simp only [execRet, hrep, alignedTo_ptrVa, hal, hring, decide_true, Bool.not_true, Option.isSome_none, Bool.false_eq_true, if_false, if_true]

end

theorem callsAndReturns : Parts.CallsAndReturns := by
  unfold Parts.CallsAndReturns
  refine fun m a o s hm hrep hok hram => ⟨fun i target hi hal hroom => ?call, fun hal hne => ?ret⟩
  case call =>
    have hexec : exec i s = .next (s.callTo m target) := by
      simp only [List.mem_cons, List.not_mem_nil, or_false, Prod.mk.injEq] at hi
      rcases hi with ⟨rfl, rfl⟩ | ⟨rfl, rfl⟩
      · rw [exec_call hrep, relTarget_eq]
      · rw [exec_callr hrep, ofNat_toNat_eq_ptrVa]
    rw [State.callTo_opens (beq_iff_eq.mpr hal) hok hroom] at hexec
    obtain ⟨hjumps, -⟩ := s.newFrame.retireTo_jumps target (hm.of_ptrap (by rw [State.me_newFrame]; rfl))
    refine ⟨_, hexec, hjumps.calls s.onlyRegisters_newFrame s.me_newFrame, fun e => ?_⟩
    rw [hjumps.ram, State.tget_ram_newFrame, Ctx.slot_rebased (Ctx.ringN_pos_of_ok hok) hram]
  case ret =>
    obtain ⟨hjumps, -⟩ := s.oldFrame.retireTo_jumps (BitVec.ofNat 56 (s.regOf s.curCore s.curCtx 23).toNat)
      (hm.of_ptrap (by rw [State.oldFrame, State.me_modMe]; rfl))
    refine ⟨_, exec_ret_returns hrep hal hok hne, hjumps.calls (s.onlyRegisters_modMe _) (State.me_modMe ..), ?_⟩
    rw [hjumps.ram, State.oldFrame, State.mine_modMe]; rfl

/-! ### Window traps (10 R218, R219) -/

theorem State.windowTrap_entry (s : State) (k n : Nat) : s.windowTrap k (some (BitVec.ofNat 12 n)) =
    s.localTrap s.curCore s.curCtx
      { code := BitVec.ofNat 8 k, epc := s.me.pc, einfo := BitVec.ofNat 64 (n % 4096), wpend := BitVec.ofNat 2 k } := by
  have hinfo : (BitVec.ofNat 12 n).setWidth 64 = BitVec.ofNat 64 (n % 4096) := by rw [← BitVec.ofNat_toNat, BitVec.toNat_ofNat]
  rw [← hinfo]
  rfl

theorem State.windowTrap_broken (s : State) (k : Nat) : ∃ e : Nat, e < 4096 ∧ s.windowTrap k none =
    ({ s with nextId := s.nextId + 1 } : State).localTrap s.curCore s.curCtx
      { code := BitVec.ofNat 8 k, epc := s.me.pc, einfo := BitVec.ofNat 64 (2 ^ 63 + e), wpend := 0 } :=
  ⟨(Config.brokenRingEntry s.nextId).toNat, BitVec.isLt _, rfl⟩

theorem windowTraps : Parts.WindowTraps := by
  unfold Parts.WindowTraps
  refine fun m a o s hrep => ⟨fun hok hfull => ⟨fun hal => ?call, fun hal => ?callr⟩, fun hok hal heq => ?ret,
    fun hbad i k target hi hal => ?broken⟩
  case call => rw [exec_call hrep, State.callTo_spills (alignedTo_relTarget hal o) hok hfull]; rfl
  case callr => rw [exec_callr hrep, State.callTo_spills (by rw [alignedTo_ptrVa]; exact decide_eq_true hal) hok hfull]; rfl
  case ret =>
    rw [exec_ret_fills hrep hal hok heq, Ctx.ringMove_eq, State.windowTrap_entry]
    rfl
  case broken =>
    have hexec : exec i s = .next (s.windowTrap k.toNat none) := by
      simp only [List.mem_cons, List.not_mem_nil, or_false, Prod.mk.injEq] at hi
      rcases hi with ⟨rfl, rfl, rfl⟩ | ⟨rfl, rfl, rfl⟩ | ⟨rfl, rfl, rfl⟩
      · rw [exec_call hrep, State.callTo_broken (alignedTo_relTarget hal o) hbad]; rfl
      · rw [exec_callr hrep, State.callTo_broken (by rw [alignedTo_ptrVa]; exact decide_eq_true hal) hbad]; rfl
      · exact exec_ret_broken hrep hal hbad
    obtain ⟨e, he, htrap⟩ := s.windowTrap_broken k.toNat
    rw [BitVec.ofNat_toNat, BitVec.setWidth_eq] at htrap
    exact ⟨e, he, hexec.trans (congrArg _ htrap)⟩

/-- Settles O6: every transfer is a taken one after the register write or the frame that it makes, or a window trap. -/
theorem jumpsAndCalls : Obligations.JumpsAndCalls := by
  unfold Obligations.JumpsAndCalls
  exact ⟨jumps, callsAndReturns, windowTraps⟩

end Sys2Proof.Machine
end

section
/-! SUPPORT. Packed lanes: the bits of a number made of lanes, and what a lane of a vector register is after a write under a mask (12 R246,
R247). -/

namespace Sys2Proof.Machine

/-! ### Numbers made of lanes -/

theorem packLanes_lt (w : Nat) (f : Nat → Nat) (n : Nat) : packLanes w f n < 2 ^ (w * n) := by
  induction n with
  | zero => simp [packLanes]
  | succ n ih =>
    have hlane : f n % 2 ^ w < 2 ^ w := Nat.mod_lt _ (Nat.two_pow_pos w)
    calc packLanes w f (n + 1) = packLanes w f n + f n % 2 ^ w * 2 ^ (w * n) := by rw [packLanes, Nat.shiftLeft_eq]
      _ < (f n % 2 ^ w + 1) * 2 ^ (w * n) := by rw [Nat.add_one_mul]; omega
      _ ≤ 2 ^ w * 2 ^ (w * n) := Nat.mul_le_mul_right _ hlane
      _ = 2 ^ (w * (n + 1)) := by rw [← Nat.pow_add, Nat.mul_succ, Nat.add_comm]

/-- What stands above some bits does not change them. -/
theorem bitsOf_add_mul {lo n k : Nat} (h : lo + n ≤ k) (x y : Nat) : bitsOf (x + y * 2 ^ k) lo n = bitsOf x lo n := by
  obtain ⟨j, rfl⟩ := Nat.exists_eq_add_of_le h
  have hshift : y * 2 ^ (lo + n + j) = y * 2 ^ j * 2 ^ n * 2 ^ lo := by rw [Nat.pow_add, Nat.pow_add]; ac_rfl
  rw [bitsOf, bitsOf, Nat.shiftRight_eq_div_pow, Nat.shiftRight_eq_div_pow, hshift, Nat.add_mul_div_right _ _ (Nat.two_pow_pos lo),
    Nat.add_mul_mod_self_right]

theorem bitsOf_above {k x : Nat} (h : x < 2 ^ k) (y n : Nat) : bitsOf (x + y * 2 ^ k) k n = y % 2 ^ n := by
  rw [bitsOf, Nat.shiftRight_eq_div_pow, Nat.add_mul_div_right _ _ (Nat.two_pow_pos k), Nat.div_eq_of_lt h, Nat.zero_add]

/-- Bits that a word of N bits has are those of the number that it was made of. -/
theorem bitsOf_ofNat {N lo n : Nat} (h : lo + n ≤ N) (x : Nat) : bitsOf (BitVec.ofNat N x).toNat lo n = bitsOf x lo n := by
  calc bitsOf (BitVec.ofNat N x).toNat lo n = bitsOf (x % 2 ^ N) lo n := by rw [BitVec.toNat_ofNat]
    _ = bitsOf (x % 2 ^ N + x / 2 ^ N * 2 ^ N) lo n := (bitsOf_add_mul h ..).symm
    _ = bitsOf x lo n := by rw [Nat.mul_comm, Nat.mod_add_div]

theorem bitsOf_packLanes (w : Nat) (f : Nat → Nat) {n i : Nat} (h : i < n) : bitsOf (packLanes w f n) (w * i) w = f i % 2 ^ w := by
  induction n with
  | zero => omega
  | succ n ih =>
    rw [packLanes, Nat.shiftLeft_eq]
    rcases Nat.lt_succ_iff_lt_or_eq.mp h with hlt | rfl
    · have hbelow : w * i + w ≤ w * n := by rw [← Nat.mul_succ]; exact Nat.mul_le_mul_left w hlt
      rw [bitsOf_add_mul hbelow, ih hlt]
    · rw [bitsOf_above (packLanes_lt w f i), Nat.mod_mod]

theorem testBit_packLanes (b : Nat → Bool) (n i : Nat) :
    (packLanes 1 (fun L => (b L).toNat) n).testBit i = if i < n then b i else false := by
  split
  · next h =>
    have hbit := bitsOf_packLanes 1 (fun L => (b L).toNat) h
    rw [bitsOf, Nat.one_mul, Nat.pow_one, Nat.shiftRight_eq_div_pow] at hbit
    rw [Nat.testBit_eq_decide_div_mod_eq, hbit]
    cases b i <;> rfl
  · next h =>
    have hpow : 2 ^ (1 * n) ≤ 2 ^ i := Nat.pow_le_pow_right Nat.two_pos (by omega)
    exact Nat.testBit_lt_two_pow (Nat.lt_of_lt_of_le (packLanes_lt ..) hpow)

theorem getLsbD_packed (b : Nat → Bool) (n : Nat) {L : Nat} (h : L < 64) :
    (BitVec.ofNat 64 (packLanes 1 (fun L => (b L).toNat) n)).getLsbD L = if L < n then b L else false := by
  rw [BitVec.getLsbD_ofNat, testBit_packLanes, decide_eq_true h, Bool.true_and]

/-! ### Lanes of a vector register -/

theorem lane_lt (e : Nat) (v : Vec) (L : Nat) : lane e v L < 2 ^ (8 * e) := Nat.mod_lt _ (Nat.two_pow_pos _)

theorem lane_mod (e : Nat) (v : Vec) (L : Nat) : lane e v L % 2 ^ (8 * e) = lane e v L := Nat.mod_eq_of_lt (lane_lt e v L)
theorem mod_of_lane_eq {e x L : Nat} {v : Vec} (h : lane e v L = x) : x % 2 ^ (8 * e) = lane e v L := by rw [← h, lane_mod]

theorem lane_fits {e L : Nat} (h : L < 64 / e) : 8 * e * L + 8 * e ≤ 512 := by
  have htop : e * (L + 1) ≤ 64 := Nat.le_trans (Nat.mul_le_mul_left e h) (Nat.mul_div_le 64 e)
  rw [Nat.mul_succ] at htop
  rw [Nat.mul_assoc]
  omega

theorem lane_packed (f : Nat → Nat) {e L : Nat} (h : L < 64 / e) :
    lane e (BitVec.ofNat 512 (packLanes (8 * e) f (64 / e))) L = f L % 2 ^ (8 * e) := by
  rw [lane, bitsOf_ofNat (lane_fits h), bitsOf_packLanes _ _ h]

theorem lane_lanes (k : Word) (old : Vec) (f : Nat → Nat) {e L : Nat} (h : L < 64 / e) :
    lane e (lanes e k old f) L = if k.getLsbD L then f L % 2 ^ (8 * e) else lane e old L := by
  rw [lanes, lane_packed _ h, apply_ite (· % 2 ^ (8 * e)), lane_mod]

/-! ### Writes of the active lanes' bits -/

theorem testBit_lane (e : Nat) (v : Vec) (L i : Nat) : (lane e v L).testBit i = (decide (i < 8 * e) && v.getLsbD (8 * e * L + i)) := by
  rw [lane, bitsOf, Nat.testBit_mod_two_pow, Nat.testBit_shiftRight, BitVec.testBit_toNat]

theorem lane_laneBits (k : Word) {e L : Nat} (h : L < 64 / e) :
    lane e (laneBits e k) L = if k.getLsbD L then 2 ^ (8 * e) - 1 else 0 := by
  have hones : (2 ^ (8 * e) - 1) % 2 ^ (8 * e) = 2 ^ (8 * e) - 1 := Nat.mod_eq_of_lt (Nat.sub_one_lt (Nat.ne_of_gt (Nat.two_pow_pos _)))
  rw [laneBits, lane_packed _ h, apply_ite (· % 2 ^ (8 * e)), hones, Nat.zero_mod]

theorem getLsbD_laneBits (k : Word) {e L i : Nat} (h : L < 64 / e) (hi : i < 8 * e) :
    (laneBits e k).getLsbD (8 * e * L + i) = k.getLsbD L := by
  have hbit := testBit_lane e (laneBits e k) L i
  rw [lane_laneBits k h, decide_eq_true hi, Bool.true_and] at hbit
  rw [← hbit]
  cases k.getLsbD L
  · exact Nat.zero_testBit i
  · rw [if_pos rfl, Nat.testBit_two_pow_sub_one, decide_eq_true hi]

/-- A write of the active lanes' bits changes the active lanes alone. -/
theorem lane_merge (k : Word) (old data : Vec) {e L : Nat} (h : L < 64 / e) :
    lane e ((old &&& ~~~laneBits e k) ||| (data &&& laneBits e k)) L = if k.getLsbD L then lane e data L else lane e old L := by
  refine Nat.eq_of_testBit_eq fun i => ?_
  rw [apply_ite (Nat.testBit · i)]
  simp only [testBit_lane]
  by_cases hi : i < 8 * e
  · have hin : 8 * e * L + i < 512 := by have := lane_fits h; omega
    simp only [BitVec.getLsbD_or, BitVec.getLsbD_and, BitVec.getLsbD_not, hin, getLsbD_laneBits k h hi]
    cases k.getLsbD L <;> simp
  · simp [hi]

end Sys2Proof.Machine
end

section
/-! SUPPORT. Float lanes of fixed latency (12 R250, R251, R253), and the statement of O17. -/

namespace Sys2Proof.Machine

/-- An instruction that completes with lanes: what its statement asks of the register follows from the lanes. -/
theorem vectorResult_of_lanes {i : Instr} {m : Bool} {d : BitVec 5} {e : Nat} {on : State → Word} {old : State → Vec}
    {g : State → Nat → Nat} {v : State → Vec → Prop} (hexec : ∀ s, exec i s = s.finishV m d (lanes e (on s) (old s) (g s)))
    (hv : ∀ s w, (∀ L, L < 64 / e → lane e w L = if (on s).getLsbD L then g s L % 2 ^ (8 * e) else lane e (old s) L) → v s w) :
    VectorResult i m d v := by
  intro s hm
  obtain ⟨t, ht, hframe, hadv, hval⟩ := s.finishV_spec m d (lanes e (on s) (old s) (g s)) hm
  exact ⟨t, (hexec s).trans ht, hframe, hadv, hval ▸ hv s _ fun L hL => lane_lanes _ _ _ hL⟩

/-- One that completes with lanes under its mask, whose values are the statement's modulo the lane. -/
theorem laneResult_of_finishV {i : Instr} {m : Bool} {d : BitVec 5} {k : BitVec 3} {e : Nat} {g f : State → Nat → Nat}
    (hexec : ∀ s, exec i s = s.finishV m d (lanes e (s.kreg k) (s.vreg d) (g s))) (hg : ∀ s L, g s L % 2 ^ (8 * e) = f s L) :
    LaneResult i m d k e f :=
  vectorResult_of_lanes hexec fun s w hw L hL => by rw [hw L hL, hg]

/-- Minimum and maximum of two codes of a lane (12 R251). -/
theorem pick_lane (f : FFmt) (max : Bool) (e : Nat) (v w : Vec) (L : Nat) :
    f.pick max (lane e v L) (lane e w L) % 2 ^ (8 * e) =
      if (f.decode (lane e v L)).isNan || (f.decode (lane e w L)).isNan then f.nan % 2 ^ (8 * e)
      else if max then (if (f.decode (lane e v L)).below (f.decode (lane e w L)) then lane e w L else lane e v L)
      else if (f.decode (lane e w L)).below (f.decode (lane e v L)) then lane e w L else lane e v L := by
  simp only [FFmt.pick, apply_ite (· % 2 ^ (8 * e)), lane_mod]

/-- Settles O17: each instruction completes with lanes under the mask, and the value that it gives each lane is the statement's. -/
theorem vectorFloatResults : Obligations.VectorFloatResults := by
  intro m d a b t k e he
  obtain rfl : e = fltBytes t := he
  exact ⟨laneResult_of_finishV (fun _ => rfl) fun _ _ => rfl, laneResult_of_finishV (fun _ => rfl) fun _ _ => rfl,
    laneResult_of_finishV (fun _ => rfl) fun _ _ => rfl, laneResult_of_finishV (fun _ => rfl) fun _ _ => rfl,
    laneResult_of_finishV (fun _ => rfl) fun _ _ => rfl,
    laneResult_of_finishV (fun _ => rfl) fun s L => pick_lane (fltFmt t) false _ (s.vreg a) (s.vreg b) L,
    laneResult_of_finishV (fun _ => rfl) fun s L => pick_lane (fltFmt t) true _ (s.vreg a) (s.vreg b) L,
    laneResult_of_finishV (fun _ => rfl) fun _ _ => rfl, laneResult_of_finishV (fun _ => rfl) fun _ _ => rfl,
    laneResult_of_finishV (fun _ => rfl) fun _ _ => rfl,
    vectorResult_of_lanes (fun _ => rfl) fun s w hw L hL => by rw [hw L hL, lane_mod]⟩

end Sys2Proof.Machine
end

section
/-! SUPPORT. Integer lanes, masks and moves of fixed latency (12 R249, R254, R260, R267), and the statement of O18. -/

namespace Sys2Proof.Machine

/-! ### Integer lanes (12 R249) -/

theorem lane_and (e : Nat) (v w : Vec) (L : Nat) : lane e (v &&& w) L = lane e v L &&& lane e w L := by
  simp only [lane, bitsOf, BitVec.toNat_and, Nat.shiftRight_and_distrib, Nat.and_mod_two_pow]
theorem lane_or (e : Nat) (v w : Vec) (L : Nat) : lane e (v ||| w) L = lane e v L ||| lane e w L := by
  simp only [lane, bitsOf, BitVec.toNat_or, Nat.shiftRight_or_distrib, Nat.or_mod_two_pow]
theorem lane_xor (e : Nat) (v w : Vec) (L : Nat) : lane e (v ^^^ w) L = lane e v L ^^^ lane e w L := by
  simp only [lane, bitsOf, BitVec.toNat_xor, Nat.shiftRight_xor_distrib, Nat.xor_mod_two_pow]

/-- The difference modulo the lane, as the model computes it. -/
theorem add_complement_mod {x y w : Nat} (hy : y ≤ 2 ^ w) :
    (x + (2 ^ w - y)) % 2 ^ w = (((x : Int) - y) % (2 ^ w : Nat)).toNat := by
  have hcast : ((x + (2 ^ w - y) : Nat) : Int) = ((x : Int) - y) + (2 ^ w : Nat) := by omega
  rw [← Int.toNat_natCast ((x + (2 ^ w - y)) % 2 ^ w), Int.natCast_emod, hcast, Int.add_emod_right]

/-- One lane or the other, by their signed order. -/
theorem lesser_lane (e : Nat) (v w x y : Vec) (L : Nat) :
    (if laneLt e (lane e v L) (lane e w L) then lane e x L else lane e y L) % 2 ^ (8 * e) =
      if slane e v L < slane e w L then lane e x L else lane e y L := by
  have horder : laneLt e (lane e v L) (lane e w L) = decide (slane e v L < slane e w L) := rfl
  simp only [horder, decide_eq_true_eq, apply_ite (· % 2 ^ (8 * e)), lane_mod]

theorem lane_shiftRight (e : Nat) (v : Vec) (L n : Nat) : (lane e v L >>> n) % 2 ^ (8 * e) = lane e v L / 2 ^ n := by
  rw [Nat.shiftRight_eq_div_pow, Nat.mod_eq_of_lt (Nat.lt_of_le_of_lt (Nat.div_le_self ..) (lane_lt e v L))]

theorem lane_sshiftRight (e : Nat) (v : Vec) (L n : Nat) :
    ((BitVec.ofNat (8 * e) (lane e v L)).sshiftRight n).toNat % 2 ^ (8 * e) =
      (BitVec.ofInt (8 * e) (slane e v L / (2 ^ n : Nat))).toNat := by
  rw [sshiftRight_eq_ofInt, Nat.mod_eq_of_lt (BitVec.isLt _), Int.natCast_pow]
  rfl

theorem intBytes_eq (t : BitVec 2) : intBytes t = 2 ^ t.toNat := Nat.one_shiftLeft _

/-- Each integer instruction gives its lanes the values of 12 R249. -/
theorem vectorIntegerResults : Parts.VectorIntegerResults := by
  intro m d a b t k e he
  obtain rfl : e = intBytes t := he.trans (intBytes_eq t).symm
  exact ⟨laneResult_of_finishV (fun _ => rfl) fun _ _ => rfl,
    laneResult_of_finishV (fun _ => rfl) fun _ _ => add_complement_mod (Nat.le_of_lt (lane_lt ..)),
    laneResult_of_finishV (fun _ => rfl) fun _ _ => rfl,
    laneResult_of_finishV (fun _ => rfl) fun _ _ => lesser_lane ..,
    laneResult_of_finishV (fun _ => rfl) fun _ _ => lesser_lane ..,
    laneResult_of_finishV (fun _ => rfl) fun _ _ => mod_of_lane_eq (lane_and ..),
    laneResult_of_finishV (fun _ => rfl) fun _ _ => mod_of_lane_eq (lane_or ..),
    laneResult_of_finishV (fun _ => rfl) fun _ _ => mod_of_lane_eq (lane_xor ..),
    laneResult_of_finishV (fun _ => rfl) fun _ _ => congrArg (· % _) (Nat.shiftLeft_eq ..),
    laneResult_of_finishV (fun _ => rfl) fun _ _ => lane_shiftRight ..,
    laneResult_of_finishV (fun _ => rfl) fun _ _ => lane_sshiftRight ..⟩

/-! ### Masks (12 R254, R267) -/

theorem maskResult_of_finishK {i : Instr} {m : Bool} {d : BitVec 3} {v : State → Word} (h : ∀ s, exec i s = s.finishK m d (v s)) :
    MaskResult i m d v := by
  intro s hm
  rw [h s]
  exact s.finishK_spec m d (v s) hm

/-- A lane comparison writes its bits below the lane count (12 R254). -/
theorem maskBits_of_compare {i : Instr} {m : Bool} {d k : BitVec 3} {a b : BitVec 5} {t : BitVec 2} (c : VCmp)
    (h : ∀ s, exec i s = s.compare m d a b t k c) :
    MaskBits i m d k (64 / fltBytes t) fun s L => c.holds (flane t (s.vreg a) L) (flane t (s.vreg b) L) :=
  ⟨fun s => maskResult (64 / fltBytes t) (s.kreg k) (s.kreg d) fun L => c.holds (flane t (s.vreg a) L) (flane t (s.vreg b) L),
    maskResult_of_finishK h, fun _ _ hL => getLsbD_packed _ _ hL⟩

/-- Comparisons, mask operations and moves between masks and scalar registers (12 R254, R267). -/
theorem maskResults : Parts.MaskResults := by
  intro m d k l a b t n hn
  obtain rfl : n = 64 / fltBytes t := by rw [hn, fltBytes]; split <;> rfl
  exact ⟨maskBits_of_compare .eq fun _ => rfl, maskBits_of_compare .lt fun _ => rfl, maskBits_of_compare .le fun _ => rfl,
    maskBits_of_compare .ne fun _ => rfl, maskResult_of_finishK fun _ => rfl, maskResult_of_finishK fun _ => rfl,
    maskResult_of_finishK fun _ => rfl, maskResult_of_finishK fun _ => rfl, maskResult_of_finishK fun _ => rfl,
    scalarResultIf_of_finish fun _ _ => rfl⟩

/-! ### Moves (12 R260) -/

theorem getLsbD_one_shiftLeft {i : Nat} (hi : i < 64) (L : Nat) : (1#64 <<< i).getLsbD L = decide (L = i) := by
  rw [← BitVec.twoPow_eq, BitVec.getLsbD_twoPow, decide_eq_true hi, Bool.true_and]
  exact decide_eq_decide.mpr eq_comm

/-- Broadcast, slide, insertion and extraction of lanes (12 R260). -/
theorem vectorMoves : Parts.VectorMoves := by
  intro m d a b t k e he
  obtain rfl : e = intBytes t := he.trans (intBytes_eq t).symm
  have hlanes : 0 < 64 / intBytes t ∧ 64 / intBytes t ≤ 64 := by revert t; decide
  refine ⟨laneResult_of_finishV (fun _ => rfl) fun _ _ => rfl, laneResult_of_finishV (fun _ => rfl) fun s L => ?_,
    vectorResult_of_lanes (fun _ => rfl) fun s w hw L hL => ?_, scalarResultIf_of_finish fun _ _ => rfl⟩
  · dsimp only
    split
    · exact lane_mod ..
    · exact Nat.zero_mod _
  · have hix : (s.reg b).toNat % (64 / intBytes t) < 64 := Nat.lt_of_lt_of_le (Nat.mod_lt _ hlanes.1) hlanes.2
    simp only [hw L hL, getLsbD_one_shiftLeft hix, decide_eq_true_eq]

/-- Settles O18: the three parts are shown above. -/
theorem vectorFixedResults : Obligations.VectorFixedResults := ⟨vectorIntegerResults, maskResults, vectorMoves⟩

end Sys2Proof.Machine
end

section
/-! SUPPORT. Vector results of variable latency (12 R252, R260 to R266): what an issued result leaves, the lanes that it will write, reductions
and conversions, and the statement of O19. -/

namespace Sys2Proof.Machine

/-! ### Issuing a result -/

/-- The frame of an instruction that leaves operation o: nothing else changes but the position. -/
structure State.LeavesOp (s t : State) (o : Op) : Prop where
  rest : t = { s with cores := t.cores, nextId := s.nextId + 1 }
  others : ∀ c, c ≠ s.curCore → t.core c = s.core c
  core : t.mine = { s.mine with ctxs := t.mine.ctxs, ops := s.mine.ops ++ [o] }
  contexts : ∀ x, x ≠ s.curCtx → t.ctx s.curCore x = s.ctx s.curCore x
  me : t.me = s.me.At t.me
  memory : ∀ p, t.byteAt p = s.byteAt p

/-- The operation that writes a delayed result. -/
def State.resultOp (s : State) (ws : List RegWrite) : Op := { s.newOp with fin := .ready ws, id := s.nextId }

theorem State.issueResult_leaves (s : State) {m : Bool} (hm : s.NoTrapDue m) (ws : List RegWrite) :
    s.LeavesOp (s.issueResult m ws) (s.resultOp ws) ∧ s.Advanced (s.issueResult m ws) m := by
  have hkeeps := State.KeepsIssuer.addOp s s.curCore { s.newOp with fin := .ready ws }
  obtain ⟨⟨⟨⟨hrest, hothers⟩, hcore, hcontexts⟩, hme, hmem⟩, hadv⟩ := State.retire_moves _ m (hkeeps.noTrapDue hm)
  have hadded : (s.addOp s.curCore { s.newOp with fin := .ready ws }).mine = { s.mine with ops := s.mine.ops ++ [s.resultOp ws] } :=
    (State.core_addOp ..).trans (if_pos rfl)
  have hposition := hkeeps.advanced hadv
  obtain ⟨⟨hsame, -, -⟩, -, hbytes⟩ := hkeeps
  refine ⟨⟨hrest, fun c hc => ?_, ?_, fun x hx => ?_, ?_, fun p => (hmem p id).trans (hbytes p)⟩, hposition⟩
  · exact (hothers c hc).trans ((State.core_addOp ..).trans (if_neg hc))
  · rw [hadded] at hcore
    exact hcore
  · refine (hcontexts x hx).trans ?_
    change ((s.addOp s.curCore { s.newOp with fin := .ready ws }).mine).ctx x = s.mine.ctx x
    rw [hadded]
    rfl
  · rw [hsame] at hme
    exact hme

/-- Nothing of u differs from s but the LFSR of the issuing context, which has taken n steps. -/
structure State.StepsLfsr (s u : State) (n : Nat) : Prop extends State.OnlyMe s u where
  me : u.me = { s.me with lfsr := lfsrAt s.me.lfsr n }
  memory : ∀ p, u.byteAt p = s.byteAt p

theorem State.stepsLfsr_zero (s : State) : s.StepsLfsr s 0 := ⟨⟨⟨rfl, fun _ _ => rfl⟩, rfl, fun _ _ => rfl⟩, rfl, fun _ => rfl⟩
theorem State.stepsLfsr_modMe (s : State) (n : Nat) : s.StepsLfsr (s.modMe fun y => { y with lfsr := lfsrAt s.me.lfsr n }) n :=
  ⟨s.onlyMe_modMe _, s.me_modMe _, s.byteAt_modMe _⟩

theorem State.StepsLfsr.advanced {s u t : State} {m : Bool} {n : Nat} (h : s.StepsLfsr u n) (ht : u.Advanced t m) : s.Advanced t m := by
  obtain ⟨hpc, hrep, hst⟩ := ht
  rw [h.me] at hpc hrep
  rw [h.issuer.2] at hst
  exact ⟨hpc, hrep, hst⟩

/-- An instruction that issues a result, after the steps of the LFSR. -/
theorem delays_of_issue {i : Instr} {m : Bool} {n : State → Nat} {ws : State → List RegWrite → Prop} (u : State → State)
    (l : State → List RegWrite) (hexec : ∀ s, exec i s = .next ((u s).issueResult m (l s))) (hu : ∀ s : State, s.StepsLfsr (u s) (n s))
    (hws : ∀ s, ws s (l s)) : Delays (fun _ => True) i m n ws := by
  intro s _ hm
  have hsteps := hu s
  have hdue : (u s).NoTrapDue m := hm.of_ptrap (by rw [hsteps.me])
  obtain ⟨⟨hrest, hothers, hcore, hcontexts, hme, hmem⟩, hadv⟩ := (u s).issueResult_leaves hdue (l s)
  refine ⟨_, l s, hexec s, hws s, hsteps.advanced hadv, ?_⟩
  obtain ⟨hcur, hctx⟩ := hsteps.issuer
  obtain ⟨⟨⟨hrest', hothers'⟩, hcore', hcontexts'⟩, hme', hmem'⟩ := hsteps
  have hid : (u s).nextId = s.nextId := by rw [hrest']
  have hops : (u s).mine.ops = s.mine.ops := by rw [hcore']
  generalize (u s).issueResult m (l s) = t at *
  rw [hcur] at hothers hcontexts
  rw [hctx] at hcontexts
  refine ⟨?_, fun c hc => (hothers c hc).trans (hothers' c hc), ?_, ⟨(u s).resultOp (l s), ?_, hid, hctx, rfl, rfl⟩,
    fun x hx => (hcontexts x hx).trans (hcontexts' x hx), ?_, fun p => (hmem p).trans (hmem' p)⟩
  · exact hrest.trans (congrArg (fun v : State => { v with cores := t.cores, nextId := v.nextId + 1 }) hrest')
  · have hmine := congrArg (fun k : Core => { k with ctxs := t.mine.ctxs, ops := t.mine.ops }) hcore'
    refine Eq.trans ?_ hmine
    rw [hcore]
  · rw [hcore, ← hops]
  · rw [hme'] at hme
    exact hme

/-- A result without a step of the LFSR. -/
theorem delays_of_issue_plain {i : Instr} {m : Bool} {ws : State → List RegWrite → Prop} {l : State → List RegWrite}
    (hexec : ∀ s : State, exec i s = .next (s.issueResult m (l s))) (hws : ∀ s, ws s (l s)) : Delays (fun _ => True) i m (fun _ => 0) ws :=
  delays_of_issue id l hexec State.stepsLfsr_zero hws

/-- A conversion: under stochastic rounding the LFSR takes a step for each of its n elements (02 R55). -/
theorem delays_of_convert {i : Instr} {m : Bool} {r : BitVec 2} {n : Nat} {ws : State → List RegWrite → Prop} {l : State → List RegWrite}
    (hexec : ∀ s : State, exec i s = s.convert m r n (l s)) (hws : ∀ s, ws s (l s)) :
    Delays (fun _ => True) i m (fun s => if s.convMode r = 4 then n else 0) ws := by
  refine delays_of_issue _ l hexec (fun s => ?_) hws
  split
  · exact s.stepsLfsr_modMe n
  · exact s.stepsLfsr_zero

/-! ### The lanes that a result will write -/

/-- A delayed vector result writes its active lanes, modulo the lane. -/
theorem writesLanes_lanes {d : BitVec 5} {v e : Nat} {k : Word} {on : Nat → Bool} {g f : Nat → Nat} (hv : v = d.toNat)
    (hon : ∀ L, L < 64 / e → k.getLsbD L = on L) (hf : ∀ L, g L % 2 ^ (8 * e) = f L) :
    WritesLanes d e on f [.vec v (lanes e k 0 g) (laneBits e k)] := by
  subst hv
  refine ⟨_, _, rfl, fun old L hL => ?_⟩
  rw [lane_merge k _ _ hL, lane_lanes _ _ _ hL, hf, hon L hL]
  split <;> rfl

/-- A function of the values of float lanes. -/
theorem delays_of_floatLanes {i : Instr} {m : Bool} {d a : BitVec 5} {t : BitVec 2} {k : BitVec 3} {f : FVal → Nat}
    (hexec : ∀ s : State, exec i s = s.laneResult m d a (fltBytes t) k fun x => f ((fltFmt t).decode x)) :
    Delays (fun _ => True) i m (fun _ => 0) fun s l => WritesLanes d (fltBytes t) (fun L => (s.kreg k).getLsbD L)
      (fun L => f (flane t (s.vreg a) L) % 2 ^ (8 * fltBytes t)) l :=
  delays_of_issue_plain hexec fun _ => writesLanes_lanes rfl (fun _ _ => rfl) fun _ => rfl

/-! ### Reductions (12 R261, 02 R58) -/

theorem intReduce_add (e : Nat) (l : List Nat) :
    intReduce e (fun x y => x + y) l = BitVec.ofInt 64 (signedOf (8 * e) (l.foldl (fun x y => x + y) 0)) := by
  cases l with
  | nil => simp [intReduce, signedOf]
  | cons x l => rw [List.foldl_cons, Nat.zero_add]; rfl

/-- Choosing the greater by a key, one after another, ends at an element of the greatest key. -/
theorem foldl_greatest (key : Nat → Int) {f : Nat → Nat → Nat} (hf : ∀ x y, f x y = if key x < key y then y else x) (x : Nat) (l : List Nat) :
    l.foldl f x ∈ x :: l ∧ ∀ z ∈ x :: l, key z ≤ key (l.foldl f x) := by
  induction l generalizing x with
  | nil => simp
  | cons y l ih =>
    obtain ⟨hmem, hmax⟩ := ih (f x y)
    have hchoice : (f x y = x ∨ f x y = y) ∧ key x ≤ key (f x y) ∧ key y ≤ key (f x y) := by
      rw [hf]; split <;> refine ⟨by simp, ?_, ?_⟩ <;> omega
    obtain ⟨hone, hx, hy⟩ := hchoice
    have htop := hmax _ List.mem_cons_self
    rw [List.foldl_cons]
    refine ⟨?_, List.forall_mem_cons.mpr ⟨Int.le_trans hx htop, List.forall_mem_cons.mpr ⟨Int.le_trans hy htop, fun z hz => ?_⟩⟩⟩
    · rcases List.mem_cons.mp hmem with hhead | htail
      · rw [hhead]
        rcases hone with h | h <;> simp [h]
      · exact List.mem_cons_of_mem _ (List.mem_cons_of_mem _ htail)
    · exact hmax z (List.mem_cons_of_mem _ hz)

/-- A reduction by a key gives a lane of the greatest key, and zero without lanes. -/
theorem intReduce_greatest (key : Nat → Int) {e : Nat} {f : Nat → Nat → Nat} (hf : ∀ x y, f x y = if key x < key y then y else x)
    (g : Nat → Nat) (ls : List Nat) :
    (ls = [] → intReduce e f (ls.map g) = 0) ∧
      (ls ≠ [] → ∃ L ∈ ls, intReduce e f (ls.map g) = BitVec.ofInt 64 (signedOf (8 * e) (g L)) ∧ ∀ j ∈ ls, key (g j) ≤ key (g L)) := by
  cases ls with
  | nil => exact ⟨fun _ => rfl, fun h => absurd rfl h⟩
  | cons x ls =>
    refine ⟨fun h => absurd h (List.cons_ne_nil x ls), fun _ => ?_⟩
    obtain ⟨hmem, hmax⟩ := foldl_greatest key hf (g x) (ls.map g)
    rw [← List.map_cons] at hmem hmax
    obtain ⟨L, hL, hval⟩ := List.mem_map.mp hmem
    refine ⟨L, hL, ?_, fun j hj => ?_⟩
    · rw [hval]; rfl
    · rw [hval]; exact hmax _ (List.mem_map_of_mem hj)

/-- vredmax and vredmin, integer: the key of the least is the negated value. -/
theorem delays_of_intReduce {i : Instr} {m : Bool} {d a : BitVec 5} {e : Nat} {k : BitVec 3} {f : Nat → Nat → Nat} (up : Bool)
    (hf : ∀ x y, f x y = if up then (if laneLt e x y then y else x) else if laneLt e y x then y else x)
    (hexec : ∀ s : State, exec i s = s.scalarResult m d (intReduce e f (s.activeOf e a k))) :
    Delays (fun _ => True) i m (fun _ => 0) fun s l => ∃ w, l = [.scalar (s.dst d) w] ∧
      (activeLanes (s.kreg k) (64 / e) = [] → w = 0) ∧
      (activeLanes (s.kreg k) (64 / e) ≠ [] → ∃ L ∈ activeLanes (s.kreg k) (64 / e), w = BitVec.ofInt 64 (slane e (s.vreg a) L) ∧
        ∀ j ∈ activeLanes (s.kreg k) (64 / e), if up then slane e (s.vreg a) j ≤ slane e (s.vreg a) L
          else slane e (s.vreg a) L ≤ slane e (s.vreg a) j) := by
  refine delays_of_issue_plain hexec fun s => ⟨_, rfl, ?_⟩
  cases up with
  | true =>
    exact intReduce_greatest (fun x => signedOf (8 * e) x) (fun x y => by simp [hf, laneLt]) (fun L => lane e (s.vreg a) L) _
  | false =>
    obtain ⟨hnone, hsome⟩ := intReduce_greatest (fun x => -signedOf (8 * e) x) (e := e) (f := f) (fun x y => by simp [hf, laneLt])
      (fun L => lane e (s.vreg a) L) (activeLanes (s.kreg k) (64 / e))
    refine ⟨hnone, fun h => ?_⟩
    obtain ⟨L, hL, hval, hmax⟩ := hsome h
    exact ⟨L, hL, hval, fun j hj => Int.neg_le_neg_iff.mp (hmax j hj)⟩

theorem treeStage_none (f : Nat → Nat → Nat) (l : List (Option Nat)) (h : ∀ x ∈ l, x = none) : ∀ x ∈ treeStage f l, x = none := by
  induction l using treeStage.induct with
  | case1 x y l ih =>
    obtain ⟨rfl, rfl, hl⟩ : x = none ∧ y = none ∧ ∀ z ∈ l, z = none := by simpa using h
    exact List.forall_mem_cons.mpr ⟨rfl, ih hl⟩
  | case2 l hshort =>
    rw [treeStage]
    · exact h
    · exact hshort
/-- A tree of operands that are all masked off has none. -/
theorem tree_none (f : Nat → Nat → Nat) (n : Nat) (l : List (Option Nat)) (h : ∀ x ∈ l, x = none) : tree f n l = none := by
  induction n generalizing l with
  | zero =>
    cases l with
    | nil => rfl
    | cons x l => exact h x List.mem_cons_self
  | succ n ih => exact ih _ (treeStage_none f l h)

theorem State.floatReduce_masked_off (s : State) (a : BitVec 5) (t : BitVec 2) (k : BitVec 3) (f : Nat → Nat → Nat)
    (h : ∀ L, L < 64 / fltBytes t → (s.kreg k).getLsbD L = false) : s.floatReduce a t k f = 0 := by
  rw [State.floatReduce]
  dsimp only
  rw [tree_none]
  intro x hx
  obtain ⟨L, hL, rfl⟩ := List.mem_map.mp hx
  rw [h L (List.mem_range.mp hL)]
  rfl

theorem delays_of_floatReduce {i : Instr} {m : Bool} {d a : BitVec 5} {t : BitVec 2} {k : BitVec 3} (f : State → Nat → Nat → Nat)
    (hexec : ∀ s : State, exec i s = s.scalarResult m d (s.floatReduce a t k (f s))) :
    Delays (fun _ => True) i m (fun _ => 0) fun s l => ∃ w, l = [.scalar (s.dst d) w] ∧ w = s.floatReduce a t k (f s) ∧
      ((∀ L, L < 64 / fltBytes t → (s.kreg k).getLsbD L = false) → w = 0) :=
  delays_of_issue_plain hexec fun s => ⟨_, rfl, rfl, s.floatReduce_masked_off a t k (f s)⟩

/-- Reciprocals, roots and powers, vperm and the reductions (12 R252, R260, R261). -/
theorem delayedVectorResults : Parts.DelayedVectorResults := by
  intro m d a b t k e g he hg
  obtain rfl : e = intBytes t := he.trans (intBytes_eq t).symm
  obtain rfl : g = fltBytes t := hg
  refine ⟨fun i f hi => ?_, ?_, ?_, fun i up hi => ?_, fun i f hi => ?_⟩
  · simp only [List.mem_cons, Prod.mk.injEq, List.not_mem_nil, or_false] at hi
    refine delays_of_floatLanes fun s => ?_
    obtain ⟨rfl, rfl⟩ | ⟨rfl, rfl⟩ | ⟨rfl, rfl⟩ := hi <;> rfl
  · exact delays_of_issue_plain (fun _ => rfl) fun _ => writesLanes_lanes rfl (fun _ _ => rfl) fun _ => lane_mod ..
  · exact delays_of_issue_plain (fun _ => rfl) fun s => congrArg (fun w => [RegWrite.scalar (s.dst d) w]) (intReduce_add ..)
  · simp only [List.mem_cons, Prod.mk.injEq, List.not_mem_nil, or_false] at hi
    obtain ⟨rfl, rfl⟩ | ⟨rfl, rfl⟩ := hi
    · exact delays_of_intReduce true (fun _ _ => rfl) fun _ => rfl
    · exact delays_of_intReduce false (fun _ _ => rfl) fun _ => rfl
  · simp only [List.mem_cons, Prod.mk.injEq, List.not_mem_nil, or_false] at hi
    refine delays_of_floatReduce f fun s => ?_
    obtain ⟨rfl, rfl⟩ | ⟨rfl, rfl⟩ | ⟨rfl, rfl⟩ := hi <;> rfl

/-! ### Block images (12 R264) -/

theorem mxBits_le (f : Nat) : mxBits f ≤ 8 := by
  unfold mxBits
  split <;> decide

section
variable {f : Nat} (hf : f ≠ 16) (s : Nat) (q : Nat → Nat)
include hf

theorem bitsOf_blockImage_scale : bitsOf (blockImage f s q).toNat 256 8 = s % 256 := by
  have hcodes : packLanes (mxBits f) q 32 < 2 ^ 256 :=
    Nat.lt_of_lt_of_le (packLanes_lt ..) (Nat.pow_le_pow_right Nat.two_pos (Nat.mul_le_mul_right 32 (mxBits_le f)))
  refine Eq.trans ?_ (bitsOf_above hcodes s 8)
  rw [blockImage, if_neg hf, bitsOf_ofNat (by decide)]

theorem bitsOf_blockImage_code {j : Nat} (hj : j < 32) :
    bitsOf (blockImage f s q).toNat (mxBits f * j) (mxBits f) = q j % 2 ^ mxBits f := by
  have hbelow : mxBits f * j + mxBits f ≤ 256 := by
    rw [← Nat.mul_succ]; exact Nat.mul_le_mul (mxBits_le f) hj
  rw [blockImage, if_neg hf, bitsOf_ofNat (Nat.le_trans hbelow (by decide)), bitsOf_add_mul hbelow, bitsOf_packLanes _ _ hj]
end

/-! ### Conversions (12 R262 to R266) -/

/-- vcvt writes the active lanes among the n that it converts, and every lane above them (12 R263). -/
theorem getLsbD_converted (n : Nat) (k : Word) {L : Nat} (h : L < 64) :
    (BitVec.ofNat 64 (packLanes 1 (fun j => if j < n then (k.getLsbD j).toNat else 1) 64)).getLsbD L = (decide (n ≤ L) || k.getLsbD L) := by
  have hbool : ∀ j, (if j < n then (k.getLsbD j).toNat else 1) = (decide (n ≤ j) || k.getLsbD j).toNat := fun j => by
    by_cases hj : j < n
    · simp [hj, Nat.not_le.mpr hj]
    · simp [hj, Nat.not_lt.mp hj]
  simp only [hbool]
  rw [getLsbD_packed _ _ h, if_pos h]

section
variable (m : Bool) (d a g : BitVec 5) (r : BitVec 2) (k : BitVec 3) (c : BitVec 5)

/-- vcvt: the lanes above those it converts take zero (12 R263). -/
theorem vcvt_delays : Delays (fun _ => True) (.vcvt m d a g r k c) m
    (fun s => if s.convMode r = 4 then 64 / max (elemBytes c.toNat) (elemBytes g.toNat) else 0)
    (fun s l => WritesLanes d (elemBytes g.toNat)
      (fun L => decide (64 / max (elemBytes c.toNat) (elemBytes g.toNat) ≤ L) || (s.kreg k).getLsbD L)
      (fun L => if 64 / max (elemBytes c.toNat) (elemBytes g.toNat) ≤ L then 0 else
        codeEncode g.toNat (s.convRm r L) (codeValue c.toNat (lane (elemBytes c.toNat) (s.vreg a) L)) %
          2 ^ (8 * elemBytes g.toNat)) l) := by
  refine delays_of_convert (fun _ => rfl) fun s => writesLanes_lanes rfl (fun L hL => ?_) fun L => ?_
  · exact getLsbD_converted _ _ (Nat.lt_of_lt_of_le hL (Nat.div_le_self ..))
  · rw [apply_ite (· % 2 ^ (8 * elemBytes g.toNat)), Nat.zero_mod]

/-- vquant to the formats but EC8 (12 R265). -/
theorem vquant_delays (hg : g.toNat ≠ 16) : Delays (fun _ => True) (.vquant m d a g r k c) m (fun s => if s.convMode r = 4 then 32 else 0)
    (fun s l => ∃ (img : Vec) (x : Nat → FVal) (sc : Nat), l = [.vec d.toNat img (BitVec.allOnes 512)] ∧
      (∀ j, j < 32 → x j = if (s.kreg k).getLsbD j then s.blockSource a c.toNat j else .zero) ∧
      sc = chooseScale g.toNat ((List.range 32).map x ++ [(fp32.decode (lane 4 (s.vreg d) 15)).abs]) ∧
      bitsOf img.toNat 256 8 = sc % 256 ∧ ∀ j, j < 32 →
        bitsOf img.toNat (mxBits g.toNat * j) (mxBits g.toNat) = mxConvert g.toNat sc (s.convRm r j) (x j) % 2 ^ mxBits g.toNat) :=
  delays_of_convert (fun _ => rfl) fun s => ⟨_, fun j => if (s.kreg k).getLsbD j then s.blockSource a c.toNat j else .zero, _, rfl,
    fun _ _ => rfl, rfl, bitsOf_blockImage_scale hg .., fun _ hj => bitsOf_blockImage_code hg _ _ hj⟩

theorem elemBytes_of_dequantised {g : Nat} (hg : 6 ≤ g ∧ g ≤ 8) : elemBytes g = if g = 8 then 4 else 2 := by
  obtain rfl | rfl | rfl : g = 6 ∨ g = 7 ∨ g = 8 := by omega
  all_goals rfl

/-- vdequant: one register of 2-byte lanes, or two of 4-byte lanes (12 R266). -/
theorem vdequant_delays (hwf : (Instr.vdequant m d a g r k c).wf = true) :
    Delays (fun _ => True) (.vdequant m d a g r k c) m (fun s => if s.convMode r = 4 then 32 else 0)
      (fun s l => (g.toNat ≠ 8 → WritesLanes d 2 (fun L => (s.kreg k).getLsbD L)
          (fun L => codeEncode g.toNat (s.convRm r L) (imageValue c.toNat (s.vreg a) L) % 2 ^ 16) l) ∧
        (g.toNat = 8 → ∃ l1 l2, l = l1 ++ l2 ∧
          WritesLanes d 4 (fun L => (s.kreg k).getLsbD L)
            (fun L => codeEncode g.toNat (s.convRm r L) (imageValue c.toNat (s.vreg a) L) % 2 ^ 32) l1 ∧
          WritesLanes (d + 1) 4 (fun L => (s.kreg k).getLsbD (16 + L))
            (fun L => codeEncode g.toNat (s.convRm r (16 + L)) (imageValue c.toNat (s.vreg a) (16 + L)) % 2 ^ 32) l2)) := by
  have hpair : vdequantPair g.toNat c.toNat d.toNat = true := hwf
  simp only [vdequantPair, Bool.and_eq_true, Bool.or_eq_true, decide_eq_true_eq, bne_iff_ne, beq_iff_eq] at hpair
  obtain ⟨⟨⟨⟨hlo, hhi⟩, -⟩, -⟩, heven⟩ := hpair
  have he := elemBytes_of_dequantised ⟨hlo, hhi⟩
  refine delays_of_convert (fun _ => rfl) fun s => ⟨fun hg => ?_, fun hg => ?_⟩
  · rw [if_neg hg] at he
    simp only [he]
    exact writesLanes_lanes rfl (fun L _ => by simp) fun L => by simp
  · rw [if_pos hg] at he
    have hnext : d.toNat + 1 = (d + 1).toNat := by
      have hparity := heven.resolve_left (fun h => h hg)
      bv_omega
    simp only [he]
    exact ⟨[_], [_], rfl, writesLanes_lanes rfl (fun L _ => by simp) fun L => by simp,
      writesLanes_lanes hnext (fun L _ => by simp) fun L => by simp⟩
end

/-- Each conversion is shown above. -/
theorem conversionResults : Parts.ConversionResults := fun m d a g r k c =>
  ⟨fun _ => vcvt_delays m d a g r k c, fun _ hg => vquant_delays m d a g r k c hg, vdequant_delays m d a g r k c⟩

/-- Settles O19: both parts are shown above. -/
theorem delayedResults : Obligations.DelayedResults := ⟨delayedVectorResults, conversionResults⟩

end Sys2Proof.Machine
end

section
/-! SUPPORT. A vector load from the TCM behind an element store that has not performed (07 R160, 08 R183): the refutation of O20. What
the statement asks of the lanes leaves out such a store, as those about single accesses do (O11 to O14), and the model holds each lane behind it
(`Core.elementOn`). -/

namespace Sys2Proof.Machine

/-- The address of lane L of the doublewords at register 17. -/
def doublewordAt (L : Nat) : Addr := 0x80000000000200 + BitVec.ofNat 56 (8 * L)

/-- Eight lanes of 8 bytes from there on are aligned bytes of the TCM. -/
theorem tcmAddr_doublewordAt {L : Nat} (h : L < 8) : TcmAddr (doublewordAt L) (tcmOff (doublewordAt L)) 8 := by
  have hfits : ∀ L, L < 8 → (doublewordAt L).toNat = 2 ^ 55 + tcmOff (doublewordAt L) ∧ tcmOff (doublewordAt L) + 8 ≤ 0x10000 ∧
      tcmOff (doublewordAt L) % 8 = 0 := by decide
  obtain ⟨hva, htop, haligned⟩ := hfits L h
  exact ⟨hva, htop, haligned⟩

/-- The load of them is held behind the element store, although it names other bytes. -/
theorem vectorLoad_held : ctxStateAfter (exec (.vld false 0 17 3 0) elementWaiting) = some .held := by decide +kernel

/-- Refutes O20 at vld of eight doublewords: the load is held behind the element store, and so it has not moved on. -/
theorem not_tcmVectorAccesses : ¬ Obligations.TcmVectorAccesses := by
  intro h
  obtain ⟨hload, -⟩ := h false 0 17 0 3 0 8 rfl (.vld false 0 17 3 0) (.vst false 0 17 3 0)
    (fun s L => ptrVa (s.reg 17) + BitVec.ofNat 56 (8 * L)) List.mem_cons_self
  have hva : ∀ L, ptrVa (elementWaiting.reg 17) + BitVec.ofNat 56 (8 * L) = doublewordAt L := fun L => by
    rw [elementWaiting_ptrVa, doublewordAt]
  have hin : ∀ L ∈ activeLanes (elementWaiting.kreg 0) (64 / 8), L < 8 := fun L hL => List.mem_range.mp (List.mem_filter.mp hL).1
  obtain ⟨t, o, hexec, -, ⟨-, -, hst⟩, -⟩ := hload elementWaiting
    (fun L hL => ⟨hva L ▸ tcmAddr_doublewordAt (hin L hL), elementWaiting_accessFree ..⟩) elementWaiting_noTrap
  have hheld := vectorLoad_held
  rw [hexec] at hheld
  rw [Option.some.inj hheld] at hst
  split at hst <;> cases hst

end Sys2Proof.Machine
end

section
/-! SUPPORT. Instructions that stop or go on step by step, and the tile instructions that use no memory (13 R268, R272, R274, R283): the
checks of a tile, the frame of a write of one tile, and the statement of O32. -/

namespace Sys2Proof.Machine

/-! ### Running an instruction step by step -/

theorem bind_stop {α β : Type} {a : M α} {s : State} {e : Stop} (h : a s = .error e) (k : α → M β) : (a >>= k) s = .error e := by
  show (a s).bind _ = _
  rw [h]; rfl

/-- A step that answers leaves the rest of the instruction. -/
theorem runM_passes {α : Type} {a : M α} {s : State} {x : α} (h : a s = .ok (x, s)) (k : α → M Unit) : runM (a >>= k) s = runM (k x) s := by
  simp only [runM, bind_ok h k]
/-- A step that holds the context ends the instruction there. -/
theorem runM_waits {α : Type} {a : M α} {s u : State} (h : a s = .error (.wait u)) (k : α → M Unit) : runM (a >>= k) s = .next u := by
  simp only [runM, bind_stop h k]
/-- A step that faults discards what came before it. -/
theorem runM_faults {α : Type} {a : M α} {s : State} {f : FaultInfo} (h : a s = .error (.fault f)) (k : α → M Unit) :
    runM (a >>= k) s = .next (s.faultHere f) := by
  simp only [runM, bind_stop h k]

/-! ### What a tile instruction checks first (13 R272, R274, R283) -/

section
variable {s : State} {t : Nat}

theorem notBusyM_idle (h : s.mine.tileBusy t = false) : notBusyM t s = .ok ((), s) := if_neg (by simp [h])
theorem notBusyM_busy (h : s.mine.tileBusy t = true) : notBusyM t s = .error (.wait s.heldHere) := if_pos h
theorem configuredM_shaped (h : (s.mine.tile t).rows ≠ 0) : configuredM t s = .ok ((), s) := if_neg h
theorem configuredM_unshaped (h : (s.mine.tile t).rows = 0) :
    configuredM t s = .error (.fault { cause := .tileUnconf, info := BitVec.ofNat 32 t, addr := 0, undeliv := false }) := if_pos h
theorem unpoisonedM_clean (h : (s.mine.tile t).psn = false) : unpoisonedM t s = .ok ((), s) := if_neg (by simp [h])
theorem unpoisonedM_poisoned (h : (s.mine.tile t).psn = true) :
    unpoisonedM t s = .error (.fault { cause := .poison, info := BitVec.ofNat 32 t, addr := 0, undeliv := false }) := if_pos h

/-- A tile that is not LAZY is not loaded. -/
theorem touchTileM_loaded {c : Nat} (h : ((s.core c).tile t).st ≠ 3) : touchTileM c t s = .ok ((), s) := by
  unfold touchTileM
  rw [bind_getM ((s.core c).tile t) rfl, if_neg h]
  rfl

theorem shapeOk_rows {rows rowb fmt : Nat} (h : shapeOk rows rowb fmt = true) : rows ≠ 0 := by
  simp only [shapeOk, Bool.and_eq_true, decide_eq_true_eq] at h
  omega

theorem shapeOk_rowb {rows rowb fmt : Nat} (h : shapeOk rows rowb fmt = true) : rowb ≤ 64 := by
  simp only [shapeOk, Bool.and_eq_true, decide_eq_true_eq] at h
  omega

theorem tileReadyM_ready (h : TileReady s t) : tileReadyM t s = .ok ((), s) := by
  obtain ⟨hidle, hshape, hloaded⟩ := h
  unfold tileReadyM
  rw [bind_ok (notBusyM_idle hidle), bind_ok (configuredM_shaped (shapeOk_rows hshape)), bind_getM s.curCore rfl]
  exact touchTileM_loaded hloaded
theorem tileReadyM_busy (h : s.mine.tileBusy t = true) : tileReadyM t s = .error (.wait s.heldHere) := bind_stop (notBusyM_busy h) _
theorem tileReadyM_unshaped (hidle : s.mine.tileBusy t = false) (h : (s.mine.tile t).rows = 0) :
    tileReadyM t s = .error (.fault { cause := .tileUnconf, info := BitVec.ofNat 32 t, addr := 0, undeliv := false }) := by
  unfold tileReadyM
  rw [bind_ok (notBusyM_idle hidle)]
  exact bind_stop (configuredM_unshaped h) _
end

section
variable (m : Bool) (t : BitVec 3) (a : BitVec 5) (i : BitVec 6) (s : State)

/-- The instructions that need the tile's content wait for it and check its shape before anything else. -/
theorem exec_tileReady {k : Instr} (hk : k ∈ [Instr.tldr m t a i, .tstr m t a i, .tvrow m t a i, .trowv m t a i, .tvcol m t a i,
    .tcolv m t a i, .tsave m t]) : ∃ rest, exec k s = runM (tileReadyM t.toNat >>= rest) s := by
  simp only [List.mem_cons, List.not_mem_nil, or_false] at hk
  rcases hk with rfl | rfl | rfl | rfl | rfl | rfl | rfl <;> exact ⟨_, rfl⟩

/-- Those that read the tile check its poison next. -/
theorem exec_unpoisoned {k : Instr} (hk : k ∈ [Instr.tstr m t a i, .trowv m t a i, .tcolv m t a i]) :
    ∃ rest, exec k s = runM (tileReadyM t.toNat >>= fun _ => unpoisonedM t.toNat >>= rest) s := by
  simp only [List.mem_cons, List.not_mem_nil, or_false] at hk
  rcases hk with rfl | rfl | rfl <;> exact ⟨_, rfl⟩

/-- tcfg and tzero wait for the tile as well. -/
theorem exec_notBusy {k : Instr} (hk : k ∈ [Instr.tcfg m t a, .tzero m t]) : ∃ rest, exec k s = runM (notBusyM t.toNat >>= rest) s := by
  simp only [List.mem_cons, List.not_mem_nil, or_false] at hk
  rcases hk with rfl | rfl <;> exact ⟨_, rfl⟩

variable {m t a i s}

theorem exec_tile_busy (h : s.mine.tileBusy t.toNat = true) {k : Instr} (hk : k ∈ [Instr.tcfg m t a, .tzero m t, .tldr m t a i, .tstr m t a i,
    .tvrow m t a i, .trowv m t a i, .tvcol m t a i, .tcolv m t a i, .tsave m t]) : exec k s = .next s.heldHere := by
  rcases List.mem_append.mp (show k ∈ [Instr.tcfg m t a, .tzero m t] ++ _ from hk) with hk | hk
  · obtain ⟨rest, hexec⟩ := exec_notBusy m t a s hk
    rw [hexec, runM_waits (notBusyM_busy h)]
  · obtain ⟨rest, hexec⟩ := exec_tileReady m t a i s hk
    rw [hexec, runM_waits (tileReadyM_busy h)]

theorem exec_tile_unshaped (hidle : s.mine.tileBusy t.toNat = false) (h : (s.mine.tile t.toNat).rows = 0) {k : Instr}
    (hk : k ∈ [Instr.tzero m t, .tldr m t a i, .tstr m t a i, .tvrow m t a i, .trowv m t a i, .tvcol m t a i, .tcolv m t a i, .tsave m t]) :
    exec k s = .next (s.faultHere { cause := .tileUnconf, info := BitVec.ofNat 32 t.toNat, addr := 0, undeliv := false }) := by
  rcases List.mem_cons.mp hk with rfl | hk
  · exact (runM_passes (notBusyM_idle hidle) _).trans (runM_faults (configuredM_unshaped h) _)
  · obtain ⟨rest, hexec⟩ := exec_tileReady m t a i s hk
    rw [hexec, runM_faults (tileReadyM_unshaped hidle h)]

theorem exec_tile_poisoned (hready : TileReady s t.toNat) (h : (s.mine.tile t.toNat).psn = true) {k : Instr}
    (hk : k ∈ [Instr.tstr m t a i, .trowv m t a i, .tcolv m t a i]) :
    exec k s = .next (s.faultHere { cause := .poison, info := BitVec.ofNat 32 t.toNat, addr := 0, undeliv := false }) := by
  obtain ⟨rest, hexec⟩ := exec_unpoisoned m t a i s hk
  rw [hexec, runM_passes (tileReadyM_ready hready), runM_faults (unpoisonedM_poisoned h)]
end

/-! ### The frame of a tile instruction -/

/-! An instruction that only moves on leaves every tile. -/

theorem State.Moves.tile_eq {s u : State} (h : s.Moves u) (n : Nat) : u.mine.tile n = s.mine.tile n := by
  rw [h.core]; rfl
theorem State.Moves.tileFrame {s u : State} (h : s.Moves u) (n : Nat) : TileFrame s u n :=
  ⟨h.toOnlyMine, by rw [h.core], h.contexts, h.me, fun j _ => h.tile_eq j, fun p => h.memory p id⟩

/-- A write of one tile, and the position moved on. -/
theorem State.setTile_retire (s : State) {m : Bool} (hm : s.NoTrapDue m) (n : Nat) (v : Tile) :
    s.Advanced ((s.setTile n v).retire m) m ∧ TileFrame s ((s.setTile n v).retire m) n ∧ ((s.setTile n v).retire m).mine.tile n = v := by
  have hkeeps : s.KeepsIssuer (s.setTile n v) := .modCore s s.curCore (fun k => k.setTile n v) rfl
  have hmine : (s.setTile n v).mine = s.mine.setTile n v := (State.core_modCore ..).trans (if_pos rfl)
  obtain ⟨⟨⟨⟨hrest, hothers⟩, hcore, hcontexts⟩, hme, hmem⟩, hadv⟩ := State.retire_moves _ m (hkeeps.noTrapDue hm)
  have hposition := hkeeps.advanced hadv
  obtain ⟨⟨hsame, -, -⟩, -, hbytes⟩ := hkeeps
  rw [hmine] at hcore
  have htile (j : Nat) : ((s.setTile n v).retire m).mine.tile j = if j = n then v else s.mine.tile j := by
    rw [hcore]; exact Core.tile_setTile ..
  refine ⟨hposition, ⟨⟨hrest, fun c hc => ?_⟩, ?_, fun x hx => ?_, ?_, fun j hj => ?_, fun p => (hmem p id).trans (hbytes p)⟩, ?_⟩
  · exact (hothers c hc).trans ((State.core_modCore ..).trans (if_neg hc))
  · rw [hcore]; rfl
  · exact (hcontexts x hx).trans (congrArg (fun k : Core => k.ctx x) hmine :)
  · rwa [hsame] at hme
  · rw [htile, if_neg hj]
  · rw [htile, if_pos rfl]

/-! ### tcfg and tzero (13 R274) -/

section
variable {m : Bool} {t : BitVec 3} {a : BitVec 5} {s : State}

theorem exec_tcfg_valid (hidle : s.mine.tileBusy t.toNat = false)
    (h : fld (s.reg a) 0 5 = 0 ∨ shapeOk (fld (s.reg a) 0 5) (fld (s.reg a) 8 7) (fld (s.reg a) 16 5) = true) :
    exec (.tcfg m t a) s = .next ((s.setTile t.toNat
      (Tile.mk (fld (s.reg a) 0 5) (fld (s.reg a) 8 7) (fld (s.reg a) 16 5) 0 false [])).retire m) := by
  refine (runM_passes (notBusyM_idle hidle) _).trans ?_
  rw [if_pos h]
  rfl

theorem exec_tcfg_invalid (hidle : s.mine.tileBusy t.toNat = false) (hrows : fld (s.reg a) 0 5 ≠ 0)
    (h : shapeOk (fld (s.reg a) 0 5) (fld (s.reg a) 8 7) (fld (s.reg a) 16 5) = false) : exec (.tcfg m t a) s = .next (s.faultHere
      { cause := .illegal, info := encodeWord (.tcfg m t a), addr := 0, undeliv := false }) := by
  refine (runM_passes (notBusyM_idle hidle) _).trans ?_
  rw [if_neg (by simp [hrows, h])]
  rfl

theorem exec_tzero (hidle : s.mine.tileBusy t.toNat = false) (hrows : (s.mine.tile t.toNat).rows ≠ 0) : exec (.tzero m t) s =
    .next ((s.setTile t.toNat { s.mine.tile t.toNat with st := 0, psn := false, content := [] }).retire m) := by
  refine (runM_passes (notBusyM_idle hidle) _).trans ?_
  exact runM_passes (configuredM_shaped hrows) _
end

/-! ### Rows under their mask (01 R20, 13 R268) -/

section
variable (v : Tile) (w : Vec) {e r j : Nat}

@[simp] theorem Tile.row_setRow (i : Nat) : (v.setRow i w).row j = if j = i then w else v.row j := by
  unfold Tile.setRow Tile.row
  dsimp only
  split
  · next h => rw [tget_tdel, h]
  · exact tget_tset ..

theorem Tile.getLsbD_rowMask (b : Nat) : (v.rowMask r).getLsbD b = (decide (b < 512) && decide (r < v.rows) && decide (b < 8 * v.rowb)) := by
  unfold Tile.rowMask
  split
  · next h => rw [BitVec.getLsbD_ofNat, Nat.testBit_two_pow_sub_one, decide_eq_true h, Bool.and_true]
  · next h => simp [h]

/-- A lane inside the shape passes the row's mask. -/
theorem Tile.lane_masked_inside (hr : r < v.rows) (hj : e * (j + 1) ≤ v.rowb) : lane e (w &&& v.rowMask r) j = lane e w j := by
  refine Nat.eq_of_testBit_eq fun b => ?_
  simp only [testBit_lane, BitVec.getLsbD_and, v.getLsbD_rowMask, decide_eq_true hr, Bool.and_true]
  by_cases hb : b < 8 * e
  · have hin : 8 * e * j + b < 8 * v.rowb := by
      have : 8 * e * j = 8 * (e * j) := Nat.mul_assoc ..
      rw [Nat.mul_succ] at hj
      omega
    by_cases htop : 8 * e * j + b < 512
    · simp [hb, hin, htop]
    · simp [BitVec.getLsbD_of_ge _ _ (Nat.le_of_not_lt htop)]
  · simp [hb]

/-- A byte outside the shape does not. -/
theorem Tile.lane_masked_outside (h : ¬ (r < v.rows ∧ j < v.rowb)) : lane 1 (w &&& v.rowMask r) j = 0 := by
  refine Nat.eq_of_testBit_eq fun b => ?_
  simp only [testBit_lane, BitVec.getLsbD_and, v.getLsbD_rowMask, Nat.zero_testBit]
  by_cases hb : b < 8 * 1
  · by_cases hr : r < v.rows
    · have hout : ¬ 8 * 1 * j + b < 8 * v.rowb := by omega
      simp [hout]
    · simp [hr]
  · simp [hb]
end

/-- Element j of a row of n bytes lies within them. -/
theorem elem_fits {e n j : Nat} (h : j < n / e) : e * (j + 1) ≤ n := Nat.le_trans (Nat.mul_le_mul_left e h) (Nat.mul_div_le n e)

/-- A tile whose first n rows have been replaced in order, each by a function of what its shape holds. -/
def Tile.mapRows (v : Tile) (g : Nat → Vec → Vec) (n : Nat) : Tile :=
  (List.range n).foldl (fun (u : Tile) r => u.setRow r (g r (u.rowData r))) v

section
variable (v : Tile) (g : Nat → Vec → Vec) (n : Nat)

theorem Tile.mapRows_succ : v.mapRows g (n + 1) = (v.mapRows g n).setRow n (g n ((v.mapRows g n).rowData n)) := by
  simp only [Tile.mapRows, List.range_succ, List.foldl_append, List.foldl_cons, List.foldl_nil]

/-- The shape stays. -/
theorem Tile.mapRows_shape : v.mapRows g n = { v with content := (v.mapRows g n).content } := by
  induction n with
  | zero => rfl
  | succ n ih => rw [Tile.mapRows_succ, ih]; rfl

theorem Tile.row_mapRows (j : Nat) : (v.mapRows g n).row j = if j < n then g j (v.rowData j) else v.row j := by
  induction n generalizing j with
  | zero => rfl
  | succ n ih =>
    have hdata : (v.mapRows g n).rowData n = v.rowData n := by
      have hmask : (v.mapRows g n).rowMask n = v.rowMask n := by rw [v.mapRows_shape g n]; rfl
      rw [Tile.rowData, ih, if_neg (Nat.lt_irrefl n), hmask, Tile.rowData]
    rw [Tile.mapRows_succ, Tile.row_setRow, hdata, ih]
    rcases Nat.lt_trichotomy j n with h | rfl | h
    · rw [if_neg (Nat.ne_of_lt h), if_pos h, if_pos (Nat.lt_succ_of_lt h)]
    · rw [if_pos rfl, if_pos (Nat.lt_succ_self j)]
    · rw [if_neg (Nat.ne_of_gt h), if_neg (Nat.not_lt_of_gt h), if_neg (Nat.not_lt_of_ge h)]
end

/-! ### Rows and columns (13 R274) -/

section
variable {m : Bool} {t : BitVec 3} {a : BitVec 5} {i : BitVec 6} {s : State}

/-- The tile that tvrow leaves when the row lies inside the shape. -/
def Tile.withRow (v : Tile) (i : Nat) (w : Vec) : Tile := { v.setRow i (w &&& v.rowMask i) with st := 2 }
/-- The tile that tvcol leaves when the column lies inside the shape. -/
def Tile.withColumn (v : Tile) (i : Nat) (w : Vec) : Tile :=
  { v.mapRows (fun r old => lanes (fmtBytes v.fmt) (1#64 <<< i) old fun _ => lane (fmtBytes v.fmt) w r) v.rows with st := 2 }

theorem exec_tvrow (h : TileReady s t.toNat) : exec (.tvrow m t a i) s = .next ((if (s.mine.tile t.toNat).rows ≤ i.toNat then s
    else s.setTile t.toNat ((s.mine.tile t.toNat).withRow i.toNat (s.vreg a))).retire m) :=
  (runM_passes (tileReadyM_ready h) _).trans rfl

theorem exec_tvcol (h : TileReady s t.toNat) : exec (.tvcol m t a i) s =
    .next ((if (s.mine.tile t.toNat).rowb / fmtBytes (s.mine.tile t.toNat).fmt ≤ i.toNat then s
    else s.setTile t.toNat ((s.mine.tile t.toNat).withColumn i.toNat (s.vreg a))).retire m) :=
  (runM_passes (tileReadyM_ready h) _).trans rfl

theorem exec_trowv (h : TileReady s t.toNat) (hclean : (s.mine.tile t.toNat).psn = false) : exec (.trowv m t a i) s =
    .next (s.issueResult m [.vec a.toNat ((s.mine.tile t.toNat).rowData i.toNat) (BitVec.allOnes 512)]) :=
  (runM_passes (tileReadyM_ready h) _).trans ((runM_passes (unpoisonedM_clean hclean) _).trans rfl)

/-- The register that tcolv gives. -/
def Tile.column (v : Tile) (i : Nat) : Vec := lanes (fmtBytes v.fmt) (BitVec.allOnes 64) 0 fun r =>
  if r < v.rows ∧ i < v.rowb / fmtBytes v.fmt then lane (fmtBytes v.fmt) (v.rowData r) i else 0

theorem exec_tcolv (h : TileReady s t.toNat) (hclean : (s.mine.tile t.toNat).psn = false) : exec (.tcolv m t a i) s =
    .next (s.issueResult m [.vec a.toNat ((s.mine.tile t.toNat).column i.toNat) (BitVec.allOnes 512)]) :=
  (runM_passes (tileReadyM_ready h) _).trans ((runM_passes (unpoisonedM_clean hclean) _).trans rfl)

theorem Tile.lane_rowData_byte (v : Tile) (r j : Nat) : lane 1 (v.rowData r) j = if r < v.rows ∧ j < v.rowb then lane 1 (v.row r) j else 0 := by
  split
  · next h => exact v.lane_masked_inside _ h.1 (by omega)
  · next h => exact v.lane_masked_outside _ h

theorem Tile.lane_column (v : Tile) (i : Nat) {j : Nat} (hj : j < 64 / fmtBytes v.fmt) : lane (fmtBytes v.fmt) (v.column i) j =
    if j < v.rows ∧ i < v.rowb / fmtBytes v.fmt then lane (fmtBytes v.fmt) (v.row j) i else 0 := by
  have hon : (BitVec.allOnes 64).getLsbD j = true := by
    rw [BitVec.getLsbD_allOnes, decide_eq_true (Nat.lt_of_lt_of_le hj (Nat.div_le_self ..))]
  rw [Tile.column, lane_lanes _ _ _ hj, if_pos hon]
  split
  · next h => rw [lane_mod, Tile.rowData, v.lane_masked_inside _ h.1 (elem_fits h.2)]
  · exact Nat.zero_mod _

theorem Tile.row_withRow (v : Tile) (i : Nat) (w : Vec) (r : Nat) : (v.withRow i w).row r = if r = i then w &&& v.rowMask i else v.row r :=
  Tile.row_setRow ..

/-- A column inside the shape changes its element of each row and no other inside the shape. -/
theorem Tile.lane_withColumn (v : Tile) {i r j : Nat} (w : Vec) (hi : i < 64) (hr : r < v.rows) (hb : v.rowb ≤ 64)
    (hj : j < v.rowb / fmtBytes v.fmt) : lane (fmtBytes v.fmt) ((v.withColumn i w).row r) j =
      if j = i then lane (fmtBytes v.fmt) w r else lane (fmtBytes v.fmt) (v.row r) j := by
  have hrow : (v.withColumn i w).row r = _ := v.row_mapRows _ v.rows r
  rw [hrow, if_pos hr, lane_lanes _ _ _ (Nat.lt_of_lt_of_le hj (Nat.div_le_div_right hb)), getLsbD_one_shiftLeft hi, lane_mod, Tile.rowData,
    v.lane_masked_inside _ hr (elem_fits hj)]
  simp only [decide_eq_true_eq]
end

section
variable {m : Bool} {t : BitVec 3} {a : BitVec 5} {i : BitVec 6} {s : State} (hm : s.NoTrapDue m) (hready : TileReady s t.toNat)
include hm hready

/-- tvrow: a row inside the shape takes the register's bytes; one outside it leaves the tile. -/
theorem tvrow_writes : ∃ u, exec (.tvrow m t a i) s = .next u ∧ s.Advanced u m ∧ TileFrame s u t.toNat ∧
    (i.toNat < (s.mine.tile t.toNat).rows → (u.mine.tile t.toNat).st = 2 ∧
      (∀ j, j < (s.mine.tile t.toNat).rowb → lane 1 ((u.mine.tile t.toNat).row i.toNat) j = lane 1 (s.vreg a) j) ∧
      ∀ r, r ≠ i.toNat → (u.mine.tile t.toNat).row r = (s.mine.tile t.toNat).row r) ∧
    ((s.mine.tile t.toNat).rows ≤ i.toNat → u.mine.tile t.toNat = s.mine.tile t.toNat) := by
  rw [exec_tvrow hready]
  split
  · next hout =>
    obtain ⟨hmoves, hadv⟩ := s.retire_moves m hm
    exact ⟨_, rfl, hadv, hmoves.tileFrame _, fun hin => absurd hin (Nat.not_lt_of_le hout), fun _ => hmoves.tile_eq _⟩
  · next hin =>
    obtain ⟨hadv, hframe, htile⟩ := s.setTile_retire hm t.toNat ((s.mine.tile t.toNat).withRow i.toNat (s.vreg a))
    refine ⟨_, rfl, hadv, hframe, fun hrow => ?_, fun hout => absurd hout hin⟩
    simp only [htile, Tile.row_withRow, if_true]
    exact ⟨rfl, fun j hj => Tile.lane_masked_inside _ _ hrow (by omega), fun r hr => if_neg hr⟩

/-- tvcol: a column inside the shape takes the register's lanes; one outside it leaves the tile. -/
theorem tvcol_writes : ∃ u, exec (.tvcol m t a i) s = .next u ∧ s.Advanced u m ∧ TileFrame s u t.toNat ∧
    (i.toNat < (s.mine.tile t.toNat).rowb / fmtBytes (s.mine.tile t.toNat).fmt → (u.mine.tile t.toNat).st = 2 ∧
      ∀ r, r < (s.mine.tile t.toNat).rows → ∀ j, j < (s.mine.tile t.toNat).rowb / fmtBytes (s.mine.tile t.toNat).fmt →
        lane (fmtBytes (s.mine.tile t.toNat).fmt) ((u.mine.tile t.toNat).row r) j =
          if j = i.toNat then lane (fmtBytes (s.mine.tile t.toNat).fmt) (s.vreg a) r
          else lane (fmtBytes (s.mine.tile t.toNat).fmt) ((s.mine.tile t.toNat).row r) j) ∧
    ((s.mine.tile t.toNat).rowb / fmtBytes (s.mine.tile t.toNat).fmt ≤ i.toNat → u.mine.tile t.toNat = s.mine.tile t.toNat) := by
  rw [exec_tvcol hready]
  split
  · next hout =>
    obtain ⟨hmoves, hadv⟩ := s.retire_moves m hm
    exact ⟨_, rfl, hadv, hmoves.tileFrame _, fun hin => absurd hin (Nat.not_lt_of_le hout), fun _ => hmoves.tile_eq _⟩
  · next hin =>
    obtain ⟨hadv, hframe, htile⟩ := s.setTile_retire hm t.toNat ((s.mine.tile t.toNat).withColumn i.toNat (s.vreg a))
    refine ⟨_, rfl, hadv, hframe, fun _ => ?_, fun hout => absurd hout hin⟩
    rw [htile]
    exact ⟨rfl, fun r hr j hj => Tile.lane_withColumn _ _ i.isLt hr (shapeOk_rowb hready.shape) hj⟩
end

/-- A result that is issued where P holds. -/
theorem delays_where {P : State → Prop} {i : Instr} {m : Bool} {ws : State → List RegWrite → Prop} (l : State → List RegWrite)
    (hexec : ∀ s, P s → exec i s = .next (s.issueResult m (l s))) (hws : ∀ s, P s → ws s (l s)) : Delays P i m (fun _ => 0) ws := by
  intro s hs hm
  obtain ⟨⟨hrest, hothers, hcore, hcontexts, hme, hmem⟩, hadv⟩ := s.issueResult_leaves hm (l s)
  refine ⟨_, l s, hexec s hs, hws s hs, hadv, hrest, hothers, ?_, ⟨s.resultOp (l s), ?_, rfl, rfl, rfl, rfl⟩, hcontexts, hme, hmem⟩
  · rw [hcore]
  · rw [hcore]

/-- Settles O32: the checks come in the order of 13 R274, and each instruction writes its tile alone or leaves a result. -/
theorem tileRegisters : Obligations.TileRegisters := by
  intro m t a i
  refine ⟨delays_of_issue_plain (fun _ => rfl) fun _ => rfl, delays_where _ (fun s h => exec_trowv h.1 h.2) fun s _ => ⟨_, rfl, fun j _ => ?_⟩,
    delays_where _ (fun s h => exec_tcolv h.1 h.2) fun s _ => ⟨_, rfl, ?_⟩, fun s hm => ⟨fun hbusy k hk => ?_, fun hidle hrows k hk => ?_,
    fun hready hpsn k hk => ?_, fun hidle => ⟨fun hvalid => ?_, fun hrows hshape => ?_, fun hrows => ?_⟩, fun hready => ⟨?_, ?_⟩⟩⟩
  · exact Tile.lane_rowData_byte ..
  · rintro e rfl j hj
    exact Tile.lane_column _ _ hj
  · obtain ⟨hmoves, hst, hpc, -⟩ := s.heldHere_moves
    exact ⟨_, exec_tile_busy hbusy hk, hmoves, hst, hpc⟩
  · exact exec_tile_unshaped hidle hrows hk
  · exact exec_tile_poisoned hready hpsn hk
  · exact ⟨_, exec_tcfg_valid hidle hvalid, s.setTile_retire hm ..⟩
  · exact exec_tcfg_invalid hidle hrows hshape
  · exact ⟨_, exec_tzero hidle hrows, s.setTile_retire hm ..⟩
  · exact tvrow_writes hm hready
  · rintro e rfl
    exact tvcol_writes hm hready

end Sys2Proof.Machine
end

section
/-! SUPPORT. A tile row loaded from the TCM behind an element store that has not performed (07 R160, 08 R183): the refutation of O33. The
statement about tldr excludes a watchpoint and an acquire, and not such a store, as those about single accesses do (O11 to O14). -/

namespace Sys2Proof.Machine

/-- A tile of one row of four signed bytes. -/
def oneRow : Tile := { rows := 1, rowb := 4, fmt := 1, st := 0, psn := false, content := [] }
/-- `elementWaiting`, with that tile as tile 0. -/
def tileAndElement : State := elementWaiting.setTile 0 oneRow

theorem tileAndElement_tile : tileAndElement.mine.tile 0 = oneRow := by decide +kernel
theorem tileAndElement_ready : TileReady tileAndElement 0 where
  idle := by decide +kernel
  shape := by decide +kernel
  loaded := by decide +kernel
theorem tileAndElement_ptrVa : ptrVa (tileAndElement.reg 17) = 0x80000000000200 := by decide +kernel
theorem tileAndElement_accessFree (va : Addr) (n : Nat) (rd wr : Bool) : tileAndElement.AccessFree va n rd wr where
  watch := by
    have hoff : (tileAndElement.dbgOf (clusterOf tileAndElement.curCore)).bken = false := by decide +kernel
    simp [State.watchHit, hoff]
  acquires := by decide +kernel

/-- The load of the row is held behind the element store, although it names other bytes. -/
theorem rowLoad_held : ctxStateAfter (exec (.tldr false 0 17 0) tileAndElement) = some .held := by decide +kernel

/-- Refutes O33 at tldr of a row of four bytes in the TCM: the load is held behind the element store, and so it has not moved on. -/
theorem not_tileMemory : ¬ Obligations.TileMemory := by
  intro h
  obtain ⟨-, hrow, -⟩ := h false 0 17 0 tileAndElement 0x200 4 oneRow (fun h => absurd h Bool.false_ne_true) tileAndElement_ready
    tileAndElement_tile.symm rfl
  obtain ⟨hload, -⟩ := hrow (by decide) (by rw [tileAndElement_ptrVa]; decide) (by decide) (by decide) (by decide)
  obtain ⟨u, o, hexec, -, hadv, -⟩ := hload (tileAndElement_accessFree ..)
  exact not_advanced_of_held rowLoad_held hexec hadv

end Sys2Proof.Machine
end

section
/-! SUPPORT. The matrix instructions (13 R275 to R283, R287): engine registers, the fences before an engine command, the checks of mma and
mmar in their order, and the statement of O34. -/

namespace Sys2Proof.Machine

/-! ### Completing after work that keeps the issuer -/

theorem State.KeepsIssuer.retire {s u : State} {m : Bool} (h : s.KeepsIssuer u) (hm : s.NoTrapDue m) :
    u.Moves (u.retire m) ∧ s.Advanced (u.retire m) m ∧ s.SameRegisters (u.retire m) ∧ ∀ p, (u.retire m).byteAt p = s.byteAt p := by
  obtain ⟨hmoves, hadv⟩ := u.retire_moves m (h.noTrapDue hm)
  have hposition := h.advanced hadv
  obtain ⟨⟨-, hcur, hctx⟩, hregs, hmem⟩ := h
  refine ⟨hmoves, hposition, fun e => ?_, fun p => (hmoves.memory p id).trans (hmem p)⟩
  have hmoved := hmoves.sameRegisters e
  rw [hcur, hctx] at hmoved
  exact hmoved.trans (hregs e)

/-! ### mxw (13 R275, R276) -/

/-- Engine register n: MXK, MXSA, MXSB, MXCFG or MXBAR. -/
def Core.engine (k : Core) (n : Nat) : Word :=
  match n with
  | 0 => k.mxk.setWidth 64
  | 1 => k.mxsa.setWidth 64
  | 2 => k.mxsb.setWidth 64
  | 3 => k.mxcfg
  | _ => k.mxbar
/-- A core whose engine register n has been written. -/
def Core.setEngine (k : Core) (n : Nat) (v : Word) : Core :=
  match n with
  | 0 => { k with mxk := v.setWidth 17 }
  | 1 => { k with mxsa := v.setWidth 32 }
  | 2 => { k with mxsb := v.setWidth 32 }
  | 3 => { k with mxcfg := v &&& 0x0000FFFF1FFF000F }
  | _ => { k with mxbar := v &&& 0xFFFFFFFFFFFFFFE1 }

section
variable (s : State) (c x : Nat) (k : Core) {n : Nat} (v : Word)

theorem State.csrRead_engine (hn : n < 5) : s.csrRead c x (0x200 + n) = (s.core c).engine n := by
  obtain rfl | rfl | rfl | rfl | rfl : n = 0 ∨ n = 1 ∨ n = 2 ∨ n = 3 ∨ n = 4 := by omega
  all_goals rfl
theorem State.csrWrite_engine (hn : n < 5) (w : Option CsrWriter) :
    s.csrWrite c x (0x200 + n) v w = s.modCore c fun k => k.setEngine n v := by
  obtain rfl | rfl | rfl | rfl | rfl : n = 0 ∨ n = 1 ∨ n = 2 ∨ n = 3 ∨ n = 4 := by omega
  all_goals rfl
/-- A write of an engine register changes no context and no memory. -/
theorem Core.setEngine_keeps (n : Nat) : k.setEngine n v =
    { k.setEngine n v with ctxs := k.ctxs, ram := k.ram, tcm := k.tcm, scratch := k.scratch } := by
  unfold Core.setEngine
  split <;> rfl

theorem setWidth_setWidth_eq_and {j : Nat} : (v.setWidth j).setWidth 64 = v &&& BitVec.ofNat 64 (2 ^ j - 1) := by
  rw [setWidth_setWidth_eq_ofNat, ← Nat.and_two_pow_sub_one_eq_mod, BitVec.ofNat_and, BitVec.ofNat_toNat, BitVec.setWidth_eq]

/-- The engine registers among those that a write sets field by field: which bits each keeps. -/
theorem engine_of_plain {mask : Nat} (hn : n < 6) (h : (0x200 + n, mask) ∈ plainCsrs) :
    n < 5 ∧ (k.setEngine n v).engine n = v &&& BitVec.ofNat 64 mask := by
  have hcases : n = 0 ∧ mask = 0x1FFFF ∨ n = 1 ∧ mask = 0xFFFFFFFF ∨ n = 2 ∧ mask = 0xFFFFFFFF ∨ n = 3 ∧ mask = 0x0000FFFF1FFF000F ∨
      n = 4 ∧ mask = 0xFFFFFFFFFFFFFFE1 := by
    simp only [plainCsrs, List.mem_cons, Prod.mk.injEq, List.not_mem_nil, or_false] at h
    omega
  obtain ⟨rfl, rfl⟩ | ⟨rfl, rfl⟩ | ⟨rfl, rfl⟩ | ⟨rfl, rfl⟩ | ⟨rfl, rfl⟩ := hcases
  · exact ⟨by decide, setWidth_setWidth_eq_and (j := 17) v⟩
  · exact ⟨by decide, setWidth_setWidth_eq_and (j := 32) v⟩
  · exact ⟨by decide, setWidth_setWidth_eq_and (j := 32) v⟩
  · exact ⟨by decide, rfl⟩
  · exact ⟨by decide, rfl⟩
end

/-- A write of a register of the issuing core that touches no context and no memory, and the position moved on. -/
theorem State.csrFrame_modCore (s : State) {m : Bool} (hm : s.NoTrapDue m) (f : Core → Core)
    (hf : f s.mine = { f s.mine with ctxs := s.mine.ctxs, ram := s.mine.ram, tcm := s.mine.tcm, scratch := s.mine.scratch }) :
    s.Advanced ((s.modCore s.curCore f).retire m) m ∧ CsrFrame s ((s.modCore s.curCore f).retire m) ∧
      ((s.modCore s.curCore f).retire m).mine = { f s.mine with ctxs := ((s.modCore s.curCore f).retire m).mine.ctxs } := by
  have hkeeps := State.KeepsIssuer.modCore s s.curCore f hf
  have hmine : (s.modCore s.curCore f).mine = f s.mine := (State.core_modCore ..).trans (if_pos rfl)
  obtain ⟨⟨⟨⟨hrest, hothers⟩, hcore, hcontexts⟩, hme, -⟩, hadv, -, hmem⟩ := hkeeps.retire hm
  obtain ⟨⟨hsame, -, -⟩, -, -⟩ := hkeeps
  rw [hmine] at hcore
  refine ⟨hadv, ⟨hrest, fun c hc => ?_, fun x hx => ?_, ?_, hmem⟩, hcore⟩
  · exact (hothers c hc).trans ((State.core_modCore ..).trans (if_neg hc))
  · refine (hcontexts x hx).trans (State.ctx_modCore_of_ctxs s s.curCore f ?_ ..)
    exact (congrArg Core.ctxs hf :)
  · rw [hsame] at hme
    exact ⟨(congrArg Ctx.globs hme :), (congrArg Ctx.vecs hme :), (congrArg Ctx.masks hme :),
      (congrArg Core.ram hcore :).trans (congrArg Core.ram hf :)⟩

theorem exec_mxw_writes {m : Bool} {a : BitVec 5} {r : BitVec 8} {s : State} {mask : Nat} (hm : s.NoTrapDue m) (hr : r.toNat < 6)
    (h : (0x200 + r.toNat, mask) ∈ plainCsrs) : ∃ u, exec (.mxw m a r) s = .next u ∧ s.Advanced u m ∧ CsrFrame s u ∧
      u.csrRead s.curCore s.curCtx (0x200 + r.toNat) = s.reg a &&& BitVec.ofNat 64 mask := by
  obtain ⟨hlt, hval⟩ := engine_of_plain s.mine (s.reg a) hr h
  have hr5 : r ≠ 5 := by
    rintro rfl
    exact absurd hlt (by decide)
  obtain ⟨hadv, hframe, hmine⟩ := s.csrFrame_modCore hm (fun k => k.setEngine r.toNat (s.reg a)) (Core.setEngine_keeps s.mine (s.reg a) r.toNat)
  refine ⟨_, ?_, hadv, hframe, ?_⟩
  · refine (if_neg fun h => hr5 h.1).trans ?_
    rw [State.csrWrite_engine _ _ _ _ hlt]
  · have hcur : ((s.modCore s.curCore fun k => k.setEngine r.toNat (s.reg a)).retire m).curCore = s.curCore := by rw [hframe.rest]
    rw [State.mine, hcur] at hmine
    rw [State.csrRead_engine _ _ _ hlt, ← hval, hmine]
    rfl

/-! ### The fences before an engine command (07 R161, R172) -/

section
variable {s : State} (h : EngineFree s)
include h

theorem engineM_free : engineM s = .ok ((), pastFences s) := by
  obtain ⟨hwait, hwords, -⟩ := h
  simp only [engineM, hwait, hwords, List.any_nil, Bool.false_and, Bool.false_eq_true, if_false]
  rfl

theorem me_pastFences : (pastFences s).me = s.me := by
  obtain ⟨hwait, hwords, -⟩ := h
  refine (State.me_modMe ..).trans ?_
  rw [← hwait, ← hwords]

/-- Nothing is left to wait for, and the context is as it was. -/
theorem pastFences_moves : s.Moves (pastFences s) :=
  ⟨State.onlyMe_modMe .., by rw [me_pastFences h]; rfl, fun p _ => State.byteAt_modMe ..⟩
theorem pastFences_keeps : s.KeepsIssuer (pastFences s) :=
  ⟨⟨me_pastFences h, rfl, rfl⟩, (pastFences_moves h).sameRegisters, fun _ => State.byteAt_modMe ..⟩

theorem pastFences_held : s.Moves (pastFences s).heldHere ∧ (pastFences s).heldHere.me.st = .held ∧ (pastFences s).heldHere.me.pc = s.me.pc := by
  obtain ⟨hmoves, hst, hpc, -⟩ := (pastFences s).heldHere_moves
  have hme := hmoves.me
  rw [me_pastFences h] at hme hpc
  refine ⟨⟨?_, hme, fun p hp => (hmoves.memory p hp).trans (State.byteAt_modMe ..)⟩, hst, hpc⟩
  rw [State.heldHere, pastFences, State.modMe_modMe]
  exact State.onlyMe_modMe ..

theorem acquireM_pastFences : acquireM (pastFences s) = .ok ((), pastFences s) := by
  obtain ⟨-, -, hacq⟩ := h
  have hops : (pastFences s).mine.opsOf (pastFences s).curCtx = s.mine.opsOf s.curCtx := by
    rw [pastFences, State.mine_modMe]; rfl
  refine if_neg ?_
  rw [hops, List.any_eq_true]
  rintro ⟨o, ho, hop⟩
  simp only [Bool.and_eq_true, Bool.not_eq_true'] at hop
  rw [hacq o ho hop.1] at hop
  exact absurd hop.2 Bool.true_eq_false_eq_False.elim

/-- An engine command goes on past the fences and acquires before it. -/
theorem engine_passes (k : Unit → M Unit) : (engineM >>= fun _ => acquireM >>= k) s = k () (pastFences s) :=
  (bind_ok (engineM_free h) _).trans (bind_ok (acquireM_pastFences h) k)
end

/-! ### The checks of an operation (13 R280) -/

/-- What an instruction that began in s answers with its result. -/
def State.answer (s : State) (r : Except Stop (Unit × State)) : Out :=
  match r with
  | .ok (_, t) => .next t
  | .error (.wait t) => .next t
  | .error (.fault f) => .next (s.faultHere f)
  | .error (.trap t) => .next (s.localTrap s.curCore s.curCtx t)

theorem runM_eq_answer (a : M Unit) (s : State) : runM a s = s.answer (a s) := rfl

/-- Operands at their alignment in main memory and no barrier object: the checks of orders 5 and 6 pass. -/
theorem operandsM_passes {o : MxOp} {s u : State} {a b : Word} (h : OperandsOk s a b) (ha : o.a = a) (hb : o.b = b) (hsa : o.sa = s.mine.mxsa)
    (hsb : o.sb = s.mine.mxsb) (hbar : o.bar = s.mine.mxbar) : operandsM o u = .ok ((), u) := by
  obtain ⟨halignA, halignB, hstrideA, hstrideB, hmainA, hmainB, hnone⟩ := h
  have hobj : barVa s.mine.mxbar = 0 := by rw [barVa, hnone]; rfl
  unfold operandsM alignM
  rw [ha, hb, hsa, hsb, hbar, if_pos halignA, if_pos halignB]
  simp only [pure_bind, hstrideA, hstrideB, hmainA, hmainB, hobj, ne_eq, not_true_eq_false, or_self, if_false, if_true,
    Bool.false_eq_true]
  rfl

/-- A group without a LAZY tile is loaded already. -/
theorem forIn_touchTileM {s : State} {c : Nat} {ts : List Nat} (h : ∀ i ∈ ts, ((s.core c).tile i).st ≠ 3) :
    (forIn ts PUnit.unit fun i _ => do
      touchTileM c i
      pure (ForInStep.yield PUnit.unit) : M PUnit) s = .ok (PUnit.unit, s) := by
  induction ts with
  | nil => rfl
  | cons i ts ih =>
    rw [List.forIn_cons, bind_assoc, bind_ok (touchTileM_loaded (h i List.mem_cons_self)), pure_bind]
    exact ih fun j hj => h j (List.mem_cons_of_mem i hj)

/-- The queue of the issuing core with an operation more. -/
def State.queueMx (s : State) (o : MxOp) : State :=
  { s.modCore s.curCore fun k => { k with mxq := k.mxq ++ [{ o with id := s.nextId }] } with nextId := s.nextId + 1 }

/-- The checks of mma on tiles that are at hand, from the pair on, and the place in the queue. -/
def checkedMma (m : Bool) (word : BitVec 32) (o : MxOp) (shapes : Nat → Bool) (poisoned : Option Nat) : M Unit :=
  match pairOk o.a o.b o.k with
  | none => illegalM word
  | some dst =>
    if !groupOk o.grp o.tile || !shapes dst then illegalM word
    else match (if o.acc then poisoned else none) with
      | some i => faultM .poison (BitVec.ofNat 32 i) 0
      | none => operandsM o >>= fun _ => modM (fun s => s.queueMx o) >>= fun _ => retireM m

/-- What mma does past the fences: it waits for its tiles and a place in the queue, and the tiles are checked and loaded. -/
def placedMma (m : Bool) (word : BitVec 32) (o : MxOp) (c : Nat) (k : Core) : M Unit :=
  if (groupTiles o.grp o.tile).any (fun i => k.tileBusy i) || decide (4 ≤ k.mxq.length) then holdM
  else match (groupTiles o.grp o.tile).find? fun i => (k.tile i).rows == 0 with
    | some i => faultM .tileUnconf (BitVec.ofNat 32 i) 0
    | none =>
      if o.acc then (forIn (groupTiles o.grp o.tile) PUnit.unit fun i _ => do
          touchTileM c i
          pure (ForInStep.yield PUnit.unit)) >>= fun _ =>
        checkedMma m word o (k.groupShapes o.grp o.tile) ((groupTiles o.grp o.tile).find? fun i => (k.tile i).psn)
      else checkedMma m word o (k.groupShapes o.grp o.tile) ((groupTiles o.grp o.tile).find? fun i => (k.tile i).psn)

/-- The operation that mma and mmar capture (13 R275). -/
def State.captured (s : State) (t : BitVec 3) (a b : BitVec 5) (n : BitVec 1) : MxOp :=
  s.captureMx t.toNat (decide (n = 1)) (s.reg a) (s.reg b)

theorem exec_mma (m : Bool) (t : BitVec 3) (a b : BitVec 5) (n : BitVec 1) (s : State) : exec (.mma m t a b n) s =
    runM (engineM >>= fun _ => acquireM >>= fun _ => placedMma m (encodeWord (.mma m t a b n))
      (s.captured t a b n) s.curCore s.mine) s := rfl

section
variable {m : Bool} {word : BitVec 32} {o : MxOp} {c : Nat} {k : Core} {u : State}

theorem placedMma_waits (h : (∃ i ∈ groupTiles o.grp o.tile, k.tileBusy i = true) ∨ 4 ≤ k.mxq.length) :
    placedMma m word o c k u = .error (.wait u.heldHere) := by
  have hwait : ((groupTiles o.grp o.tile).any (fun i => k.tileBusy i) || decide (4 ≤ k.mxq.length)) = true := by
    simpa only [Bool.or_eq_true, List.any_eq_true, decide_eq_true_eq] using h
  rw [placedMma, if_pos hwait]
  rfl

section
variable (hidle : ∀ i ∈ groupTiles o.grp o.tile, k.tileBusy i = false) (hroom : k.mxq.length < 4)
include hidle hroom

theorem placedMma_ready : ¬ ((groupTiles o.grp o.tile).any (fun i => k.tileBusy i) || decide (4 ≤ k.mxq.length)) = true := by
  simp only [Bool.or_eq_true, List.any_eq_true, decide_eq_true_eq]
  rintro (⟨i, hi, hbusy⟩ | hfull)
  · rw [hidle i hi] at hbusy
    exact absurd hbusy Bool.false_ne_true
  · omega

/-- A group with a tile without a shape faults at its first one. -/
theorem placedMma_unshaped (h : ∃ i ∈ groupTiles o.grp o.tile, (k.tile i).rows = 0) : ∃ i ∈ groupTiles o.grp o.tile, (k.tile i).rows = 0 ∧
    placedMma m word o c k u = .error (.fault { cause := .tileUnconf, info := BitVec.ofNat 32 i, addr := 0, undeliv := false }) := by
  obtain ⟨j, hj, hrows⟩ := h
  cases hfind : (groupTiles o.grp o.tile).find? fun i => (k.tile i).rows == 0 with
  | none => exact absurd (beq_iff_eq.mpr hrows) (List.find?_eq_none.mp hfind j hj)
  | some i =>
    refine ⟨i, List.mem_of_find?_eq_some hfind, beq_iff_eq.mp (List.find?_some hfind :), ?_⟩
    rw [placedMma, if_neg (placedMma_ready hidle hroom), hfind]
    rfl

/-- A group of shaped tiles at hand goes on to the checks of its operation. -/
theorem placedMma_checks (hshaped : ∀ i ∈ groupTiles o.grp o.tile, (k.tile i).rows ≠ 0)
    (hloaded : ∀ i ∈ groupTiles o.grp o.tile, ((u.core c).tile i).st ≠ 3) : placedMma m word o c k u =
      checkedMma m word o (k.groupShapes o.grp o.tile) ((groupTiles o.grp o.tile).find? fun i => (k.tile i).psn) u := by
  have hfind : ((groupTiles o.grp o.tile).find? fun i => (k.tile i).rows == 0) = none :=
    List.find?_eq_none.mpr fun i hi hrows => hshaped i hi (beq_iff_eq.mp hrows)
  rw [placedMma, if_neg (placedMma_ready hidle hroom), hfind]
  dsimp only
  split
  · exact bind_ok (forIn_touchTileM hloaded) _
  · rfl
end

theorem checkedMma_illegal {shapes : Nat → Bool} {poisoned : Option Nat} (h : pairOk o.a o.b o.k = none ∨ groupOk o.grp o.tile = false) :
    checkedMma m word o shapes poisoned u = .error (.fault { cause := .illegal, info := word, addr := 0, undeliv := false }) := by
  cases hpair : pairOk o.a o.b o.k with
  | none =>
    rw [checkedMma, hpair]
    rfl
  | some dst =>
    rw [checkedMma, hpair, h.resolve_left fun hnone => by rw [hnone] at hpair; cases hpair]
    rfl

theorem checkedMma_queues {shapes : Nat → Bool} {dst : Nat} (hpair : pairOk o.a o.b o.k = some dst) (hgroup : groupOk o.grp o.tile = true)
    (hshapes : shapes dst = true) (hoperands : operandsM o u = .ok ((), u)) :
    checkedMma m word o shapes none u = .ok ((), (u.queueMx o).retire m) := by
  unfold checkedMma
  rw [hpair]
  simp only [hgroup, hshapes, Bool.not_true, Bool.or_self, Bool.false_eq_true, if_false, ite_self]
  exact bind_ok hoperands _
end

/-! ### mma (13 R280, R283) -/

/-- Queueing an operation changes the queue alone. -/
theorem State.queueMx_keeps (u : State) (o : MxOp) : u.KeepsIssuer (u.queueMx o) := by
  obtain ⟨issuer, registers, memory⟩ := State.KeepsIssuer.modCore u u.curCore (fun k => { k with mxq := k.mxq ++ [{ o with id := u.nextId }] }) rfl
  exact ⟨issuer, registers, memory⟩
theorem State.mine_queueMx (u : State) (o : MxOp) : (u.queueMx o).mine = { u.mine with mxq := u.mine.mxq ++ [{ o with id := u.nextId }] } :=
  (State.core_modCore u u.curCore u.curCore fun k => { k with mxq := k.mxq ++ [{ o with id := u.nextId }] }).trans (if_pos rfl)

section
variable {m : Bool} {t : BitVec 3} {a b : BitVec 5} {n : BitVec 1} {s : State} (hfree : EngineFree s)
include hfree

theorem exec_mma_waits (h : (∃ i ∈ groupTiles (fld s.mine.mxcfg 1 3) t.toNat, s.mine.tileBusy i = true) ∨ 4 ≤ s.mine.mxq.length) :
    exec (.mma m t a b n) s = .next (pastFences s).heldHere := by
  rw [exec_mma, runM_eq_answer, engine_passes hfree, placedMma_waits h]
  rfl

variable (hidle : ∀ i ∈ groupTiles (fld s.mine.mxcfg 1 3) t.toNat, s.mine.tileBusy i = false) (hroom : s.mine.mxq.length < 4)
include hidle hroom

theorem exec_mma_unshaped (h : ∃ i ∈ groupTiles (fld s.mine.mxcfg 1 3) t.toNat, (s.mine.tile i).rows = 0) :
    ∃ i ∈ groupTiles (fld s.mine.mxcfg 1 3) t.toNat, (s.mine.tile i).rows = 0 ∧ exec (.mma m t a b n) s = .next (s.faultHere
      { cause := .tileUnconf, info := BitVec.ofNat 32 i, addr := 0, undeliv := false }) := by
  obtain ⟨i, hi, hrows, hfault⟩ := placedMma_unshaped (m := m) (word := encodeWord (.mma m t a b n)) (c := s.curCore) (u := pastFences s)
    (o := s.captured t a b n) hidle hroom h
  refine ⟨i, hi, hrows, ?_⟩
  rw [exec_mma, runM_eq_answer, engine_passes hfree, hfault]
  rfl

variable (htiles : ∀ i ∈ groupTiles (fld s.mine.mxcfg 1 3) t.toNat, (s.mine.tile i).rows ≠ 0 ∧ (s.mine.tile i).st ≠ 3)
include htiles

theorem exec_mma_checks : exec (.mma m t a b n) s = s.answer (checkedMma m (encodeWord (.mma m t a b n))
    (s.captured t a b n) (s.mine.groupShapes (fld s.mine.mxcfg 1 3) t.toNat)
    ((groupTiles (fld s.mine.mxcfg 1 3) t.toNat).find? fun i => (s.mine.tile i).psn) (pastFences s)) := by
  rw [exec_mma, runM_eq_answer, engine_passes hfree]
  refine congrArg s.answer (placedMma_checks hidle hroom (fun i hi => (htiles i hi).1) fun i hi => ?_)
  have htile := (pastFences_moves hfree).tile_eq i
  rw [State.mine] at htile
  exact htile ▸ (htiles i hi).2

theorem exec_mma_illegal (h : pairOk (s.reg a) (s.reg b) s.mine.mxk.toNat = none ∨ groupOk (fld s.mine.mxcfg 1 3) t.toNat = false) :
    exec (.mma m t a b n) s = .next (s.faultHere { cause := .illegal, info := encodeWord (.mma m t a b n), addr := 0, undeliv := false }) := by
  rw [exec_mma_checks hfree hidle hroom htiles, checkedMma_illegal (o := s.captured t a b n) h]
  rfl

theorem exec_mma_queues (hm : s.NoTrapDue m) {dst : Nat} (hpair : pairOk (s.reg a) (s.reg b) s.mine.mxk.toNat = some dst)
    (hgroup : groupOk (fld s.mine.mxcfg 1 3) t.toNat = true) (hshapes : s.mine.groupShapes (fld s.mine.mxcfg 1 3) t.toNat dst = true)
    (hclean : ∀ i ∈ groupTiles (fld s.mine.mxcfg 1 3) t.toNat, (s.mine.tile i).psn = false) (hops : OperandsOk s (s.reg a) (s.reg b)) :
    ∃ u o, exec (.mma m t a b n) s = .next u ∧ s.Advanced u m ∧ s.SameRegisters u ∧ (∀ p, u.byteAt p = s.byteAt p) ∧
      u.mine.tiles = s.mine.tiles ∧ u.mine.mxq = s.mine.mxq ++ [o] ∧ o.issuer = some s.curCtx ∧
      Captured s o t.toNat (decide (n = 1)) (s.reg a) (s.reg b) := by
  have hpoison : ((groupTiles (fld s.mine.mxcfg 1 3) t.toNat).find? fun i => (s.mine.tile i).psn) = none :=
    List.find?_eq_none.mpr fun i hi hpsn => by rw [hclean i hi] at hpsn; cases hpsn
  obtain ⟨hmoves, hadv, hregs, hmem⟩ :=
    ((pastFences_keeps hfree).trans ((pastFences s).queueMx_keeps (s.captured t a b n))).retire hm
  have hcore := hmoves.core
  rw [State.mine_queueMx, (pastFences_moves hfree).core] at hcore
  refine ⟨_, { s.captured t a b n with id := s.nextId }, ?_, hadv, hregs, hmem,
    (congrArg Core.tiles hcore :), (congrArg Core.mxq hcore :), rfl, ⟨rfl, rfl, rfl, rfl, rfl, rfl, rfl⟩, ⟨rfl, rfl, rfl⟩, ⟨rfl, rfl, rfl⟩,
    rfl, rfl, rfl, rfl, rfl⟩
  rw [exec_mma_checks hfree hidle hroom htiles, hpoison,
    checkedMma_queues (o := s.captured t a b n) hpair hgroup hshapes (operandsM_passes hops rfl rfl rfl rfl rfl)]
  rfl
end

/-! ### mmar (13 R287) -/

/-- The groups that a remote command carries: those of GRP0 to GRP3 that are valid. -/
def Core.groups (k : Core) : List (BitVec 8) := (List.range 4).filterMap fun i =>
  if (tget k.grp i 0).getLsbD 8 then some ((tget k.grp i 0).setWidth 8) else none

theorem Core.mem_groups (k : Core) (g : BitVec 8) :
    g ∈ k.groups ↔ ∃ j, j < 4 ∧ (tget k.grp j 0).getLsbD 8 = true ∧ (tget k.grp j 0).setWidth 8 = g := by
  simp only [Core.groups, List.mem_filterMap, List.mem_range, Option.ite_none_right_eq_some, Option.some.injEq]

/-- The command that mmar sends. -/
def State.mmarPkt (s : State) (o : MxOp) : Pkt :=
  .mmar (fld s.mine.mxcfg 16 13) { o with issuer := none } (BitVec.ofNat 16 (fld s.mine.mxcfg 32 16)) s.mine.groups

theorem exec_mmar (m : Bool) (t : BitVec 3) (a b : BitVec 5) (n : BitVec 1) (s : State) : exec (.mmar m t a b n) s =
    runM (engineM >>= fun _ => acquireM >>= fun _ =>
      if (pairOk (s.reg a) (s.reg b) s.mine.mxk.toNat).isNone || !groupOk (fld s.mine.mxcfg 1 3) t.toNat then illegalM (encodeWord (.mmar m t a b n))
      else operandsM (s.captured t a b n) >>= fun _ =>
        modM (fun u => u.send (s.mmarPkt (s.captured t a b n))) >>= fun _ => retireM m) s := rfl

section
variable {m : Bool} {t : BitVec 3} {a b : BitVec 5} {n : BitVec 1} {s : State} (hfree : EngineFree s)
include hfree

theorem exec_mmar_illegal (h : pairOk (s.reg a) (s.reg b) s.mine.mxk.toNat = none ∨ groupOk (fld s.mine.mxcfg 1 3) t.toNat = false) :
    exec (.mmar m t a b n) s = .next (s.faultHere { cause := .illegal, info := encodeWord (.mmar m t a b n), addr := 0, undeliv := false }) := by
  have hbad : ((pairOk (s.reg a) (s.reg b) s.mine.mxk.toNat).isNone || !groupOk (fld s.mine.mxcfg 1 3) t.toNat) = true := by
    simpa only [Bool.or_eq_true, Option.isNone_iff_eq_none, Bool.not_eq_true'] using h
  rw [exec_mmar, runM_eq_answer, engine_passes hfree, if_pos hbad]
  rfl

theorem exec_mmar_sends (hm : s.NoTrapDue m) (hpair : (pairOk (s.reg a) (s.reg b) s.mine.mxk.toNat).isSome = true)
    (hgroup : groupOk (fld s.mine.mxcfg 1 3) t.toNat = true) (hops : OperandsOk s (s.reg a) (s.reg b)) :
    ∃ u o gs, exec (.mmar m t a b n) s = .next u ∧ s.Advanced u m ∧ s.SameRegisters u ∧ (∀ p, u.byteAt p = s.byteAt p) ∧
      u.mine.mxq = s.mine.mxq ∧ o.issuer = none ∧ Captured s o t.toNat (decide (n = 1)) (s.reg a) (s.reg b) ∧
      u.net = s.net ++ [flying s.nextId (.mmar (fld s.mine.mxcfg 16 13) o (BitVec.ofNat 16 (fld s.mine.mxcfg 32 16)) gs)] ∧
      ∀ g, g ∈ gs ↔ ∃ j, j < 4 ∧ (tget s.mine.grp j 0).getLsbD 8 = true ∧ (tget s.mine.grp j 0).setWidth 8 = g := by
  have hgood : ¬ ((pairOk (s.reg a) (s.reg b) s.mine.mxk.toNat).isNone || !groupOk (fld s.mine.mxcfg 1 3) t.toNat) = true := by
    rw [hgroup, Bool.not_true, Bool.or_false, Option.isNone_iff_eq_none]
    intro hnone
    rw [hnone] at hpair
    cases hpair
  obtain ⟨hmoves, hadv, hregs, hmem⟩ := ((pastFences_keeps hfree).trans
    (.send _ (s.mmarPkt (s.captured t a b n)))).retire hm
  have hsent : ((pastFences s).send (s.mmarPkt (s.captured t a b n))).mine = (pastFences s).mine := rfl
  have hcore := hmoves.core
  rw [hsent, (pastFences_moves hfree).core] at hcore
  refine ⟨_, { s.captured t a b n with issuer := none }, s.mine.groups, ?_, hadv, hregs, hmem,
    (congrArg Core.mxq hcore :), rfl, ⟨⟨rfl, rfl, rfl, rfl, rfl, rfl, rfl⟩, ⟨rfl, rfl, rfl⟩, ⟨rfl, rfl, rfl⟩, rfl, rfl, rfl, rfl, rfl⟩,
    (congrArg State.net hmoves.rest :), s.mine.mem_groups⟩
  rw [exec_mmar, runM_eq_answer, engine_passes hfree, if_neg hgood, bind_ok (operandsM_passes hops rfl rfl rfl rfl rfl)]
  rfl
end

/-- Settles O34: mxw and mxr act on engine registers; mma and mmar go past the fences to the checks of 13 R280, in their order. -/
theorem matrixInstructions : Obligations.MatrixInstructions := by
  intro m t a b n r s hm hr
  refine ⟨delays_of_issue_plain (fun _ => rfl) fun _ => rfl, fun huser h5 => if_pos ⟨h5, huser⟩, fun mask hmask => exec_mxw_writes hm hr hmask,
    fun hfree ts hts => ?_, fun hfree => ⟨exec_mmar_illegal hfree, exec_mmar_sends hfree hm⟩⟩
  subst hts
  refine ⟨fun hwait => ?_, fun hidle hroom => ⟨exec_mma_unshaped hfree hidle hroom, fun htiles =>
    ⟨exec_mma_illegal hfree hidle hroom htiles, fun dst => exec_mma_queues hfree hidle hroom htiles hm⟩⟩⟩
  exact ⟨_, exec_mma_waits hfree hwait, pastFences_held hfree⟩

end Sys2Proof.Machine
end

section
/-! SUPPORT. What a step of the sequencer computes (13 R279, R281, 02 R59): the sum of its INT8 products, and the elements of the group's tiles
after all of them have been replaced. -/

namespace Sys2Proof.Machine

/-! ### The sum of INT8 products (02 R59) -/

theorem elemValue_int8 (got : List OpUnit) (row : Addr) (k : Nat) : (elemValue got 1 row k).1 =
    .ofInt (BitVec.ofNat 8 (operandBytes got (row + BitVec.ofInt 56 k).toNat 1)).toInt := by
  have helem : (elemValue got 1 row k).1 =
    .ofInt (BitVec.ofNat 8 (operandBytes got (row + BitVec.ofInt 56 ((1 : Nat) * (k : Int))).toNat 1)).toInt := rfl
  rw [helem, Int.natCast_one, Int.one_mul]

/-- One signed product as the sequencer adds it. -/
def addProduct (neg : Bool) (t : Int) (p : FVal × FVal) : Int :=
  match p.1.mul p.2 with
  | .fin s m _ => t + (if s != neg then -(m : Int) else m)
  | _ => t

theorem addProduct_ofInt (neg : Bool) (t x y : Int) :
    addProduct neg t (.ofInt x, .ofInt y) = t + if neg then -(x * y) else x * y := by
  have habs : ((x.natAbs * y.natAbs : Nat) : Int) = if decide (x < 0) != decide (y < 0) then -(x * y) else x * y := by
    rw [Int.natCast_mul]
    by_cases hx : x < 0 <;> by_cases hy : y < 0
    · simp [hx, hy, Int.ofNat_natAbs_of_nonpos (Int.le_of_lt hx), Int.ofNat_natAbs_of_nonpos (Int.le_of_lt hy)]
    · simp [hx, hy, Int.ofNat_natAbs_of_nonpos (Int.le_of_lt hx), Int.natAbs_of_nonneg (Int.not_lt.mp hy)]
    · simp [hx, hy, Int.natAbs_of_nonneg (Int.not_lt.mp hx), Int.ofNat_natAbs_of_nonpos (Int.le_of_lt hy)]
    · simp [hx, hy, Int.natAbs_of_nonneg (Int.not_lt.mp hx), Int.natAbs_of_nonneg (Int.not_lt.mp hy)]
  have hmul : addProduct neg t (.ofInt x, .ofInt y) =
      t + if (decide (x < 0) != decide (y < 0)) != neg then -((x.natAbs * y.natAbs : Nat) : Int) else (x.natAbs * y.natAbs : Nat) := rfl
  rw [hmul, habs]
  cases neg <;> cases (decide (x < 0) != decide (y < 0)) <;> simp

theorem foldl_addProduct (neg : Bool) (x y : Nat → Int) (ks : List Nat) (t : Int) :
    (ks.map fun k => (FVal.ofInt (x k), FVal.ofInt (y k))).foldl (addProduct neg) t =
      t + if neg then -(ks.map fun k => x k * y k).sum else (ks.map fun k => x k * y k).sum := by
  induction ks generalizing t with
  | nil => cases neg <;> simp
  | cons k ks ih =>
    rw [List.map_cons, List.foldl_cons, ih, addProduct_ofInt, List.map_cons, List.sum_cons]
    cases neg
    · simp only [Bool.false_eq_true, if_false]; omega
    · simp only [if_true]; omega

/-- An INT8 accumulator takes the exact sum of the products modulo 2^32. -/
theorem accumulate_int8 {got : List OpUnit} {ra rb : Addr} {ks : List Nat} {x y : Nat → Int} (neg : Bool) (c : Nat)
    (h : ∀ k ∈ ks, x k = (BitVec.ofNat 8 (operandBytes got (ra + BitVec.ofInt 56 k).toNat 1)).toInt ∧
      y k = (BitVec.ofNat 8 (operandBytes got (rb + BitVec.ofInt 56 k).toNat 1)).toInt) :
    (accumulate got neg 1 1 ra rb ks c).1 =
      (BitVec.ofInt 32 (c + if neg then -(ks.map fun k => x k * y k).sum else (ks.map fun k => x k * y k).sum)).toNat := by
  have hvals : (ks.map fun k => ((elemValue got 1 ra k).1, (elemValue got 1 rb k).1)) = ks.map fun k => (FVal.ofInt (x k), FVal.ofInt (y k)) :=
    List.map_congr_left fun k hk => by rw [elemValue_int8, elemValue_int8, (h k hk).1, (h k hk).2]
  have hsum : (accumulate got neg 1 1 ra rb ks c).1 =
      (BitVec.ofInt 32 (((ks.map fun k => (elemValue got 1 ra k, elemValue got 1 rb k)).map fun p => (p.1.1, p.2.1)).foldl (addProduct neg)
        (signedOf 32 c))).toNat := rfl
  rw [hsum, List.map_map]
  refine (congrArg (fun l => (BitVec.ofInt 32 (List.foldl (addProduct neg) (signedOf 32 c) l)).toNat) hvals).trans ?_
  rw [foldl_addProduct, BitVec.ofInt_add, signedOf, BitVec.ofInt_toInt, BitVec.ofInt_add, BitVec.ofInt_natCast]

/-! ### Rewriting tiles of a core -/

/-- The tiles of a list, each once, have been changed in order. -/
def Core.mapTiles (k : Core) (g : Nat → Tile → Tile) (ts : List Nat) : Core := ts.foldl (fun k t => k.setTile t (g t (k.tile t))) k

section
variable (k : Core) (g : Nat → Tile → Tile) (ts : List Nat)

theorem Core.mapTiles_frame : k.mapTiles g ts = { k with tiles := (k.mapTiles g ts).tiles } := by
  induction ts generalizing k with
  | nil => rfl
  | cons t ts ih => exact ih (k.setTile t (g t (k.tile t)))

theorem Core.tile_mapTiles {ts : List Nat} (h : ts.Nodup) (j : Nat) : (k.mapTiles g ts).tile j = if j ∈ ts then g j (k.tile j) else k.tile j := by
  induction ts generalizing k with
  | nil => rfl
  | cons t ts ih =>
    obtain ⟨hnew, hnodup⟩ := List.nodup_cons.mp h
    rw [show k.mapTiles g (t :: ts) = (k.setTile t (g t (k.tile t))).mapTiles g ts from rfl, ih _ hnodup, Core.tile_setTile]
    by_cases hj : j = t
    · subst hj
      rw [if_neg hnew, if_pos rfl, if_pos List.mem_cons_self]
    · simp only [hj, if_false, List.mem_cons, false_or]
end

/-! ### The group of an operation (13 R279) -/

section
variable (o : MxOp)

theorem MxOp.tiles_nodup : o.tiles.Nodup := List.nodup_range.map fun _ _ h => Nat.add_left_cancel h

theorem MxOp.mem_tiles (j : Nat) : j ∈ o.tiles ↔ ∃ i, i < (grpShape o.grp).1 * (grpShape o.grp).2 ∧ o.tile + i = j := by
  simp only [MxOp.tiles, List.mem_map, List.mem_range]

/-- A row of elements of a tile. -/
def packedRow (f : Nat → Nat) (n : Nat) : Vec := BitVec.ofNat 512 (packLanes 32 f n)

theorem lane_packedRow (f : Nat → Nat) {n j : Nat} (hn : n ≤ 16) (hj : j < n) : lane 4 (packedRow f n) j = f j % 2 ^ 32 := by
  have hfits : 32 * j + 32 ≤ 512 := by omega
  exact (bitsOf_ofNat hfits _).trans (bitsOf_packLanes 32 f hj)

/-- Tile j of the group with every element replaced. -/
def MxOp.newTile (v : Tile) (f : Nat → Nat → Nat) (j : Nat) (w : Tile) : Tile :=
  { w.mapRows (fun r _ => packedRow (fun c => f ((j - o.tile) / (grpShape o.grp).2 * v.rows + r)
      ((j - o.tile) % (grpShape o.grp).2 * (v.rowb / 4) + c)) (v.rowb / 4)) v.rows with st := 2 }

theorem Core.setGroup_eq (k : Core) (f : Nat → Nat → Nat) : k.setGroup o f = k.mapTiles (o.newTile (k.tile o.tile) f) o.tiles := rfl

/-- What an operation reads of its core is its tiles. -/
theorem MxOp.units_congr {k k' : Core} (h : k'.tiles = k.tiles) (t : Nat) : o.units k' t = o.units k t := by
  simp only [MxOp.units, MxOp.dims, Core.tile, h]
theorem MxOp.dims_congr {k k' : Core} (h : k'.tiles = k.tiles) : o.dims k' = o.dims k := by simp only [MxOp.dims, Core.tile, h]
theorem Core.groupElem_congr {k k' : Core} (h : k'.tiles = k.tiles) (r c : Nat) : k'.groupElem o r c = k.groupElem o r c := by
  simp only [Core.groupElem, Core.tile, h]

/-- An element of a tile whose elements have all been replaced. -/
theorem MxOp.lane_newTile {v w : Tile} (f : Nat → Nat → Nat) {j y z : Nat} (hw : w.rows = v.rows ∧ w.rowb = v.rowb) (hrowb : v.rowb ≤ 64)
    (hy : y < v.rows) (hz : z < v.rowb / 4) : lane 4 ((o.newTile v f j w).rowData y) z =
      f ((j - o.tile) / (grpShape o.grp).2 * v.rows + y) ((j - o.tile) % (grpShape o.grp).2 * (v.rowb / 4) + z) % 2 ^ 32 := by
  have hrow : (o.newTile v f j w).row y = _ := w.row_mapRows _ v.rows y
  obtain ⟨hrows', hrowb'⟩ : (o.newTile v f j w).rows = v.rows ∧ (o.newTile v f j w).rowb = v.rowb := by
    rw [MxOp.newTile, Tile.mapRows_shape]
    exact hw
  rw [Tile.rowData, Tile.lane_masked_inside _ _ (by rwa [hrows']) (by rw [hrowb']; exact elem_fits hz), hrow, if_pos hy]
  exact lane_packedRow _ (by omega) hz

theorem Core.shape_setGroup {k : Core} {v : Tile} (f : Nat → Nat → Nat) (hv : v = k.tile o.tile) :
    ((k.setGroup o f).tile o.tile).rows = v.rows ∧ ((k.setGroup o f).tile o.tile).rowb = v.rowb := by
  rw [Core.setGroup_eq, Core.tile_mapTiles _ _ o.tiles_nodup, hv]
  split
  · rw [MxOp.newTile, Tile.mapRows_shape]
    exact ⟨rfl, rfl⟩
  · exact ⟨rfl, rfl⟩

section
variable {o} {k : Core} {v : Tile} {r c : Nat} (f : Nat → Nat → Nat) (hv : v = k.tile o.tile) (hshape : shapeOk v.rows v.rowb v.fmt = true)
  (hgroup : ∀ j ∈ o.tiles, (k.tile j).rows = v.rows ∧ (k.tile j).rowb = v.rowb)
include hv hshape hgroup

/-- Every element of the group takes its new value, in the 32 bits that it has. -/
theorem Core.groupElem_setGroup (hr : r < (grpShape o.grp).1 * v.rows) (hc : c < (grpShape o.grp).2 * (v.rowb / 4)) :
    (k.setGroup o f).groupElem o r c = f r c % 2 ^ 32 := by
  have hrows : 0 < v.rows := Nat.pos_of_ne_zero (shapeOk_rows hshape)
  have hn : 0 < v.rowb / 4 := Nat.pos_of_ne_zero fun h0 => by rw [h0] at hc; exact Nat.not_lt_zero _ hc
  have hrow : r / v.rows < (grpShape o.grp).1 := Nat.div_lt_of_lt_mul (by rwa [Nat.mul_comm] at hr)
  have hcol : c / (v.rowb / 4) < (grpShape o.grp).2 := Nat.div_lt_of_lt_mul (by rwa [Nat.mul_comm] at hc)
  have hC : 0 < (grpShape o.grp).2 := Nat.zero_lt_of_lt hcol
  obtain ⟨hrows', hrowb'⟩ := Core.shape_setGroup o f hv
  have hmem : o.tile + (grpShape o.grp).2 * (r / v.rows) + c / (v.rowb / 4) ∈ o.tiles := by
    refine (o.mem_tiles _).mpr ⟨(grpShape o.grp).2 * (r / v.rows) + c / (v.rowb / 4), ?_, (Nat.add_assoc ..).symm⟩
    calc (grpShape o.grp).2 * (r / v.rows) + c / (v.rowb / 4)
      _ < (grpShape o.grp).2 * (r / v.rows + 1) := by rw [Nat.mul_succ]; omega
      _ ≤ (grpShape o.grp).2 * (grpShape o.grp).1 := Nat.mul_le_mul_left _ hrow
      _ = (grpShape o.grp).1 * (grpShape o.grp).2 := Nat.mul_comm ..
  have hix : o.tile + (grpShape o.grp).2 * (r / v.rows) + c / (v.rowb / 4) - o.tile = (grpShape o.grp).2 * (r / v.rows) + c / (v.rowb / 4) := by
    rw [Nat.add_assoc, Nat.add_sub_cancel_left]
  simp only [Core.groupElem, hrows', hrowb']
  rw [Core.setGroup_eq, Core.tile_mapTiles _ _ o.tiles_nodup, if_pos hmem, ← hv,
    o.lane_newTile f (hgroup _ hmem) (shapeOk_rowb hshape) (Nat.mod_lt _ hrows) (Nat.mod_lt _ hn), hix, Nat.mul_add_div hC,
    Nat.div_eq_of_lt hcol, Nat.mul_add_mod, Nat.mod_eq_of_lt hcol, Nat.add_zero, Nat.div_add_mod', Nat.div_add_mod']
end

/-- Element (r, c) of an output stands at its place among the positions. -/
theorem getElem?_positions {mm nn r c : Nat} (hr : r < mm) (hc : c < nn) : (positions mm nn)[r * nn + c]? = some (r, c) := by
  induction mm with
  | zero => omega
  | succ mm ih =>
    have hsplit : positions (mm + 1) nn = positions mm nn ++ (List.range nn).map fun c => (mm, c) := by
      simp [positions, List.range_succ, List.flatMap_append]
    have hlen (n : Nat) : (positions n nn).length = n * nn := by simp [positions]
    rw [hsplit]
    rcases Nat.lt_succ_iff_lt_or_eq.mp hr with hlt | rfl
    · have hin : r * nn + c < mm * nn := by
        calc r * nn + c < (r + 1) * nn := by rw [Nat.add_one_mul]; omega
          _ ≤ mm * nn := Nat.mul_le_mul_right nn hlt
      rw [List.getElem?_append_left (by rwa [hlen]), ih hlt]
    · rw [List.getElem?_append_right (by rw [hlen]; omega), hlen, Nat.add_sub_cancel_left, List.getElem?_map, List.getElem?_range hc]
      rfl
end

end Sys2Proof.Machine
end

section
/-! SUPPORT. The sequencer at work (13 R281, R284, R285, R287, 09 R208, R210, R212): what the end of a step leaves of the core and of memory,
what MATRIX_STEP does with the first operation, the commands of mmar at their target, and the statement of O35. -/

namespace Sys2Proof.Machine

/-! ### The end of a step (09 R208, R210, R212) -/

/-- A core whose operand buffer is empty. -/
def Core.unpinned (k : Core) : Core := { k.dropAgentOps mxCtx with mxbuf := [] }

/-- A pin is released, and a unit that it kept at its old home stands under the layout in force. -/
def State.releasePin (s : State) (c : Nat) (p : Nat × Nat) : State :=
  if (s.release p.1 p.2 (16384 + c)).pinned p.1 p.2 then s.release p.1 p.2 (16384 + c)
  else (s.release p.1 p.2 (16384 + c)).modCdr p.1 fun r => { r with stay := tdel r.stay p.2 }

theorem State.unpinAll_eq (s : State) (c : Nat) :
    s.unpinAll c = (s.core c).pins.foldl (fun s p => s.releasePin c p) (s.modCore c Core.unpinned) := rfl

theorem State.releasePin_frame (s : State) (c : Nat) (p : Nat × Nat) :
    (s.releasePin c p).cores = s.cores ∧ (s.releasePin c p).hbm = s.hbm ∧ (s.releasePin c p).hostMem = s.hostMem := by
  unfold State.releasePin
  split <;> exact ⟨rfl, rfl, rfl⟩

theorem State.releasePins_frame (s : State) (c : Nat) (ps : List (Nat × Nat)) :
    (ps.foldl (fun s p => s.releasePin c p) s).cores = s.cores ∧ (ps.foldl (fun s p => s.releasePin c p) s).hbm = s.hbm ∧
      (ps.foldl (fun s p => s.releasePin c p) s).hostMem = s.hostMem := by
  induction ps generalizing s with
  | nil => exact ⟨rfl, rfl, rfl⟩
  | cons p ps ih =>
    obtain ⟨hcores, hhbm, hhost⟩ := s.releasePin_frame c p
    obtain ⟨hcores', hhbm', hhost'⟩ := ih (s.releasePin c p)
    exact ⟨hcores'.trans hcores, hhbm'.trans hhbm, hhost'.trans hhost⟩

/-- Releasing pins changes no core and no memory. -/
theorem State.unpinAll_frame (s : State) (c : Nat) : (s.unpinAll c).cores = (s.modCore c Core.unpinned).cores ∧
    (s.unpinAll c).hbm = s.hbm ∧ (s.unpinAll c).hostMem = s.hostMem := by
  rw [State.unpinAll_eq]
  exact State.releasePins_frame ..

theorem Core.stopMx_frame (k : Core) : k.stopMx = { k with mxpend := k.stopMx.mxpend, mxstep := k.stopMx.mxstep } := by
  unfold Core.stopMx
  split
  · split <;> rfl
  · rfl

/-- An operation that is stopped stands after the step that it has completed. -/
theorem Core.stopMx_stopped {k : Core} {o : MxOp} {l : List MxOp} (hq : k.mxq = o :: l) (hbegun : o.begun = true) (hlive : o.abandoned = false)
    (hstop : k.mxstop ≠ 0) : k.stopMx.mxpend = true ∧ k.stopMx.mxstep = BitVec.ofNat 32 o.step := by
  simp [Core.stopMx, hq, hbegun, hlive, hstop]
theorem Core.stopMx_running {k : Core} (hstop : k.mxstop = 0) : k.stopMx = k := by
  unfold Core.stopMx
  split <;> simp [hstop]

/-- A core at the end of a step. -/
def Core.stepEnd (k : Core) : Core := k.unpinned.stopMx

theorem Core.stepEnd_frame (k : Core) : k.stepEnd =
    { k with ops := k.stepEnd.ops, mxbuf := [], mxpend := k.stepEnd.mxpend, mxstep := k.stepEnd.mxstep } := by
  rw [Core.stepEnd, Core.stopMx_frame]
  rfl

theorem State.core_stepped (s : State) (c : Nat) : (s.stepped c).core c = (s.core c).stepEnd := by
  obtain ⟨hcores, -, -⟩ := s.unpinAll_frame c
  have hcore : (s.unpinAll c).core c = (s.core c).unpinned := by
    rw [State.core, hcores]
    exact (State.core_modCore s c c Core.unpinned).trans (if_pos rfl)
  rw [State.stepped, State.core_modCore, if_pos rfl, hcore]
  rfl

theorem State.byteAt_stepped (s : State) (c : Nat) (p : ByteAt) : (s.stepped c).byteAt p = s.byteAt p := by
  obtain ⟨hcores, hhbm, hhost⟩ := s.unpinAll_frame c
  have hstop : (s.stepped c).byteAt p = (s.unpinAll c).byteAt p := by
    refine State.byteAt_modCore_of_keeps _ c Core.stopMx ?_ p
    rw [Core.stopMx_frame]
    exact ⟨rfl, rfl⟩
  have hpins := State.byteAt_modCore_of_keeps s c Core.unpinned ⟨rfl, rfl⟩ p
  rw [hstop, ← hpins]
  cases p with
  | hbm a => exact congrArg (Memory.byte · a) hhbm
  | host a => exact congrArg (Memory.byte · a) hhost
  | tcm d a => simp only [State.byteAt, State.core, hcores]
  | scratch d a => simp only [State.byteAt, State.core, hcores]

/-! ### A step of the first operation (13 R281, R284) -/

/-- Replaces the first operation of the queue. -/
theorem Core.setMx_of_queue {k : Core} {o p : MxOp} {l : List MxOp} (h : k.mxq = o :: l) : k.setMx p = { k with mxq := p :: l } := by
  rw [Core.setMx, h]

/-- The operation after step n, which gave the results `res`. -/
def MxOp.stepped (o : MxOp) (n : Nat) (res : List (Nat × Bool × Bool)) : MxOp :=
  { o with step := n + 1, nan := o.nan || res.any (fun x => x.2.1), ovf := o.ovf || res.any (fun x => x.2.2) }
/-- What step n gives for every element of the group, row after row. -/
def Core.stepResults (k : Core) (o : MxOp) (n : Nat) : List (Nat × Bool × Bool) :=
  (positions (o.dims k).1 (o.dims k).2).map fun p => k.stepElems o n k.mxbuf p.1 p.2

/-- The value of one of them. -/
def Core.stepValue (k : Core) (o : MxOp) (n i j : Nat) : Nat := ((k.stepResults o n).getD (i * (o.dims k).2 + j) (0, false, false)).1

theorem Core.stepValue_eq (k : Core) (o : MxOp) (n : Nat) {i j : Nat} (hi : i < (o.dims k).1) (hj : j < (o.dims k).2) :
    k.stepValue o n i j = (k.stepElems o n k.mxbuf i j).1 := by
  have hres : (k.stepResults o n)[i * (o.dims k).2 + j]? = some (k.stepElems o n k.mxbuf i j) := by
    rw [Core.stepResults, List.getElem?_map, getElem?_positions hi hj, Option.map_some]
  rw [Core.stepValue, List.getD_eq_getElem?_getD, hres]
  rfl

/-- The operation that an operand stopped at step n: one that is poisoned, and one that is refused. -/
def MxOp.spoiled (o : MxOp) (n : Nat) : MxOp := { o with opErr := true, uncorr := true, first := o.firstAt n, step := n }
def MxOp.refused (o : MxOp) (n : Nat) : MxOp := { o with opErr := true, first := o.firstAt n, step := n }

section
variable {s u : State} {c n : Nat} {o : MxOp}

theorem State.stepMx_waits (h : s.fetchUnits c (decide (o.mode = .supervisor)) (o.units (s.core c) n) = (u, .wait)) : s.stepMx c o n = u := by
  rw [State.stepMx, h]

theorem State.stepMx_all (h : s.fetchUnits c (decide (o.mode = .supervisor)) (o.units (s.core c) n) = (u, .all)) : s.stepMx c o n =
    (u.modCore c fun k => (k.setMx (o.stepped n ((u.core c).stepResults o n))).setGroup (o.stepped n ((u.core c).stepResults o n))
      ((u.core c).stepValue o n)).stepped c := by
  rw [State.stepMx, h]
  rfl

theorem State.stepMx_poison (h : s.fetchUnits c (decide (o.mode = .supervisor)) (o.units (s.core c) n) = (u, .poison)) : s.stepMx c o n =
    (u.modCore c fun k => (k.setMx (o.spoiled n)).mapTiles (fun _ w => { w with psn := true }) o.tiles).stepped c := by
  rw [State.stepMx, h]
  rfl

theorem State.stepMx_refused (h : s.fetchUnits c (decide (o.mode = .supervisor)) (o.units (s.core c) n) = (u, .refused)) :
    ∃ f, s.stepMx c o n =
      (({ u with nextId := u.nextId + 1 } : State).modCore c fun k => (k.setMx (o.refused n)).setGroup (o.refused n) f).stepped c := by
  rw [State.stepMx, h]
  exact ⟨_, rfl⟩

end

theorem Core.setGroup_frame (k : Core) (o : MxOp) (f : Nat → Nat → Nat) : k.setGroup o f = { k with tiles := (k.setGroup o f).tiles } := by
  rw [Core.setGroup_eq, Core.mapTiles_frame]

/-- A core after a step that has replaced the first operation by p and changed tiles alone. -/
structure Core.StepDone (k k' : Core) (p : MxOp) (l : List MxOp) : Prop where
  queue : k'.mxq = p :: l
  buffer : k'.mxbuf = []
  ram : k'.ram = k.ram
  stopped : k.mxstop ≠ 0 → p.begun = true → p.abandoned = false → k'.mxpend = true ∧ k'.mxstep = BitVec.ofNat 32 p.step
  running : k.mxstop = 0 → k'.mxpend = k.mxpend ∧ k'.mxstep = k.mxstep

theorem Core.stepDone_stepEnd {k k' : Core} {p : MxOp} {l : List MxOp} (h : k' = { k with mxq := p :: l, tiles := k'.tiles }) :
    k.StepDone k'.stepEnd p l := by
  have hqueue : k'.mxq = p :: l := by rw [h]
  have hstop' : k'.mxstop = k.mxstop := by rw [h]
  have hend := k'.stepEnd_frame
  refine ⟨(congrArg Core.mxq hend :).trans hqueue, (congrArg Core.mxbuf hend :), (congrArg Core.ram hend :).trans (by rw [h]),
    fun hstop hbegun hlive => Core.stopMx_stopped (k := k'.unpinned) hqueue hbegun hlive (hstop' ▸ hstop), fun hrun => ?_⟩
  rw [Core.stepEnd, Core.stopMx_running (k := k'.unpinned) (hstop'.trans hrun)]
  exact ⟨by rw [h]; rfl, by rw [h]; rfl⟩

theorem Core.tiles_stepEnd (k : Core) : k.stepEnd.tiles = k.tiles := by rw [Core.stepEnd_frame]

theorem State.core_modCore_stepped (u : State) (c : Nat) (f : Core → Core) :
    ((u.modCore c f).stepped c).core c = (f (u.core c)).stepEnd := by
  rw [State.core_stepped, State.core_modCore, if_pos rfl]
theorem State.byteAt_modCore_stepped (u : State) (c : Nat) (f : Core → Core)
    (hf : (f (u.core c)).tcm = (u.core c).tcm ∧ (f (u.core c)).scratch = (u.core c).scratch) (p : ByteAt) :
    ((u.modCore c f).stepped c).byteAt p = u.byteAt p := by
  rw [State.byteAt_stepped, State.byteAt_modCore_of_keeps u c f hf]

theorem Core.tile_stepEnd (k : Core) (j : Nat) : k.stepEnd.tile j = k.tile j := by rw [Core.tile, Core.tiles_stepEnd, Core.tile]

/-- A change of tiles after the first operation has been replaced. -/
theorem Core.setGroup_setMx {k : Core} {o : MxOp} {l : List MxOp} (hq : k.mxq = o :: l) (p q : MxOp) (f : Nat → Nat → Nat) :
    (k.setMx p).setGroup q f = { k with mxq := p :: l, tiles := ((k.setMx p).setGroup q f).tiles } := by
  rw [Core.setGroup_frame, Core.setMx_of_queue hq]
theorem Core.mapTiles_setMx {k : Core} {o : MxOp} {l : List MxOp} (hq : k.mxq = o :: l) (p : MxOp) (g : Nat → Tile → Tile) (ts : List Nat) :
    (k.setMx p).mapTiles g ts = { k with mxq := p :: l, tiles := ((k.setMx p).mapTiles g ts).tiles } := by
  rw [Core.mapTiles_frame, Core.setMx_of_queue hq]
theorem Core.tile_setMx (k : Core) (p : MxOp) (j : Nat) : (k.setMx p).tile j = k.tile j := rfl

section
variable {s u : State} {c n : Nat} {o : MxOp} {l : List MxOp} (hq : (u.core c).mxq = o :: l)
include hq

/-- A step with every unit at hand gives each element of the group its accumulation, and the operation counts it. -/
theorem State.stepMx_all_spec {v : Tile} (h : s.fetchUnits c (decide (o.mode = .supervisor)) (o.units (s.core c) n) = (u, .all))
    (hv : v = (u.core c).tile o.tile) (hshape : shapeOk v.rows v.rowb v.fmt = true)
    (hgroup : ∀ j ∈ o.tiles, ((u.core c).tile j).rows = v.rows ∧ ((u.core c).tile j).rowb = v.rowb) :
    (u.core c).StepDone ((s.stepMx c o n).core c) (o.stepped n ((u.core c).stepResults o n)) l ∧
      (∀ i j, i < (o.dims (u.core c)).1 → j < (o.dims (u.core c)).2 →
        ((s.stepMx c o n).core c).groupElem o i j = ((u.core c).stepElems o n (u.core c).mxbuf i j).1 % 2 ^ 32) ∧
      (∀ j, j ∉ o.tiles → ((s.stepMx c o n).core c).tile j = (u.core c).tile j) ∧ ∀ q, (s.stepMx c o n).byteAt q = u.byteAt q := by
  have hdone := Core.setGroup_setMx hq (o.stepped n ((u.core c).stepResults o n)) (o.stepped n ((u.core c).stepResults o n))
    ((u.core c).stepValue o n)
  rw [State.stepMx_all h, State.core_modCore_stepped]
  refine ⟨Core.stepDone_stepEnd hdone, fun i j hi hj => ?_, fun j hj => ?_,
    State.byteAt_modCore_stepped _ _ _ (by rw [hdone]; exact ⟨rfl, rfl⟩)⟩
  · rw [Core.groupElem_congr o (Core.tiles_stepEnd _)]
    rw [← (u.core c).stepValue_eq o n hi hj]
    simp only [MxOp.dims, ← hv] at hi hj
    exact Core.groupElem_setGroup (o := o.stepped n ((u.core c).stepResults o n))
      (k := (u.core c).setMx (o.stepped n ((u.core c).stepResults o n))) ((u.core c).stepValue o n) hv hshape hgroup hi hj
  · rw [Core.tile_stepEnd, Core.setGroup_eq, Core.tile_mapTiles _ _ (MxOp.tiles_nodup _), Core.tile_setMx]
    exact if_neg hj

/-- A poisoned operand poisons the tiles of the group and stops the operation at its step. -/
theorem State.stepMx_poison_spec (h : s.fetchUnits c (decide (o.mode = .supervisor)) (o.units (s.core c) n) = (u, .poison)) :
    (u.core c).StepDone ((s.stepMx c o n).core c) (o.spoiled n) l ∧
      ∀ j ∈ o.tiles, ((s.stepMx c o n).core c).tile j = { (u.core c).tile j with psn := true } := by
  rw [State.stepMx_poison h, State.core_modCore_stepped]
  refine ⟨Core.stepDone_stepEnd (Core.mapTiles_setMx hq ..), fun j hj => ?_⟩
  rw [Core.tile_stepEnd, Core.tile_mapTiles _ _ o.tiles_nodup, if_pos hj, Core.tile_setMx]

/-- A refused operand stops the operation at its step, and leaves every tile outside the group. -/
theorem State.stepMx_refused_spec (h : s.fetchUnits c (decide (o.mode = .supervisor)) (o.units (s.core c) n) = (u, .refused)) :
    (u.core c).StepDone ((s.stepMx c o n).core c) (o.refused n) l ∧
      ∀ j, j ∉ o.tiles → ((s.stepMx c o n).core c).tile j = (u.core c).tile j := by
  obtain ⟨f, hstep⟩ := State.stepMx_refused h
  rw [hstep, State.core_modCore_stepped]
  refine ⟨Core.stepDone_stepEnd (Core.setGroup_setMx hq ..), fun j hj => ?_⟩
  rw [Core.tile_stepEnd, Core.setGroup_eq, Core.tile_mapTiles _ _ (MxOp.tiles_nodup _), Core.tile_setMx]
  exact if_neg hj
end

/-! ### What MATRIX_STEP does with the first operation (09 R210 to R212) -/

section
variable {s : State} {core : Nat} {o : MxOp} {l : List MxOp} (hq : (s.core core).mxq = o :: l)
include hq

theorem exec_matrixStep_stands (hstop : (s.core core).mxstop ≠ 0) (hbuf : (s.core core).mxbuf = []) (hlive : o.abandoned = false) :
    exec (.matrixStep core) s = .next s := by
  show execMatrixStep core s = _
  unfold execMatrixStep
  simp only [hq, hbuf, hlive, List.isEmpty_nil, Bool.not_true, Bool.false_eq_true, if_false, ne_eq, hstop, not_false_eq_true, true_or, if_true]

/-- A step that has begun is finished first. -/
theorem exec_matrixStep_resumes (hbuf : (s.core core).mxbuf ≠ []) : exec (.matrixStep core) s = .next (s.stepMx core o o.step) := by
  show execMatrixStep core s = _
  unfold execMatrixStep
  simp only [hq]
  exact if_pos (by simpa using hbuf)

section
variable (hbuf : (s.core core).mxbuf = []) (hstop : (s.core core).mxstop = 0) (hpend : (s.core core).mxpend = false)
  (hlive : o.abandoned = false) (hbegun : o.begun = true)
include hbuf hstop hpend hlive hbegun

/-- An operation that runs goes on with its next step, or completes. -/
theorem exec_matrixStep_goes : exec (.matrixStep core) s = .next (if o.opErr = true ∨ o.steps ≤ o.step
    then (s.modCore core fun k => k.setMx o).completeMx core o else (s.modCore core fun k => k.setMx o).stepMx core o o.step) := by
  have hsame : ({ o with begun := true, abandoned := false } : MxOp) = o := by rw [← hbegun, ← hlive]
  show execMatrixStep core s = _
  unfold execMatrixStep
  simp only [hq, hbuf, hstop, hpend, hlive, hbegun, hsame, State.modCore, List.isEmpty_nil, Bool.not_true, Bool.false_eq_true, if_false, if_true,
    false_and, ne_eq, not_true_eq_false, Bool.false_and, or_self, reduceCtorEq, decide_false, Bool.or_false]
  split <;> rfl
end
end

/-! ### Completion (13 R285) -/

theorem barVa_none {w : Word} (h : w.toNat % 2 ^ 56 / 32 = 0) : barVa w = 0 := by rw [barVa, h]; rfl

/-- An operation that names no object completes at none. -/
theorem State.completeMxAt_none (s : State) (w : Writer) (c : Nat) {o : MxOp} (denied : Bool) (h : barVa o.bar = 0) :
    s.completeMxAt w c o denied = .done s () := if_pos h

/-- It leaves the queue, and its tiles and every byte of memory stay. -/
theorem State.completeMx_none (s : State) (c : Nat) {o : MxOp} (h : barVa o.bar = 0) :
    ((s.completeMx c o).core c).mxq = (s.core c).mxq.drop 1 ∧ ((s.completeMx c o).core c).tiles = (s.core c).tiles ∧
      ∀ p, (s.completeMx c o).byteAt p = s.byteAt p := by
  rw [State.completeMx, State.completeMxAt_none _ _ _ _ h]
  dsimp only
  rw [State.core_modCore, if_pos rfl]
  refine ⟨?_, ?_, State.byteAt_modCore_of_keeps s c _ ?_⟩
  · split <;> rfl
  · split <;> rfl
  · split <;> exact ⟨rfl, rfl⟩

/-! ### Commands at their target (13 R287) -/

section
variable {s : State} {id dst core : Nat} {h : Hold} {o : MxOp} {tag : BitVec 16} {gs : List (BitVec 8)}
  (hf : s.flight? id = some (Flight.mk id h (.mmar dst o tag gs))) (hcore : core = s.forwarded dst) (hstill : (s.core core).moving = false)
include hf hcore hstill

/-- A command whose target does not run its launch, or does not capture it, and that names no object is dropped. -/
theorem exec_mmarCommand_dropped (hbar : o.bar.toNat % 2 ^ 56 / 32 = 0)
    (hno : (∀ x, s.launchOf core = some x → o.launch ≠ some x.serial) ∨ (s.core core).captures tag gs = false) :
    exec (.mmarCommand id) s = .next (s.drop id) := by
  subst hcore
  have hdeny : s.denyMx id o = s.drop id := by rw [State.denyMx, State.completeMxAt_none _ _ _ _ (barVa_none hbar)]
  show execMmarCommand id s = _
  simp only [execMmarCommand, hf, hstill, Bool.false_eq_true, if_false, hdeny]
  refine if_pos ?_
  simp only [Bool.or_eq_true, Bool.not_eq_true']
  refine hno.imp (fun hlaunch => .inr ?_) fun hmissed => hmissed
  cases hl : o.launch with
  | none => rfl
  | some n =>
    cases hx : s.launchOf (s.forwarded dst) with
    | none => rfl
    | some x => exact beq_false_of_ne fun heq => hlaunch x hx (by rw [hl, heq])

/-- A command that is admitted joins the queue whole. -/
theorem exec_mmarCommand_joins {x : Launch} (hcompute : s.isCompute core = true) (hx : s.launchOf core = some x) (hlaunch : o.launch = some x.serial)
    (hcapt : (s.core core).captures tag gs = true)
    (htiles : ∀ i ∈ groupTiles o.grp o.tile, (s.core core).tileBusy i = false ∧ ((s.core core).tile i).st ≠ 3)
    (hadmit : (s.core core).admits o = true) (hroom : (s.core core).mxq.length < 4) :
    exec (.mmarCommand id) s = .next ((s.drop id).modCore core fun k => { k with mxq := k.mxq ++ [o] }) := by
  subst hcore
  have hfree : ¬ ((groupTiles o.grp o.tile).any (fun i => (s.core (s.forwarded dst)).tileBusy i) = true ∨
      4 ≤ (s.core (s.forwarded dst)).mxq.length) := by
    rw [List.any_eq_true]
    rintro (⟨i, hi, hbusy⟩ | hfull)
    · rw [(htiles i hi).1] at hbusy
      exact absurd hbusy Bool.false_ne_true
    · omega
  show execMmarCommand id s = _
  simp only [execMmarCommand, hf, hstill, hcompute, hx, hlaunch, hcapt, hfree, s.lazyAll_of_no_lazy _ _ _ fun i hi => (htiles i hi).2, ite_self,
    hadmit, beq_self_eq_true, Bool.not_true, Bool.or_self, Bool.false_eq_true, if_false]
end

/-! ### The clauses of a step -/

section
variable {s s₀ u : State} {core : Nat} {o : MxOp} {l : List MxOp} {f : Reads} (hq : (s.core core).mxq = o :: l) (hbegun : o.begun = true)
  (hok : o.opErr = false) (hmore : o.step < (o.k + 31) / 32)
  (hstart : ((s.core core).mxbuf ≠ [] ∧ s₀ = s) ∨ ((s.core core).mxbuf = [] ∧ (s.core core).mxstop = 0 ∧ (s.core core).mxpend = false ∧
    o.abandoned = false ∧ s₀ = s.modCore core fun k => k.setMx o))
include hq hstart

/-- The state in which a step reads its units has the tiles of the one before. -/
theorem State.tiles_atStep : (s₀.core core).tiles = (s.core core).tiles := by
  obtain ⟨-, rfl⟩ | ⟨-, -, -, -, rfl⟩ := hstart
  · rfl
  · rw [State.core_modCore, if_pos rfl, Core.setMx_of_queue hq]

include hbegun hok hmore

theorem exec_matrixStep_steps : exec (.matrixStep core) s = .next (s₀.stepMx core o o.step) := by
  obtain ⟨hbuf, rfl⟩ | ⟨hbuf, hstop, hpend, hlive, rfl⟩ := hstart
  · exact exec_matrixStep_resumes hq hbuf
  · have hunfinished : ¬ (o.opErr = true ∨ o.steps ≤ o.step) := by
      rw [hok, MxOp.steps]
      rintro (herr | hdone)
      · exact absurd herr Bool.false_ne_true
      · omega
    rw [exec_matrixStep_goes hq hbuf hstop hpend hlive hbegun, if_neg hunfinished]

variable (hfetch : s₀.fetchUnits core (decide (o.mode = .supervisor)) (o.units (s.core core) o.step) = (u, f)) (hqueue : (u.core core).mxq = o :: l)
  (htiles : (u.core core).tiles = (s.core core).tiles)
include hfetch

theorem exec_matrixStep_waits (hf : f = .wait) : exec (.matrixStep core) s = .next u := by
  subst hf
  rw [exec_matrixStep_steps hq hbegun hok hmore hstart, State.stepMx_waits]
  rwa [o.units_congr (State.tiles_atStep hq hstart)]

include hqueue htiles

/-- A step with every unit at hand. -/
theorem exec_matrixStep_all {v : Tile} (hv : v = (s.core core).tile o.tile) (hshape : shapeOk v.rows v.rowb v.fmt = true)
    (hgroup : ∀ j ∈ o.tiles, ((s.core core).tile j).rows = v.rows ∧ ((s.core core).tile j).rowb = v.rowb) (hf : f = .all) :
    ∃ t p, exec (.matrixStep core) s = .next t ∧ (t.core core).mxq = p :: l ∧ p.step = o.step + 1 ∧ p.opErr = false ∧
      p.tile = o.tile ∧ (t.core core).mxbuf = [] ∧
      (∀ r c, r < (o.dims (s.core core)).1 → c < (o.dims (s.core core)).2 → (t.core core).groupElem o r c =
        (accumulate (u.core core).mxbuf o.neg (ptrFmt o.a) (ptrFmt o.b) (rowStart o.a o.sa r) (rowStart o.b o.sb c) (o.ks o.step)
          ((s.core core).groupElem o r c)).1 % 2 ^ 32) ∧
      (∀ j, j ∉ o.tiles → (t.core core).tile j = (s.core core).tile j) ∧ (t.core core).ram = (u.core core).ram ∧
      ((u.core core).mxstop ≠ 0 → o.abandoned = false → (t.core core).mxpend = true ∧ (t.core core).mxstep = BitVec.ofNat 32 (o.step + 1)) ∧
      ((u.core core).mxstop = 0 → (t.core core).mxpend = (u.core core).mxpend ∧ (t.core core).mxstep = (u.core core).mxstep) ∧
      ((u.core core).pins = [] → ∀ q, t.byteAt q = u.byteAt q) := by
  subst hf
  have htile (j : Nat) : (u.core core).tile j = (s.core core).tile j := by rw [Core.tile, htiles, Core.tile]
  rw [← o.units_congr (State.tiles_atStep hq hstart)] at hfetch
  obtain ⟨⟨hqueue', hbuffer, hram, hstopped, hrunning⟩, helems, hothers, hmem⟩ := State.stepMx_all_spec hqueue hfetch (hv.trans (htile _).symm) hshape
    fun j hj => by rw [htile]; exact hgroup j hj
  refine ⟨_, _, exec_matrixStep_steps hq hbegun hok hmore hstart, hqueue', rfl, hok, rfl, hbuffer, fun r c hr hc => ?_,
    fun j hj => (hothers j hj).trans (htile j), hram, fun hstop hlive => hstopped hstop hbegun hlive, hrunning, fun _ => hmem⟩
  rw [← o.dims_congr htiles] at hr hc
  rw [helems r c hr hc, Core.stepElems, Core.groupElem_congr o htiles]

/-- A poisoned operand. -/
theorem exec_matrixStep_poison (hf : f = .poison) : ∃ t p, exec (.matrixStep core) s = .next t ∧ (t.core core).mxq = p :: l ∧
    p.step = o.step ∧ p.opErr = true ∧ p.uncorr = true ∧ (t.core core).mxbuf = [] ∧
    ∀ j, j ∈ o.tiles → (t.core core).tile j = { (s.core core).tile j with psn := true } := by
  subst hf
  rw [← o.units_congr (State.tiles_atStep hq hstart)] at hfetch
  obtain ⟨⟨hqueue', hbuffer, -, -, -⟩, hpoisoned⟩ := State.stepMx_poison_spec hqueue hfetch
  refine ⟨_, _, exec_matrixStep_steps hq hbegun hok hmore hstart, hqueue', rfl, rfl, rfl, hbuffer, fun j hj => ?_⟩
  rw [hpoisoned j hj, Core.tile, htiles, Core.tile]

/-- A refused operand. -/
theorem exec_matrixStep_refused (hf : f = .refused) : ∃ t p, exec (.matrixStep core) s = .next t ∧ (t.core core).mxq = p :: l ∧
    p.step = o.step ∧ p.opErr = true ∧ (t.core core).mxbuf = [] ∧ ∀ j, j ∉ o.tiles → (t.core core).tile j = (s.core core).tile j := by
  subst hf
  rw [← o.units_congr (State.tiles_atStep hq hstart)] at hfetch
  obtain ⟨⟨hqueue', hbuffer, -, -, -⟩, hothers⟩ := State.stepMx_refused_spec hqueue hfetch
  refine ⟨_, _, exec_matrixStep_steps hq hbegun hok hmore hstart, hqueue', rfl, rfl, hbuffer, fun j hj => ?_⟩
  rw [hothers j hj, Core.tile, htiles, Core.tile]
end

/-- Settles O35: products add up exactly; a step goes through what its reads bring; an operation completes, and commands join or are dropped. -/
theorem matrixSequencer : Obligations.MatrixSequencer := by
  refine ⟨fun got ra rb ks c x y hxy => ⟨accumulate_int8 false c hxy, ?_⟩, fun s u core o l v hq hv hshape hgroup => ⟨fun hstop hbuf hlive => ?_,
    fun hstop hbuf hpend hlive hbegun hdone hbar => ?_, fun s₀ f hbegun hok hmore hstart hfetch hqueue htiles => ?_⟩,
    fun s id dst core h o tag gs hf hcore hstill => ⟨fun x hcompute hx hlaunch hcapt hgroup hadmit hroom => ?_, fun hno hbar => ?_⟩⟩
  · rw [accumulate_int8 true c hxy, if_pos rfl, Int.sub_eq_add_neg]
  · exact exec_matrixStep_stands hq hstop hbuf hlive
  · obtain ⟨hq', htiles', hmem⟩ := (s.modCore core fun k => k.setMx o).completeMx_none core (barVa_none hbar)
    refine ⟨_, (exec_matrixStep_goes hq hbuf hstop hpend hlive hbegun).trans (congrArg _ (if_pos hdone)), ?_, ?_, fun p => ?_⟩
    · rw [hq', State.core_modCore, if_pos rfl, Core.setMx_of_queue hq]
      rfl
    · rw [htiles', State.core_modCore, if_pos rfl]
      rfl
    · rw [hmem]
      exact State.byteAt_modCore_of_keeps s core (fun k => k.setMx o) ⟨rfl, rfl⟩ p
  · exact ⟨exec_matrixStep_waits hq hbegun hok hmore hstart hfetch,
      exec_matrixStep_all hq hbegun hok hmore hstart hfetch hqueue htiles hv hshape hgroup,
      exec_matrixStep_poison hq hbegun hok hmore hstart hfetch hqueue htiles,
      exec_matrixStep_refused hq hbegun hok hmore hstart hfetch hqueue htiles⟩
  · refine ⟨_, exec_mmarCommand_joins hf hcore hstill hcompute hx hlaunch hcapt hgroup hadmit hroom, ?_, ?_, rfl,
      State.byteAt_modCore_of_keeps _ core _ ⟨rfl, rfl⟩⟩
    all_goals
      rw [State.core_modCore, if_pos rfl]
      rfl
  · exact exec_mmarCommand_dropped hf hcore hstill hbar hno

end Sys2Proof.Machine
end
